-- ==== Sys2Proof/Word.lean ====
section
/-! DEFINITION. The word types of the module and the sizes of its numbered unit families. -/

namespace Sys2Proof

abbrev Byte := BitVec 8
abbrev Word := BitVec 32
abbrev DWord := BitVec 64

/-- An engine pair Cc.Ee, numbered 12c + e (R5, R16). -/
abbrev Eng := Fin 48
/-- A stream engine in the numbering of Table 6-1. -/
abbrev StreamIx := Fin 80
/-- A host port: 0 on X0, 1 on X1. -/
abbrev HostPort := Fin 2
/-- A PCIe function of a host port: 0 the physical function, n the virtual function n (R425). -/
abbrev FnIx := Fin 65
abbrev KennelId := BitVec 6
abbrev QueueId := BitVec 15
abbrev TreeId := BitVec 12
abbrev LitterId := BitVec 10
abbrev PortId := BitVec 4
abbrev MDieId := BitVec 2
abbrev SlotId := BitVec 5
abbrev ModuleId := BitVec 12
abbrev MbxId := BitVec 12
/-- A kennel-local address (R208). -/
abbrev KAddr := BitVec 44

end Sys2Proof
end

