-- ==== Sys2Proof/Machine/Tbl.lean ====
section
/-! DEFINITION. Sparse tables in one canonical form: keys strictly rising, no entry that holds the
value an unlisted key reads as. Every memory and every numbered unit family of the module is one. -/

namespace Sys2Proof.Machine

/-- A table of entries by number; `d` is what an unlisted number reads as. -/
abbrev Tbl (α : Type) := List (Nat × α)

/-- The entry of number `k`. -/
def Tbl.get {α : Type} (d : α) (t : Tbl α) (k : Nat) : α :=
  match t with
  | [] => d
  | (k', v) :: r => if k' = k then v else Tbl.get d r k

/-- Insert before the first greater number. -/
def Tbl.insert {α : Type} (t : Tbl α) (k : Nat) (v : α) : Tbl α :=
  match t with
  | [] => [(k, v)]
  | (k', v') :: r => if k < k' then (k, v) :: (k', v') :: r else (k', v') :: Tbl.insert r k v

/-- Remove every entry of number `k`. -/
def Tbl.erase {α : Type} (t : Tbl α) (k : Nat) : Tbl α :=
  t.filter (fun p => p.1 != k)

/-- Write the entry of number `k`; writing what an unlisted number reads as removes the entry. -/
def Tbl.set {α : Type} [DecidableEq α] (d : α) (t : Tbl α) (k : Nat) (v : α) : Tbl α :=
  if v = d then Tbl.erase t k else Tbl.insert (Tbl.erase t k) k v

/-- Write one entry through a function. -/
def Tbl.modify {α : Type} [DecidableEq α] (d : α) (t : Tbl α) (k : Nat) (f : α → α) : Tbl α :=
  Tbl.set d t k (f (Tbl.get d t k))

/-- Apply a function to every listed entry. -/
def Tbl.mapAll {α : Type} [DecidableEq α] (d : α) (t : Tbl α) (f : Nat → α → α) : Tbl α :=
  t.foldr (fun p acc => Tbl.set d acc p.1 (f p.1 p.2)) []

/-- The numbers listed. -/
def Tbl.keys {α : Type} (t : Tbl α) : List Nat := t.map (·.1)

/-- The canonical form: numbers strictly rising, and no entry equal to `d`. -/
abbrev Tbl.wf {α : Type} [DecidableEq α] (d : α) (t : Tbl α) : Prop :=
  (t.map (·.1)).Pairwise (· < ·) ∧ ∀ p ∈ t, p.2 ≠ d

end Sys2Proof.Machine
end

