-- ==== Sys2Proof/Machine/Bits.lean ====
section
/-! DEFINITION. Bit fields, sign extension, byte order (R10, R11), access codes (R13) and byte memory. -/

namespace Sys2Proof.Machine

/-- Bits [hi:lo] of a word, as a number (R10). -/
def fld {n : Nat} (w : BitVec n) (hi lo : Nat) : Nat := (w.toNat >>> lo) % 2 ^ (hi + 1 - lo)

/-- Bit [i] of a word. -/
def bit {n : Nat} (w : BitVec n) (i : Nat) : Bool := w.getLsbD i

/-- The word whose bits [hi:lo] are ones. -/
def mask (n hi lo : Nat) : BitVec n := BitVec.ofNat n ((2 ^ (hi + 1 - lo) - 1) <<< lo)

/-- A field placed at bit `lo`. -/
def put (n lo : Nat) (v : Nat) : BitVec n := BitVec.ofNat n (v <<< lo)

/-- A flag placed at bit `lo`. -/
def putB (n lo : Nat) (b : Bool) : BitVec n := if b then BitVec.ofNat n (1 <<< lo) else 0

/-- A number of `n` bits read as two's complement. -/
def sext (n : Nat) (v : Nat) : Int := if v < 2 ^ (n - 1) then v else (v : Int) - 2 ^ n

/-- The effect of a register write by the access codes of Table 0-3: `rw` bits store the value, `w1c`
bits clear where a one is written, every other bit ignores it. -/
def accWrite {n : Nat} (rw w1c old v : BitVec n) : BitVec n :=
  ((old &&& ~~~rw) ||| (v &&& rw)) &&& ~~~(v &&& w1c)

/-- A 32-bit event counter after one more event: it wraps at 2³². -/
def inc (c : Word) : Word := c + 1

/-- Bytes of a number, least significant first (R11). -/
def leBytes (n : Nat) (v : Nat) : List Byte :=
  match n with
  | 0 => []
  | k + 1 => BitVec.ofNat 8 v :: leBytes k (v / 256)

/-- The number that bytes spell, least significant first (R11). -/
def leNat (bs : List Byte) : Nat :=
  match bs with
  | [] => 0
  | b :: r => b.toNat + 256 * leNat r

/-- ⌈a / b⌉. -/
def ceilDiv (a b : Nat) : Nat := (a + b - 1) / b

/-- Number of ones of a word. -/
def popcount {n : Nat} (w : BitVec n) : Nat := ((List.range n).filter (fun i => w.getLsbD i)).length

/-- Positions of the ones of a word, ascending. -/
def ones {n : Nat} (w : BitVec n) : List Nat := (List.range n).filter (fun i => w.getLsbD i)

/-- Even parity over 32 bits (R103). -/
def parity (w : Word) : Bool := popcount w % 2 == 1

/-- Byte memory: an unlisted byte reads as zero (R219, R447, R470). -/
abbrev Mem := Tbl Byte

def Mem.byte (m : Mem) (a : Nat) : Byte := Tbl.get 0 m a
def Mem.setByte (m : Mem) (a : Nat) (b : Byte) : Mem := Tbl.set 0 m a b

/-- `n` bytes from address `a`. -/
def Mem.read (m : Mem) (a n : Nat) : List Byte := (List.range n).map (fun i => Mem.byte m (a + i))

/-- Store bytes from address `a` upward. -/
def Mem.write (m : Mem) (a : Nat) (bs : List Byte) : Mem :=
  match bs with
  | [] => m
  | b :: r => Mem.write (Mem.setByte m a b) (a + 1) r

/-- `n` bytes from address `a` as a little-endian number. -/
def Mem.readNat (m : Mem) (a n : Nat) : Nat := leNat (Mem.read m a n)

/-- Zero every byte below `n` from address `a`. -/
def Mem.zero (m : Mem) (a n : Nat) : Mem := m.filter (fun p => !(a ≤ p.1 && p.1 < a + n))

/-- Element `col`, `w` bits wide, of a row that starts at byte `a`: least significant bits first (R46, R114). -/
def Mem.elem (m : Mem) (a w col : Nat) : Nat :=
  let lo := col * w
  (Mem.readNat m (a + lo / 8) 4 >>> (lo % 8)) % 2 ^ w

/-- Write element `col`, `w` bits wide, of a row that starts at byte `a` (R114, R117). -/
def Mem.setElem (m : Mem) (a w col v : Nat) : Mem :=
  let lo := col * w
  let n := (lo % 8 + w + 7) / 8
  let old := Mem.readNat m (a + lo / 8) n
  let keep := old - ((old >>> (lo % 8)) % 2 ^ w) <<< (lo % 8)
  Mem.write m (a + lo / 8) (leBytes n (keep + (v % 2 ^ w) <<< (lo % 8)))

/-- The canonical form of a memory. -/
abbrev Mem.wf (m : Mem) : Prop := Tbl.wf (0 : Byte) m

/-- CRC-32C step over one bit (polynomial 0x1EDC_6F41 reflected, R252). -/
def crcBit (c : Word) : Word := if c.getLsbD 0 then (c >>> 1) ^^^ 0x82F63B78#32 else c >>> 1

def crcByte (c : Word) (b : Byte) : Word :=
  let x := c ^^^ b.setWidth 32
  crcBit (crcBit (crcBit (crcBit (crcBit (crcBit (crcBit (crcBit x)))))))

/-- CRC-32C over bytes. -/
def crc32c (bs : List Byte) : Word := ~~~(bs.foldl crcByte (BitVec.allOnes 32))

end Sys2Proof.Machine
end

