-- ==== Sys2Proof/Machine/Float.lean ====
section
/-! DEFINITION. Numeric formats of Table 2-1 and Table 2-2: decoding, exact arithmetic on dyadic values, and
rounding by RNE (R38, R39) or stochastically (R40). -/

namespace Sys2Proof.Machine

/-- A floating value: `fin neg m e` is (−1)^neg × m × 2^e; a zero keeps its sign. -/
inductive Fp where
  | nan
  | inf (neg : Bool)
  | fin (neg : Bool) (m : Nat) (e : Int)
deriving DecidableEq, Repr

/-- An IEEE-style format: exponent and fraction bits (R33). -/
structure Fmt where
  eb : Nat
  fb : Nat
deriving DecidableEq, Repr

def fp32 : Fmt := ⟨8, 23⟩
def bf16 : Fmt := ⟨8, 7⟩
def fp16 : Fmt := ⟨5, 10⟩
def a22 : Fmt := ⟨8, 13⟩

def Fmt.bias (f : Fmt) : Int := 2 ^ (f.eb - 1) - 1
/-- Exponent of the unit in the last place of a subnormal. -/
def Fmt.emin (f : Fmt) : Int := 1 - f.bias - f.fb
def Fmt.infBits (f : Fmt) : Nat := (2 ^ f.eb - 1) * 2 ^ f.fb
/-- The canonical quiet NaN (R36). -/
def Fmt.nanBits (f : Fmt) : Nat := f.infBits + 2 ^ (f.fb - 1)
def Fmt.signBit (f : Fmt) : Nat := 2 ^ (f.eb + f.fb)

/-- The value of a bit pattern of an IEEE-style format. -/
def Fmt.decode (f : Fmt) (x : Nat) : Fp :=
  let neg := x / f.signBit % 2 == 1
  let ex := x / 2 ^ f.fb % 2 ^ f.eb
  let fr := x % 2 ^ f.fb
  if ex = 2 ^ f.eb - 1 then (if fr = 0 then .inf neg else .nan)
  else if ex = 0 then .fin neg fr f.emin
  else .fin neg (2 ^ f.fb + fr) (f.emin + (ex - 1))

/-- m × 2^(−sh) rounded to an integer, ties to even. -/
def rneShift (m : Nat) (sh : Int) : Nat :=
  if sh ≤ 0 then m * 2 ^ (-sh).toNat
  else
    let k := sh.toNat
    let q := m / 2 ^ k
    let r := m % 2 ^ k
    let h := 2 ^ (k - 1)
    if r > h ∨ (r = h ∧ q % 2 = 1) then q + 1 else q

/-- m × 2^(−sh) rounded stochastically with draw `u`: away from zero when u < floor(fraction × 2¹⁶) (R40). -/
def srShift (u : Nat) (m : Nat) (sh : Int) : Nat :=
  if sh ≤ 0 then m * 2 ^ (-sh).toNat
  else
    let k := sh.toNat
    let q := m / 2 ^ k
    if u < m % 2 ^ k * 2 ^ 16 / 2 ^ k then q + 1 else q

/-- How a conversion rounds: RNE, or SR with its 16-bit draw. -/
inductive Rounding where
  | rne
  | sr (u : Nat)
deriving DecidableEq, Repr

def Rounding.shift (r : Rounding) (m : Nat) (sh : Int) : Nat :=
  match r with
  | .rne => rneShift m sh
  | .sr u => srShift u m sh

/-- Magnitude code, before range limits, of m × 2^e in a format with `fb` fraction bits and subnormal unit
2^emin: subnormals, normals and a carry into the next exponent all follow from one sum. -/
def magCode (r : Rounding) (fb : Nat) (emin : Int) (m : Nat) (e : Int) : Nat :=
  if m = 0 then 0
  else
    let q := max emin (e + (Nat.log2 m : Int) - fb)
    r.shift m (q - e) + (q - emin).toNat * 2 ^ fb

/-- Conversion into an IEEE-style format: overflow gives the signed infinity (R39), a NaN the canonical one (R36). -/
def Fmt.encodeR (r : Rounding) (f : Fmt) (x : Fp) : Nat :=
  match x with
  | .nan => f.nanBits
  | .inf neg => (if neg then f.signBit else 0) + f.infBits
  | .fin neg m e => (if neg then f.signBit else 0) + min (magCode r f.fb f.emin m e) f.infBits

def Fmt.encode (f : Fmt) (x : Fp) : Nat := f.encodeR .rne x

def decW (x : Word) : Fp := fp32.decode x.toNat
def encW (x : Fp) : Word := BitVec.ofNat 32 (fp32.encode x)

/-- The value of a format's bit pattern, as FP32 bits: BF16 and FP16 widen exactly. -/
def widen (f : Fmt) (x : Nat) : Word := encW (f.decode x)

def Fp.neg (x : Fp) : Fp :=
  match x with
  | .nan => .nan
  | .inf n => .inf (!n)
  | .fin n m e => .fin (!n) m e

def Fp.isNan (x : Fp) : Bool := match x with | .nan => true | _ => false
/-- A NaN or an infinity. -/
def Fp.special (x : Fp) : Bool := match x with | .fin .. => false | _ => true

/-- Signed mantissa at exponent e₀ ≤ e. -/
def scaleTo (neg : Bool) (m : Nat) (e e₀ : Int) : Int :=
  let v : Int := (m * 2 ^ (e - e₀).toNat : Nat)
  if neg then -v else v

/-- The value v × 2^e; an exact zero is +0 (R52). -/
def Fp.ofInt (v : Int) (e : Int) : Fp := .fin (v < 0) v.natAbs e

/-- Exact sum, with the IEEE rules for zeros, infinities and NaNs. -/
def Fp.add (x y : Fp) : Fp :=
  match x, y with
  | .nan, _ => .nan
  | _, .nan => .nan
  | .inf a, .inf b => if a = b then .inf a else .nan
  | .inf a, .fin .. => .inf a
  | .fin .., .inf b => .inf b
  | .fin n₁ m₁ e₁, .fin n₂ m₂ e₂ =>
    if m₁ = 0 ∧ m₂ = 0 then .fin (n₁ && n₂) 0 0
    else
      let e := min e₁ e₂
      Fp.ofInt (scaleTo n₁ m₁ e₁ e + scaleTo n₂ m₂ e₂ e) e

/-- Exact product (R51). -/
def Fp.mul (x y : Fp) : Fp :=
  match x, y with
  | .nan, _ => .nan
  | _, .nan => .nan
  | .inf a, .inf b => .inf (a != b)
  | .inf a, .fin n m _ => if m = 0 then .nan else .inf (a != n)
  | .fin n m _, .inf b => if m = 0 then .nan else .inf (n != b)
  | .fin n₁ m₁ e₁, .fin n₂ m₂ e₂ => .fin (n₁ != n₂) (m₁ * m₂) (e₁ + e₂)

/-- x < y for values that are no NaN; −0 = +0. -/
def Fp.lt (x y : Fp) : Bool :=
  match x, y with
  | .nan, _ => false
  | _, .nan => false
  | .inf a, .inf b => a && !b
  | .inf a, .fin .. => a
  | .fin .., .inf b => !b
  | .fin n₁ m₁ e₁, .fin n₂ m₂ e₂ =>
    let e := min e₁ e₂
    scaleTo n₁ m₁ e₁ e < scaleTo n₂ m₂ e₂ e

/-- IEEE equality: false with a NaN, and −0 = +0. -/
def Fp.eqv (x y : Fp) : Bool := !x.isNan && !y.isNan && !Fp.lt x y && !Fp.lt y x

def fadd (a b : Word) : Word := encW (Fp.add (decW a) (decW b))
def fsub (a b : Word) : Word := encW (Fp.add (decW a) (decW b).neg)
def fmul (a b : Word) : Word := encW (Fp.mul (decW a) (decW b))
/-- a × b + c, rounded once (R37). -/
def ffma (a b c : Word) : Word := encW (Fp.add (Fp.mul (decW a) (decW b)) (decW c))
def ffnma (a b c : Word) : Word := encW (Fp.add (Fp.mul (decW a) (decW b)).neg (decW c))

/-- a orders below b, with −0 below +0 (R37). -/
def orderedBelow (a b : Word) : Bool :=
  Fp.lt (decW a) (decW b) || (Fp.eqv (decW a) (decW b) && a.getLsbD 31 && !b.getLsbD 31)

def nanW : Word := 0x7FC00000#32
def isNanW (a : Word) : Bool := (decW a).isNan
def specialW (a : Word) : Bool := (decW a).special

/-- Minimum: the canonical NaN when either operand is a NaN, −0 below +0 (R37). -/
def fmin (a b : Word) : Word := if isNanW a || isNanW b then nanW else if orderedBelow b a then b else a
def fmax (a b : Word) : Word := if isNanW a || isNanW b then nanW else if orderedBelow a b then b else a

/-- Comparisons 0 to 5: =, ≠, <, ≤, >, ≥; with a NaN only ≠ is true (R37, Table 5-4). -/
def fcmp (op : Nat) (a b : Word) : Bool :=
  let x := decW a
  let y := decW b
  match op with
  | 0 => Fp.eqv x y
  | 1 => !Fp.eqv x y
  | 2 => Fp.lt x y
  | 3 => Fp.lt x y || Fp.eqv x y
  | 4 => Fp.lt y x
  | _ => Fp.lt y x || Fp.eqv x y

def icmp (op : Nat) (a b : Word) : Bool :=
  match op with
  | 0 => a == b
  | 1 => a != b
  | 2 => a.slt b
  | 3 => a.sle b
  | 4 => b.slt a
  | _ => b.sle a

/-- FP32 to BF16 or FP16 bits. -/
def toBf16 (r : Rounding) (a : Word) : Nat := bf16.encodeR r (decW a)
def toFp16 (r : Rounding) (a : Word) : Nat := fp16.encodeR r (decW a)

/-- A 32-bit integer to FP32 by RNE. -/
def itof (a : Word) : Word := encW (Fp.ofInt a.toInt 0)

/-- FP32 to a 32-bit integer by RNE, saturating, 0 for a NaN (R143). -/
def ftoi (a : Word) : Word :=
  match decW a with
  | .nan => 0
  | .inf true => 0x80000000#32
  | .inf false => 0x7FFFFFFF#32
  | .fin neg m e =>
    let n := rneShift m (-e)
    if neg then (if n ≥ 2 ^ 31 then 0x80000000#32 else BitVec.ofInt 32 (-(n : Int)))
    else (if n ≥ 2 ^ 31 then 0x7FFFFFFF#32 else BitVec.ofNat 32 n)

/-! ### Element formats of the block-scaled family -/

/-- Format codes of Table 3-2. -/
def isMx (code : Nat) : Bool := 3 ≤ code && code ≤ 8

/-- Element width in bits of a format code. -/
def fmtBits (code : Nat) : Nat :=
  match code with
  | 0 => 32
  | 1 => 16
  | 2 => 16
  | 3 => 8
  | 4 => 8
  | 5 => 6
  | 6 => 6
  | 7 => 4
  | _ => 8

/-- Exponent bits, fraction bits, bias and largest magnitude code of an MX floating element. -/
structure Elem where
  eb : Nat
  fb : Nat
  bias : Int
  top : Nat
  emax : Int
deriving DecidableEq, Repr

/-- E4M3, E5M2, E3M2, E2M3, E2M1 by format code (Table 2-1, R47). -/
def elemOf (code : Nat) : Elem :=
  match code with
  | 3 => ⟨4, 3, 7, 0x7E, 8⟩
  | 4 => ⟨5, 2, 15, 0x7B, 15⟩
  | 5 => ⟨3, 2, 3, 0x1F, 4⟩
  | 6 => ⟨2, 3, 1, 0x1F, 2⟩
  | 7 => ⟨2, 1, 1, 0x7, 2⟩
  | _ => ⟨0, 0, 0, 127, 0⟩

def Elem.emin (f : Elem) : Int := 1 - f.bias - f.fb

/-- The value of an element of an operand format, before its scale (R44, R45). -/
def decodeElem (code : Nat) (x : Nat) : Fp :=
  match code with
  | 0 => fp32.decode x
  | 1 => bf16.decode x
  | 2 => fp16.decode x
  | 8 => Fp.ofInt (sext 8 (x % 256)) (-6)
  | c =>
    let f := elemOf c
    let neg := x / 2 ^ (f.eb + f.fb) % 2 == 1
    let ex := x / 2 ^ f.fb % 2 ^ f.eb
    let fr := x % 2 ^ f.fb
    if c = 3 ∧ ex = 15 ∧ fr = 7 then .nan
    else if c = 4 ∧ ex = 31 then (if fr = 0 then .inf neg else .nan)
    else if ex = 0 then .fin neg fr f.emin
    else .fin neg (2 ^ f.fb + fr) (f.emin + (ex - 1))

/-- An element with its block's E8M0 scale: 0xFF makes it a NaN (R44). -/
def scaled (scale : Nat) (x : Fp) : Fp :=
  if scale = 0xFF then .nan
  else match x with
    | .fin n m e => .fin n m (e + ((scale : Int) - 127))
    | y => y

/-- Conversion into an MX element code: saturation by R49, the sign of a zero by R48, NaNs by R145. -/
def toElem (r : Rounding) (code : Nat) (x : Fp) : Nat :=
  let f := elemOf code
  let sgn (neg : Bool) : Nat := if neg then 2 ^ (f.eb + f.fb) else 0
  if code = 8 then
    match x with
    | .nan => 0
    | .inf neg => if neg then 256 - 127 else 127
    | .fin neg m e =>
      let n := min (r.shift m (-(e + 6))) 127
      if neg ∧ n ≠ 0 then 256 - n else n
  else
    match x with
    | .nan => if code = 3 then 0x7F else if code = 4 then 0x7E else 0
    | .inf neg => sgn neg + f.top
    | .fin neg m e => sgn neg + min (magCode r f.fb f.emin m e) f.top

/-- x ≥ y in magnitude. -/
def magGe (x y : Fp) : Bool :=
  match x, y with
  | .fin _ m₁ e₁, .fin _ m₂ e₂ => !Fp.lt (.fin false m₁ e₁) (.fin false m₂ e₂)
  | _, _ => true

/-- Quantise a block of values into scale byte and element codes (R47). `rnd i` rounds element i. -/
def quantBlock (rnd : Nat → Rounding) (code : Nat) (vs : List Fp) : Nat × List Nat :=
  if vs.any Fp.special then (0xFF, vs.map (fun _ => 0))
  else
    let amax := vs.foldl (fun a v => if magGe a v then a else v) (.fin false 0 0)
    match amax with
    | .fin _ m e =>
      if m = 0 then (0x7F, vs.mapIdx (fun i v => toElem (rnd i) code v))
      else
        let x0 := e + (Nat.log2 m : Int) - (elemOf code).emax
        let x := max (-127) (min 127 x0)
        ((x + 127).toNat, vs.mapIdx (fun i v =>
          match v with
          | .fin n m e => toElem (rnd i) code (.fin n m (e - x))
          | y => toElem (rnd i) code y))
    | _ => (0xFF, vs.map (fun _ => 0))

/-! ### The stochastic rounding generator -/

/-- The mixing function of R41. -/
def mix (z0 : DWord) : DWord :=
  let z1 := (z0 ^^^ (z0 >>> 30)) * 0xBF58476D1CE4E5B9#64
  let z2 := (z1 ^^^ (z1 >>> 27)) * 0x94D049BB133111EB#64
  z2 ^^^ (z2 >>> 31)

/-- The draw of R41. -/
def draw (seed step block : DWord) (drawId : Byte) (elem : Nat) : Nat :=
  let stepKey := mix (seed ^^^ mix step)
  let blockKey := mix (stepKey ^^^ mix (block ||| (drawId.setWidth 64 <<< 56)))
  let word := mix (blockKey + 0x9E3779B97F4A7C15#64 * BitVec.ofNat 64 (elem / 4 + 1))
  (word >>> (16 * (elem % 4))).toNat % 2 ^ 16

/-! ### The Strict exact format -/

/-- A Strict accumulator: A × 2⁻¹⁴⁹, three special flags and a contribution count (R57). -/
structure Strict where
  acc : BitVec 320 := 0
  nan : Bool := false
  pinf : Bool := false
  ninf : Bool := false
  count : Nat := 0
deriving DecidableEq, Repr

/-- Entry of one contribution (R58). -/
def Strict.addFp (a : Strict) (x : Fp) : Strict :=
  match x with
  | .nan => { a with nan := true, count := a.count + 1 }
  | .inf false => { a with pinf := true, count := a.count + 1 }
  | .inf true => { a with ninf := true, count := a.count + 1 }
  | .fin neg m e =>
    let v : Int := (m * 2 ^ (e + 149).toNat : Nat)
    { a with acc := a.acc + BitVec.ofInt 320 (if neg then -v else v), count := a.count + 1 }

/-- Combination of two partial results (R60). -/
def Strict.merge (a b : Strict) : Strict :=
  { acc := a.acc + b.acc, nan := a.nan || b.nan, pinf := a.pinf || b.pinf, ninf := a.ninf || b.ninf,
    count := a.count + b.count }

/-- The value that a Strict result rounds (R61). -/
def Strict.value (a : Strict) : Fp :=
  if a.nan || (a.pinf && a.ninf) then .nan
  else if a.pinf then .inf false
  else if a.ninf then .inf true
  else Fp.ofInt a.acc.toInt (-149)

/-- The container of Table 2-4, as a 384-bit number. -/
def Strict.container (a : Strict) : Nat :=
  a.acc.toNat + a.nan.toNat * 2 ^ 320 + a.pinf.toNat * 2 ^ 321 + a.ninf.toNat * 2 ^ 322 + a.count * 2 ^ 323

/-- The accumulator of a container, none when a reserved bit is set (R60). -/
def Strict.ofContainer (n : Nat) : Option Strict :=
  if n / 2 ^ 348 ≠ 0 then none
  else some { acc := BitVec.ofNat 320 n, nan := n / 2 ^ 320 % 2 == 1, pinf := n / 2 ^ 321 % 2 == 1,
              ninf := n / 2 ^ 322 % 2 == 1, count := n / 2 ^ 323 % 2 ^ 25 }

/-- Trailing zero bits of a positive number, at most `lim`. -/
def trailing (lim : Nat) (n : Nat) : Nat :=
  match lim with
  | 0 => 0
  | k + 1 => if n % 2 = 1 then 0 else trailing k (n / 2) + 1

/-- The 16-byte wire element of Table 8-13, canonical by R274; `true` when it takes the escape form. -/
def Strict.wire (a : Strict) : Nat × Bool :=
  let hd := a.nan.toNat * 2 ^ 127 + a.pinf.toNat * 2 ^ 126 + a.ninf.toNat * 2 ^ 125 + a.count * 2 ^ 100
  let v := a.acc.toInt
  if v = 0 then (hd, false)
  else
    let sh := trailing 229 v.natAbs
    let m := v / 2 ^ sh
    if -(2 ^ 90 : Int) ≤ m ∧ m ≤ 2 ^ 90 - 1 then (hd + sh * 2 ^ 91 + (m % 2 ^ 91).toNat, false)
    else (hd + 0x1FF * 2 ^ 91, true)

/-- The accumulator of a wire element, with its container when it is escaped; none when malformed (R275). -/
def Strict.ofWire (w : Nat) (esc : Option Strict) : Option Strict :=
  let sh := w / 2 ^ 91 % 2 ^ 9
  let m := w % 2 ^ 91
  let cnt := w / 2 ^ 100 % 2 ^ 25
  let fl : Strict := { nan := w / 2 ^ 127 % 2 == 1, pinf := w / 2 ^ 126 % 2 == 1, ninf := w / 2 ^ 125 % 2 == 1, count := cnt }
  if cnt = 0 ∨ cnt > 2 ^ 24 then none
  else if sh = 0x1FF then
    match esc with
    | some c =>
      if m = 0 ∧ c.nan = fl.nan ∧ c.pinf = fl.pinf ∧ c.ninf = fl.ninf ∧ c.count = fl.count then some c else none
    | none => none
  else if sh > 229 then none
  else if esc.isSome then none
  else some { fl with acc := BitVec.ofInt 320 (sext 91 m * 2 ^ sh) }

end Sys2Proof.Machine
end

