-- ==== Sys2Proof/Machine/TypesHost.lean ====
section
/-! DEFINITION. Types of the control side: status codes, device, time and task states, functions, mailboxes,
kennels, tasks and the time unit (chapters 10 to 14). -/

namespace Sys2Proof.Machine

/-- Status codes of Table 11-5. -/
inductive Sc where
  | ok | busy | state | range | quota | version | denied | timeout | aborted | unsupported | format | integrity
deriving DecidableEq, Repr

/-- The one-byte encodings of Table 11-5. -/
def Sc.code (c : Sc) : Nat :=
  match c with
  | .ok => 0 | .busy => 1 | .state => 2 | .range => 3 | .quota => 4 | .version => 5 | .denied => 6
  | .timeout => 7 | .aborted => 8 | .unsupported => 9 | .format => 10 | .integrity => 11

/-- Fuses: they keep their values through every reset (R470). `repair` holds bits [39:0] of each record of Table 3-8. -/
structure Fuses where
  presence : BitVec 48 := BitVec.allOnes 48
  repair : Tbl DWord := []
  serial : DWord := 0
  mac : BitVec 48 := 0
  svn : Nat := 0
  revoked : BitVec 4 := 0
  mldsaReq : Bool := false
deriving DecidableEq, Repr

/-- The grade is what the presence map makes it: A with every pair present, else B (R1, Table 0-1). -/
def Fuses.grade (f : Fuses) : Nat := if f.presence = BitVec.allOnes 48 then 0x41 else 0x42

/-- Engine pairs present on C-die c. -/
def Fuses.pairsOn (f : Fuses) (c : Nat) : Nat := ((List.range 12).filter (fun e => bit f.presence (12 * c + e))).length

/-- Two defective lines of a record are in order and within the array (R98). -/
def linesOk (v0 v1 : Bool) (i0 i1 : Nat) : Bool := (!v0 || i0 ≤ 257) && (!v1 || i1 ≤ 257) && (!(v0 && v1) || i0 < i1)

/-- The record of Table 3-8 without `PRESENT`: no reserved bit, and its lines as R98 lists them. -/
def repairOk (r : DWord) : Bool :=
  fld r 63 40 == 0 && linesOk (bit r 9) (bit r 19) (fld r 8 0) (fld r 18 10) && linesOk (bit r 29) (bit r 39) (fld r 28 20) (fld r 38 30)

/-- Fuses that a part of the two grades can have: all 48 pairs, or exactly two absent on each C-die (R1, R3, R98). -/
def Fuses.wf (f : Fuses) : Bool :=
  (f.presence == BitVec.allOnes 48 || (List.range 4).all (fun c => f.pairsOn c == 10)) && f.repair.all (fun z => z.1 < 48 && repairOk z.2)

/-- A configuration epoch (R421, Table 11-11). -/
structure Epoch where
  num : Nat := 0
  moduleNo : Nat := 0
  autoReady : Bool := false
  ports : Tbl (DWord × DWord) := []
  timeCfg : DWord := 0x228401F400000#64
  timeOrigin : DWord := 0
  mig : Tbl DWord := []
  routes : Tbl Nat := []
deriving DecidableEq, Repr

/-- What an item of Table 11-11 holds before anything writes it: the reset values of its register. -/
def portDefault : DWord × DWord := (0x3000000000000000#64, 1)
/-- PROMO_LEAD 4, READ_PROMO 0, HIGH_WM 2,048, LOW_WM 1,024 (R223), packed as Table 7-6 packs them. -/
def migDefault : DWord := 0x4000008000400#64

/-- An image slot (R388): its bytes and, when its commit record is valid, the write sequence and length. -/
structure Slot where
  bytes : Mem := []
  commit : Option (Nat × Nat) := none
deriving DecidableEq, Repr

/-- What the boot flash holds at the machine's reset: in slot A the header of Table 12-4 alone, its `MAGIC`, a `FW_VER` of release line
3.4 at patch level 0 (R8) and an `IMG_LEN` of 224, every other byte 0, with the record of its first write (log 4). -/
def factorySlot : Slot :=
  { bytes := [(0, 0x4B#8), (1, 0x50#8), (2, 0x4D#8), (3, 0x31#8), (9, 0x04#8), (10, 0x03#8), (12, 0xE0#8)], commit := some (1, 224) }

/-- What the security core's cryptography finds of an image: the clauses of R389 that rest on SHA-384,
ECDSA P-384 and ML-DSA-87 (log 11). -/
structure ImgCheck where
  digest : Bool := true
  keyHash : Bool := true
  ecdsa : Bool := true
  mldsa : Bool := true
deriving DecidableEq, Repr

/-- Who holds the inactive image slot (R467). -/
inductive Holder where
  | mailbox (m : Nat)
  | pldm
deriving DecidableEq, Repr

/-- Device states of Table 11-6. -/
inductive DState where
  | off | boot | config | ready | running | draining | recovering | safe | faulted
deriving DecidableEq, Repr

/-- Codes of Table 11-6; OFF has none and is never read. -/
def DState.code (d : DState) : Nat :=
  match d with
  | .off => 0 | .boot => 1 | .config => 2 | .ready => 3 | .running => 4 | .draining => 5 | .recovering => 6
  | .safe => 7 | .faulted => 8

/-- Time states of Table 10-1, coded as in Table 10-3. -/
inductive TState where
  | freerun | acquiring | locked | holdover
deriving DecidableEq, Repr

def TState.code (t : TState) : Nat :=
  match t with
  | .freerun => 0 | .acquiring => 1 | .locked => 2 | .holdover => 3

/-- Task states of Table 11-7. -/
inductive TaskState where
  | creating | created | starting | running | stopping | recovering | ended
deriving DecidableEq, Repr

def TaskState.code (t : TaskState) : Nat :=
  match t with
  | .creating => 0 | .created => 1 | .starting => 2 | .running => 3 | .stopping => 4 | .recovering => 5 | .ended => 6

/-- A task is active in STARTING, RUNNING, STOPPING and RECOVERING (R352). -/
def TaskState.active (t : TaskState) : Bool :=
  match t with
  | .starting | .running | .stopping | .recovering => true
  | _ => false

/-- What the module sends to the outside, in order. -/
inductive Out where
  /-- Words 8 and 9 written into an MCB (R339). -/
  | mcb (port fn : Nat) (addr : DWord) (w8 w9 : DWord)
  /-- A reply entry of a completion ring (R344). -/
  | reply (mbx idx : Nat) (entry : BitVec 256)
  /-- An event entry of an event ring (R365). -/
  | event (mbx idx : Nat) (entry : BitVec 256)
  /-- Bytes of an output payload. -/
  | payload (mbx : Nat) (addr : DWord) (bytes : List Byte)
  /-- An MSI-X message (R436). -/
  | msix (port fn vec : Nat)
  /-- A flit on a Zholin port: its class, bits [127:96] of its header, `TSF` and payload (R251). -/
  | flit (port cls : Nat) (hdr tsf : DWord) (payload : List Byte)
  /-- A flit that the link layer resends (R255). -/
  | resend (port seq : Nat)
  /-- A PTP message of the management Ethernet port (R319). -/
  | ptp (kind : Nat)
  /-- A response on MCTP or an Ethernet answer (R465, R466, R468). -/
  | mgmt (chan : Nat) (bytes : List Byte)
deriving DecidableEq, Repr

/-- A request of a submission ring (R343): the 128-bit header in two words, and P0 to P5. -/
structure Req where
  paddr : DWord := 0
  hdr : DWord := 0
  p0 : DWord := 0
  p1 : DWord := 0
  p2 : DWord := 0
  p3 : DWord := 0
  p4 : DWord := 0
  p5 : DWord := 0
deriving DecidableEq, Repr

def Req.cmd (r : Req) : Nat := fld r.hdr 63 48
def Req.tag (r : Req) : Nat := fld r.hdr 47 32
def Req.target (r : Req) : Nat := fld r.hdr 31 26
def Req.plen (r : Req) : Nat := fld r.hdr 19 0

/-- What a DMA read of a payload delivered: the bytes that arrived, and whether it ended in time (R349). -/
structure Payload where
  bytes : List Byte := []
  complete : Bool := true
deriving DecidableEq, Repr

/-- An attached mailbox (R338 to R346, R365 to R368). -/
structure Mbx where
  port : Nat
  fn : Nat
  kennel : Nat
  version : Nat
  cqLog : Nat := 4
  sqLog : Nat := 4
  eqLog : Nat := 4
  sqBase : DWord := 0
  cqBase : DWord := 0
  eqBase : DWord := 0
  cqVec : Nat := 0
  eqVec : Nat := 0
  coal : Nat := 0
  evMask : DWord := 0
  sqHead : Nat := 0
  sqTail : Nat := 0
  cqCount : Nat := 0
  cqHead : Nat := 0
  cqUsed : Nat := 0
  eqCount : Nat := 0
  eqHead : Nat := 0
  eqUsed : Nat := 0
  evSeq : Nat := 0
  lost : Nat := 0
  lastDb : DWord := 0
  req : Option Req := none
  cqDue : Option Nat := none
  eqDue : Option Nat := none
  stallSince : Option Nat := none
deriving DecidableEq, Repr

/-- A PCIe function (R425 to R436). -/
structure Fn where
  wrDrop : Bool := false
  attachDone : Bool := false
  devChange : Bool := false
  intCtrl : DWord := 0
  wrDropCnt : Word := 0
  attachCnt : Word := 0
  devChangeCnt : Word := 0
  held : Option DWord := none
  attaching : Option DWord := none
  gen : Nat := 0
  table : Tbl (BitVec 128) := []
  pend : List Nat := []
  msixEn : Bool := false
  fnMask : Bool := false
  busMaster : Bool := false
  d3 : Bool := false
deriving DecidableEq, Repr

/-- A PCIe host port (R424, R425). -/
structure HPort where
  up : Bool := false
  rate : Nat := 0
  width : Nat := 0
  flitMode : Bool := false
  numVfs : Nat := 0
deriving DecidableEq, Repr

inductive KState where
  | free | live | tearing
deriving DecidableEq, Repr

/-- The quota record of Table 12-1, words 0 to 4. -/
structure Quota where
  w0 : DWord := 0
  w1 : DWord := 0
  w2 : DWord := 0
  w3 : DWord := 0
  w4 : DWord := 0
deriving DecidableEq, Repr

def Quota.dies (q : Quota) : Nat := fld q.w0 51 48
def Quota.engines (q : Quota) : Nat := fld q.w0 47 0
def Quota.farGran (q : Quota) : Nat := fld q.w1 63 32
def Quota.nearFrames (q : Quota) : Nat := fld q.w1 19 0
def Quota.lagBudget (q : Quota) : Nat := if fld q.w2 63 48 = 0 then 1024 else fld q.w2 63 48
def Quota.strict (q : Quota) : Nat := fld q.w2 47 39
def Quota.qdepth (q : Quota) : Nat := fld q.w2 31 13
def Quota.mailboxes (q : Quota) : Nat := fld q.w2 12 0
def Quota.queues (q : Quota) : Nat := fld q.w3 63 48
def Quota.trees (q : Quota) : Nat := fld q.w3 47 35
def Quota.litters (q : Quota) : Nat := fld q.w3 34 24
def Quota.watch (q : Quota) : Nat := fld q.w3 23 11
def Quota.pages (q : Quota) : Nat := fld q.w4 35 12
def Quota.slots (q : Quota) : Nat := fld q.w4 11 0

/-- A link key with its generation (R382). -/
structure LinkKey where
  key : BitVec 256 := 0
  kgen : Nat := 0
  switchBeat : Nat := 0
deriving DecidableEq, Repr

/-- A kennel (R369 to R387). -/
structure Kennel where
  st : KState := .free
  quota : Quota := {}
  memKey : Option (BitVec 512) := none
  cur : Option LinkKey := none
  next : Option LinkKey := none
  old : Option LinkKey := none
deriving DecidableEq, Repr

/-- One section of a manifest with its data (R361). -/
structure Sec where
  kind : Nat
  index : Nat
  addr : Nat
  data : List Byte
  place : DWord
deriving DecidableEq, Repr

/-- Why a round began or a fault was reported, for R394 and R405. -/
inductive FaultKind where
  /-- Lag beyond the budget, or a reduction leash with every peer barking (R336). -/
  | lag
  /-- Another task fault. -/
  | task
  /-- A module fault. -/
  | moduleLost
deriving DecidableEq, Repr

/-- One recovery round of a task (R400 to R405). -/
structure Round where
  num : Nat
  abortStep : Nat
  kind : FaultKind
  sender : Nat
  beat : Nat
  lost : List Nat := []
deriving DecidableEq, Repr

/-- A schedule row or a freeze entry held by firmware as raw words. -/
structure Row where
  num : Nat
  words : List DWord
deriving DecidableEq, Repr

/-- A ring position that has passed from a lost module to another: a standby, or by folding a member of its group (R412). -/
structure Remap where
  pos : Nat
  old : Nat
  new : Nat
  fold : Bool
deriving DecidableEq, Repr

/-- A commit whose parity stripes are being exchanged (R408, R409): its step and ordinal, the next chunk for each holder's tree, and the
chunks of this member's own stripe that have been written. -/
structure ParityRun where
  step : Nat
  ord : Nat
  sent : Tbl Nat := []
  got : List Nat := []
  /-- An adder has refused a contribution (R279): the commit cannot complete. -/
  refused : Bool := false
deriving DecidableEq, Repr

/-- A task of a kennel (R353, R360, chapter 13). -/
structure Task where
  st : TaskState := .creating
  endSt : Sc := .ok
  manifest : Nat := 0
  seed : DWord := 0
  step0 : Nat := 0
  stepLast : Nat := 0
  footprint : Nat := 0
  p5 : DWord := 0
  secs : List Sec := []
  crc : Word := 0
  /-- Its units have been started: its first step has begun. -/
  began : Bool := false
  /-- Highest step whose update has completed; none before any. -/
  lastUpd : Option Nat := none
  lastCommit : Option Nat := none
  stopStep : Option Nat := none
  startBeat : Nat := 0
  /-- Rounds, newest first. -/
  rounds : List Round := []
  /-- The present round has been taken and no GO accepted. -/
  inRound : Bool := false
  quietSent : Bool := false
  nbrs : List (Nat × Nat) := []
  quiets : List Nat := []
  lost : List Nat := []
  standbys : List Nat := []
  isStandby : Bool := false
  asked : List Nat := []
  asking : Option (Nat × Nat × Nat) := none
  /-- Roster by ring position, as re-mapping has left it. -/
  roster : List Nat := []
  /-- Positions re-mapped since the last GO. -/
  remaps : List Remap := []
  coordinator : Nat := 0
  committed : List (Nat × Nat) := []
  /-- The commit window is open at this step (R411). -/
  window : Option Nat := none
  /-- Abort step and beat of the round's first ABORT, for TASK_STALL (R417). -/
  stallFrom : Option (Nat × Nat) := none
  /-- Batches asked for and not yet put: step, micro-batch, and since when. -/
  batchReq : List (Nat × Nat × Nat) := []
  freezes : List Row := []
  oldBudget : Option Nat := none
  lag : Nat := 0
  /-- The commit image written last and its step: what the digests of the commit log stand for (R420, log 21). -/
  image : Option (Nat × List Byte) := none
  /-- The parity exchange of the commit under way. -/
  parity : Option ParityRun := none
deriving DecidableEq, Repr

/-- A PTP master known from its Announce messages (R319, R320). -/
structure Master where
  ident : Nat
  prio : Nat
  interval : Int
  since : Nat
deriving DecidableEq, Repr

/-- The time unit (chapter 10). Offsets and phases are held in 1/16 ns. -/
structure TimeUnit where
  config : DWord := 0x228401F400000#64
  origin : DWord := 0
  tstate : TState := .freerun
  refOk : Bool := false
  ppsOk : Bool := false
  stepped : Bool := false
  holdExpired : Bool := false
  inputRej : Bool := false
  tdepth : Nat := 7
  offset : Int := 0
  rejectCnt : Word := 0
  stepCnt : Word := 0
  barkRejectCnt : Word := 0
  lagAbortCnt : Word := 0
  offs : List Int := []
  delays : List Int := []
  phases : List Int := []
  barkX : List Int := []
  barkD : List Int := []
  parentDepth : Nat := 7
  lockRun : Nat := 0
  syncInt : Nat := 0
  lastSync : Option Nat := none
  lastPps : Option Nat := none
  lastPpsTime : Option Nat := none
  lastBark : Option Nat := none
  holdSince : Nat := 0
  masters : List Master := []
  delayReq : Option Nat := none
  ppsOut : Bool := false
  ppsSince : Nat := 0
deriving DecidableEq, Repr

end Sys2Proof.Machine
end

