-- ==== Sys2Proof/Machine/TypesLink.lean ====
section
/-! DEFINITION. Types of the Zholin ports, link adders, trees and peer reads (chapter 8). -/

namespace Sys2Proof.Machine

/-- Port states of Table 8-2, coded as `STATE` of Table 8-8. -/
inductive PState where
  | disabled | training | qualifying | negotiating | up | failed
deriving DecidableEq, Repr

def PState.code (p : PState) : Nat :=
  match p with
  | .disabled => 0 | .training => 1 | .qualifying => 2 | .negotiating => 3 | .up => 4 | .failed => 5

/-- What a flit carries, its link-layer numbering apart (Tables 8-3 to 8-5). -/
structure Flit where
  ftype : Nat
  tc : Nat
  ktag : Nat
  tsf : DWord
  pay : List Byte := []
  /-- Not on the wire: of a forwarded multicast flit, the port and the receive buffer that it came from (R194, R285); of one at its
  origin, 16 + 32 × engine + slot and the repetition (R193). -/
  origin : Option (Nat × Nat) := none
deriving DecidableEq, Repr

/-- A flit as a port receives it. `intact`: its CRC is right and it lies in no uncorrectable codeword (R254).
`tagOk`: its AES-256-GCM tag verifies under the key of R261 and R384, and `pay` is the plaintext (log 10).
`ucw` and `csym`: FEC codewords and symbols counted with it. -/
structure RxFlit where
  flit : Flit
  seq : Nat := 0
  ack : Nat := 0
  intact : Bool := true
  tagOk : Bool := true
  ucw : Nat := 0
  csym : Nat := 0
deriving DecidableEq, Repr

/-- An operand with the stream that the parity trees have rebuilt for this member, where it needs one (R414, log 25). -/
abbrev Rebuilding (α : Type) := α × Option (List Byte)

/-- Counters of Table 8-9. -/
structure PortCnt where
  tx : Word := 0
  rx : Word := 0
  retry : Word := 0
  crc : Word := 0
  fecUcw : Word := 0
  fecCsym : Word := 0
  reject : Word := 0
  late : Word := 0
  esc : Word := 0
deriving DecidableEq, Repr

/-- The link layer of a port since its entry to NEGOTIATING (R255 to R259). -/
structure Link where
  /-- Next `SEQ` to give, and the sequenced flits that no `ACK` covers yet, oldest first. -/
  nextSeq : Nat := 0
  unacked : List (Nat × Flit) := []
  ackAt : Nat := 0
  /-- Sequence numbers that a replay still has to resend. -/
  resend : List Nat := []
  replays : Nat := 0
  /-- `ACK` and time of the last `NAK` acted on. -/
  nakSeen : Option (Nat × Nat) := none
  /-- `SEQ` of the last flit accepted, and whether `NAK` is set. -/
  rxSeq : Nat := 1023
  nak : Bool := false
  nakSlots : Nat := 0
  sinceIdle : Nat := 0
  /-- Credits held, the last `CREDn` received, and flits freed, of classes 0 to 3 (R258). -/
  credit : List Nat := [16, 128, 96, 16]
  credSeen : List Nat := [0, 0, 0, 0]
  freed : List Nat := [0, 0, 0, 0]
  /-- Flits ready, of classes 0 to 3. -/
  q0 : List Flit := []
  q1 : List Flit := []
  q2 : List Flit := []
  q3 : List Flit := []
  /-- Slots left to each class in the present weighted round, and the kennel each class served last. -/
  wrr : List Nat := [4, 3, 1]
  rr : List Nat := [0, 0, 0]
  negAt : Option Nat := none
  chosen : Option Nat := none
  doneRcvd : Option Nat := none
  doneSent : Bool := false
  /-- RED_X flits that must follow the RED flit sent last (R275). -/
  held : Option Flit := none
deriving DecidableEq, Repr

/-- Barks of a port (R325 to R333). -/
structure BarkSt where
  alive : Bool := false
  missed : Nat := 0
  lags : Tbl Nat := []
  nextKennel : Nat := 0
  /-- Arrivals of the peer's last barks and departures of the port's own, in 1/8 ns after the boundary, each with its beat plus 4
  (R325, R330). -/
  rx : List (Nat × Nat) := []
  tx : List (Nat × Nat) := []
  discardAt : Option Nat := none
  gone : Bool := false
deriving DecidableEq, Repr

/-- A RED flit whose escaped elements are still to come (R275): the element numbers of the chunk that escape. -/
structure EscWait where
  flit : Flit
  need : List Nat
  got : List (List Byte) := []
deriving DecidableEq, Repr

structure Port where
  cfg : DWord := 0x3000000000000000#64
  kmask : DWord := 1
  st : PState := .disabled
  cause : Nat := 0
  version : Nat := 0
  peerMod : Nat := 0
  peerPort : Nat := 0
  tries : Nat := 0
  trainFails : Nat := 0
  degraded : Bool := false
  rejected : Bool := false
  lateF : Bool := false
  retryF : Bool := false
  cnt : PortCnt := {}
  since : Nat := 0
  link : Link := {}
  bark : BarkSt := {}
  epoch : Nat := 0
  /-- Link epochs begun under each kennel's current key, and flits sealed in the present one (R261, R385). -/
  kEpochs : Tbl Nat := []
  nonces : Tbl Nat := []
  slot : Nat := 0
  strictUsed : Tbl Nat := []
  esc : Option EscWait := none
deriving DecidableEq, Repr

/-- Values of a chunk: raw words, or Strict accumulators for XSUM. -/
inductive Chunk where
  | words (vs : List Word)
  | strict (vs : List Strict)
deriving DecidableEq, Repr

/-- An adder's chunk entry (R271, R272). Source 16 is the local contribution. -/
structure AEntry where
  tree : Nat
  kennel : Nat
  step : Nat
  coll : Nat
  elem : Nat
  openBeat : Nat
  got : List Nat
  acc : Option Chunk
  locals : List (Nat × Chunk) := []
  /-- Its flits wait at `UP_PORT` for the link layer to accept them (R277). -/
  leaving : Bool := false
deriving DecidableEq, Repr

structure Tree where
  entry : BitVec 128 := 0
  stepV : Bool := false
  closing : Bool := false
  openStep : Nat := 0
  /-- Tree credits held toward the parent, and by local contributors by `CIDX` (R277). -/
  upCredit : Nat := 0
  localCredit : Tbl Nat := []
deriving DecidableEq, Repr

def Tree.en (t : Tree) : Bool := bit t.entry 127
def Tree.kennel (t : Tree) : Nat := fld t.entry 126 121
def Tree.mcast (t : Tree) : Bool := bit t.entry 120
def Tree.root (t : Tree) : Bool := bit t.entry 119
def Tree.upPort (t : Tree) : Nat := fld t.entry 118 115
def Tree.down (t : Tree) : Nat := fld t.entry 114 99
def Tree.localN (t : Tree) : Nat := fld t.entry 98 95
def Tree.adder (t : Tree) : Nat := fld t.entry 94 91
def Tree.opc (t : Tree) : Nat := fld t.entry 90 87
def Tree.win (t : Tree) : Nat := fld t.entry 86 81
def Tree.subtree (t : Tree) : Nat := fld t.entry 80 56
def Tree.leash (t : Tree) : Nat := fld t.entry 55 48

/-- A peer read that waits for its response (R287): the stream slot, the read within its repetition, the bytes asked for. -/
structure PeerRead where
  kennel : Nat
  engine : Nat
  slot : Nat
  /-- The repetition, and the place of the piece in it. -/
  rep : Nat
  off : Nat
  len : Nat
  got : Nat := 0
  /-- The bytes of the responses so far. -/
  bytes : List Byte := []
  beat : Nat
  /-- The slot still waits for it: cleared where the repetition is cancelled (R203, R205). -/
  live : Bool := true
deriving DecidableEq, Repr

end Sys2Proof.Machine
end

