-- ==== Sys2Proof/Machine/TypesStream.lean ====
section
/-! DEFINITION. Types of handle queues, litters and stream engines (chapter 6). -/

namespace Sys2Proof.Machine

/-- A unit that pops and pushes (R186, R188). -/
inductive UnitId where
  | fw
  | seq (e : Nat)
  | ve (e : Nat)
  | se (n slot : Nat)
  | zl (p : Nat)
deriving DecidableEq, Repr

/-- A pop that waits on an empty queue, in order of arrival. -/
structure Waiter where
  unit : UnitId
  role : Nat
  at' : Nat
deriving DecidableEq, Repr

/-- A handle queue (Tables 6-12 and 6-13). -/
structure Hq where
  cfg : DWord := 0
  fullSeen : Bool := false
  denied : Bool := false
  pushCnt : Word := 0
  popCnt : Word := 0
  fullCnt : Word := 0
  denyCnt : Word := 0
  items : List DWord := []
  waiters : List Waiter := []
deriving DecidableEq, Repr

def Hq.en (q : Hq) : Bool := bit q.cfg 63
def Hq.kennel (q : Hq) : Nat := fld q.cfg 62 57
def Hq.depth (q : Hq) : Nat := 2 ^ fld q.cfg 56 53

/-- A pop on its way to a home: `role` tells the unit which biscuit it is. -/
structure PopReq where
  unit : UnitId
  role : Nat
  q : Nat
  kennel : Nat
  at' : Nat
deriving DecidableEq, Repr

/-- A push on its way to a home; `retry` is set once it has met the full queue (R187). -/
structure PushReq where
  unit : UnitId
  q : Nat
  kennel : Nat
  biscuit : DWord
  at' : Nat
  retry : Bool := false
deriving DecidableEq, Repr

/-- A biscuit on its way to the unit that popped it, arriving at `at'` (R119). -/
structure Arrival where
  unit : UnitId
  role : Nat
  biscuit : DWord
  at' : Nat
deriving DecidableEq, Repr

/-- A stream descriptor with the generation of its arm (R169, R172). -/
structure Desc where
  w0 : DWord := 0
  w1 : DWord := 0
  w2 : DWord := 0
  w3 : DWord := 0
  w4 : DWord := 0
  w5 : DWord := 0
  w6 : DWord := 0
  w7 : DWord := 0
deriving DecidableEq, Repr

namespace Desc
def kind (x : Desc) : Nat := fld x.w0 63 60
def beats (x : Desc) : Nat := fld x.w0 59 52
def align (x : Desc) : Bool := bit x.w0 51
def dormant (x : Desc) : Bool := bit x.w0 50
def rep (x : Desc) : Nat := fld x.w0 49 40
def runahead (x : Desc) : Nat := fld x.w0 39 32
def leash (x : Desc) : Nat := fld x.w0 31 24
def slot (x : Desc) : Nat := fld x.w0 15 11
def tag (x : Desc) : Nat := fld x.w0 10 0
def rows (x : Desc) : Nat := fld x.w3 63 48
def rowLen (x : Desc) : Nat := fld x.w3 47 32
def srcPitch (x : Desc) : Nat := fld x.w3 31 16
def dstPitch (x : Desc) : Nat := fld x.w3 15 0
def srcQEn (x : Desc) : Bool := bit x.w4 63
def srcQ (x : Desc) : Nat := fld x.w4 62 48
def dstQEn (x : Desc) : Bool := bit x.w4 47
def dstQ (x : Desc) : Nat := fld x.w4 46 32
def pushEn (x : Desc) : Bool := bit x.w4 31
def pushQ (x : Desc) : Nat := fld x.w4 30 16
def retEn (x : Desc) : Bool := bit x.w4 15
def retQ (x : Desc) : Nat := fld x.w4 14 0
def srcStep (x : Desc) : Int := sext 32 (fld x.w5 63 32)
def dstStep (x : Desc) : Int := sext 32 (fld x.w5 31 0)
def litter (x : Desc) : Nat := fld x.w6 63 54
def tableRows (x : Desc) : Nat := fld x.w6 63 32
def fbEn (x : Desc) : Bool := bit x.w7 63
def fbSlot (x : Desc) : Nat := fld x.w7 62 58
def tree (x : Desc) : Nat := fld x.w5 63 52
def opc (x : Desc) : Nat := fld x.w5 51 48
def coll (x : Desc) : Nat := fld x.w5 47 36
def cidx (x : Desc) : Nat := fld x.w5 35 32
def inFmt (x : Desc) : Nat := fld x.w5 31 28
def outFmt (x : Desc) : Nat := fld x.w5 27 24
def elem0 (x : Desc) : Nat := fld x.w5 23 0
def step (x : Desc) : Nat := x.w6.toNat
def mapAddr (x : Desc) : Nat := fld x.w7 57 20
def freezeEn (x : Desc) : Bool := bit x.w7 19
def poisonEn (x : Desc) : Bool := bit x.w7 18
end Desc

/-- Where the bytes of a piece come from: a store at once, a page of this module, or another module. -/
inductive PieceSrc where
  | store | memory | peer (m : Nat)
deriving DecidableEq, Repr

/-- A read that a repetition has made, until its bytes are written: within one row and one watched 64 KiB block (R177, R198). -/
structure Piece where
  /-- Place of its first byte among the bytes of the repetition's rows. -/
  off : Nat
  /-- Kennel-local byte address, on this module or another one. -/
  addr : Nat
  len : Nat
  src : PieceSrc
  /-- Beat of its issue; none while it waits for a watch entry (R200). -/
  issued : Option Nat := none
  /-- Deadline at the M-die, and its place in the order of arrival there (R245). -/
  deadline : Nat := 0
  order : Nat := 0
  /-- A write has discarded its staged bytes, and they are read again (R199). -/
  again : Bool := false
  bytes : Option (List Byte) := none
deriving DecidableEq, Repr

/-- Result bytes of a root that wait for their write at the M-die (R220, R284). -/
structure WPiece where
  addr : Nat
  bytes : List Byte
deriving DecidableEq, Repr

/-- A repetition in hand, from its pops to its last push (R177). -/
structure Rep where
  num : Nat
  /-- Biscuits that have arrived by role: 0 source, 1 destination, 2 + k litter member k. -/
  biscuits : List (Nat × DWord) := []
  popsLeft : Nat := 0
  lastArrival : Nat := 0
  /-- Its biscuits have passed R178 and its reads have begun. -/
  reading : Bool := false
  /-- Bytes of its rows that have become pieces. -/
  cursor : Nat := 0
  /-- A gather's indices read so far, and the first row that it does not write (R195, R196). -/
  indices : List Nat := []
  stopRow : Option Nat := none
  /-- What has been read and not yet written, in the order of the rows. -/
  pieces : List Piece := []
  /-- REDUCE: blocks whose freeze bit is set, the next chunk to contribute, chunks that need no more of it, poison bits, results
  that wait for the M-die, and whether the map lines have been written. -/
  frozen : List Nat := []
  nextChunk : Nat := 0
  /-- The adder has refused a contribution (R279): it is in no entry, so the repetition cannot complete (R283). -/
  refused : Bool := false
  doneChunks : List Nat := []
  poison : List Nat := []
  results : List WPiece := []
  mapped : Bool := false
  /-- From the completion point on: the pushes that have not been accepted. -/
  pushes : Option (List (Nat × DWord)) := none
  complAt : Nat := 0
deriving DecidableEq, Repr

/-- The descriptor in a slot's active position and its repetitions in hand, the oldest first. -/
structure Active where
  desc : Desc
  gen : Nat
  kennel : Nat
  /-- Boundary at which the plan starts; a dormant descriptor has none until a fallback starts it. -/
  plan : Nat := 0
  waiting : Bool := false
  /-- Number of the next repetition to begin. -/
  next : Nat := 0
  repDone : Nat := 0
  fallbacks : Nat := 0
  /-- It has requested a pop or issued a read. -/
  started : Bool := false
  reps : List Rep := []
  overrun : Nat := 0
deriving DecidableEq, Repr

/-- A slot of a stream engine (R168). -/
structure SSlot where
  gen : Nat := 0
  act : Option Active := none
  shd : Option (Desc × Nat × Nat × Nat) := none
  /-- Boundary at which a descriptor in the shadow position starts its plan when it moves up. -/
  movePlan : Nat := 0
  /-- Run-ahead bytes, consecutive from memory address `aheadAt` (R201). -/
  ahead : List Byte := []
  aheadAt : Nat := 0
  aheadKennel : Nat := 0
  aheadStop : Bool := false
  lag : Nat := 0
deriving DecidableEq, Repr

/-- A stream engine (R167, R168, R180, R181). -/
structure Se where
  slots : Tbl SSlot := []
  /-- The slot served last; at reset the one from which the next is slot 0. -/
  last : Nat := 31
  ring : Tbl (BitVec 128) := []
  doneCnt : Word := 0
  overrunCnt : Word := 0
  pfStop : Word := 0
  pfRefetch : Word := 0
  pfWait : Word := 0
  leashCnt : Word := 0
deriving DecidableEq, Repr

/-- A take-up of multicast data on a port for a litter (R194). -/
structure TakeUp where
  litter : Nat
  kennel : Nat
  ofs : Nat
  biscuits : List (Nat × DWord) := []
  /-- Its pops have been requested. -/
  asked : Bool := false
  popsLeft : Nat := 0
  bad : Bool := false
  /-- Data that waits for the pops: window offset in units, bytes, whether the flit was the `LAST` one, and its receive buffer. -/
  data : List (Nat × List Byte × Bool × Nat) := []
  pushing : Nat := 0
deriving DecidableEq, Repr

end Sys2Proof.Machine
end

