-- ==== Sys2Proof/Machine/TypesMem.lean ====
section
/-! DEFINITION. Types of memory: pages, page images, M-dies, migrations and waiting writes (chapter 7). -/

namespace Sys2Proof.Machine

/-- Page states of Table 7-5. -/
inductive PgState where
  | zero | near | far | promoting | demoting | lost
deriving DecidableEq, Repr

/-- A block of a page image: its map entry (Table 7-7) and its sectors' bytes (R227). -/
structure Block where
  map : BitVec 16 := 0
  bytes : List Byte := []
deriving DecidableEq, Repr

/-- A page: its PTE (Table 7-2) and its page record (R212). -/
structure Page where
  pte : DWord := 0
  st : PgState := .zero
  frame : Nat := 0
  image : Tbl Block := []
  /-- Far granules that hold the image, in its order (R218). -/
  extent : List Nat := []
  /-- Poisoned 64-byte lines of the near frame (R242). -/
  poison : List Nat := []
  readBlocks : List Nat := []
  lastAccess : Nat := 0
  lastWrite : Nat := 0
deriving DecidableEq, Repr

def Page.granules (p : Page) : Nat := p.extent.length
def Page.v (p : Page) : Bool := bit p.pte 63
def Page.rd (p : Page) : Bool := bit p.pte 62
def Page.wr (p : Page) : Bool := bit p.pte 61
def Page.policy (p : Page) : Nat := fld p.pte 60 59
def Page.etype (p : Page) : Nat := fld p.pte 58 57
def Page.tensor (p : Page) : Nat := fld p.pte 56 41
def Page.owner (p : Page) : Nat := fld p.pte 40 35
def Page.home (p : Page) : Nat := fld p.pte 23 22
def Page.pid (p : Page) : Nat := fld p.pte 21 0

/-- A migration, waiting or running; `prio` is its place in the list of R224. -/
structure Mig where
  key : Nat
  up : Bool
  prio : Nat
  running : Bool := false
deriving DecidableEq, Repr

/-- A watch entry of a 64 KiB block with the slots that hold it (R198). -/
structure Watch where
  kennel : Nat
  block : Nat
  holders : List (Nat × Nat)
deriving DecidableEq, Repr

/-- A line of the tensor cache (R234). -/
structure TcLine where
  kennel : Nat
  line : Nat
  tensor : Nat
  used : Nat
  set' : Nat
  way : Nat
  /-- Its 256 bytes of plaintext. -/
  bytes : List Byte
deriving DecidableEq, Repr

/-- Counters of Table 7-12. -/
structure MemCnt where
  hit : Word := 0
  miss : Word := 0
  bypass : Word := 0
  up : Word := 0
  down : Word := 0
  abort : Word := 0
  ce : Word := 0
  ue : Word := 0
  poisonRd : Word := 0
  retire : Word := 0
deriving DecidableEq, Repr

/-- An M-die (R212, R213, R223 to R226, R234 to R247). -/
structure MDie where
  cfg : DWord := migDefault
  cnt : MemCnt := {}
  turn : Nat := 0
  frames : List Nat := []
  /-- The far-tier allocation map: granules in use (R213, R218). -/
  far : List Nat := []
  records : List Nat := []
  retiredF : List Nat := []
  retiredG : List Nat := []
  /-- Corrected errors of the last 24 hours: (granule?, index, ECLK). -/
  ces : List (Bool × Nat × Nat) := []
  migs : List Mig := []
  /-- Watermark demotion has begun and has not reached `HIGH_WM` (R222). -/
  draining : Bool := false
  /-- ECLK at which a frame was last freed (R226). -/
  freedAt : Option Nat := none
  watches : List Watch := []
  tc : List TcLine := []
  hints : Tbl DWord := []
  /-- Uncorrectable errors of each stack or far channel in beat `ueBeat` (R240). -/
  ueBeat : Nat := 0
  ues : Tbl Nat := []
deriving DecidableEq, Repr

/-- Who writes memory. -/
inductive Writer where
  | stream (n slot : Nat)
  | root (tree : Nat)
  | port (p : Nat)
  | firmware
deriving DecidableEq, Repr

/-- A write that waits for a frame or a promotion (R219, R226). -/
structure MemWait where
  kennel : Nat
  addr : Nat
  bytes : List Byte
  by' : Writer
  since : Nat
deriving DecidableEq, Repr

/-- The outcome of an access (Table 7-10). -/
inductive MemClass where
  | ok | denied | ue | decode | poison | lost
deriving DecidableEq, Repr

/-- What the codes of the storage find on an access (R239, R240): an operand, since errors come from outside. `lines` are the
64-byte lines of the access, counted from its first one. -/
inductive Ecc where
  | clean
  /-- Lines of the tier that are corrected, and lines that the code cannot correct. -/
  | corrected (lines : List Nat)
  | ue (lines : List Nat)
  /-- Lines whose copy in the tensor cache fails its code, and a hint entry that does. -/
  | cache (lines : List Nat)
  | hint (t : Nat)
  /-- The page's table entry, record, block map or allocation map is lost. -/
  | metadata
  /-- The stack or far channel fails. -/
  | channel
deriving DecidableEq, Repr

/-- An operand with what the codes find on the accesses that its command makes. -/
abbrev Probed (α : Type) := α × Ecc

/-- Use of a kennel's events of R233: whether the footprint, and the far use, stand past their marks. -/
structure MemMark where
  plan : Bool := false
  high : Bool := false
deriving DecidableEq, Repr

end Sys2Proof.Machine
end

