-- ==== Sys2Proof/Machine/TypesEngine.lean ====
section
/-! DEFINITION. Types of an engine pair: the outer-product engine, its slice sequencer and the vector engine
(chapters 3 to 5). -/

namespace Sys2Proof.Machine

/-! ### The outer-product engine -/

/-- A main bank entry of a cell: FP32 bits and an even parity bit (R74, R103). -/
structure Entry where
  v : Word := 0
  p : Bool := false
deriving DecidableEq, Repr

/-- A weight set with its half of the column scale files (R74, R88): element codes by 256 × row of B + column, scale
bytes by 32 × column + block, and the format and `K` that the loading slice recorded. -/
structure WSet where
  fmt : Option Nat := none
  k : Nat := 0
  elems : Tbl Nat := []
  scales : Tbl Nat := []
deriving DecidableEq, Repr

/-- The partial of a cell within a window: A22 bits, or the integer partial with its NaN flag. `sum` is the exact sum of
the window's contributions and `left` the sign of the first departure from the 24-bit range, for R68. -/
structure Part where
  a22 : Nat := 0
  sum : Int := 0
  nan : Bool := false
  left : Option Bool := none
deriving DecidableEq, Repr

/-- An operand register of Table 3-1: ρ elements packed from bit 0 up, and the scale tag of an MX operand. -/
structure OperandReg where
  elems : BitVec 24 := 0
  scale : Byte := 0
deriving DecidableEq, Repr

/-- An outer-product engine (Tables 3-1, 3-9, 3-10, R100). Bank entries are keyed 256 × row + column of the logical
array. -/
structure Ope where
  bank0 : Tbl Entry := []
  bank1 : Tbl Entry := []
  acc : Bool := false
  wAct : WSet := {}
  wShd : WSet := {}
  shadowPend : Bool := false
  /-- The operand registers of a logical row and of a logical column with their scale tags, and the chain registers by cell
  (Table 3-1): what the last issued step or token leaves in them once its wave has passed (log 89). -/
  west : Tbl OperandReg := []
  north : Tbl OperandReg := []
  chain : Tbl (List Word) := []
  /-- Partials that an `ABORT` has left in the cells (R110). -/
  part : Tbl Part := []
  lastReplays : Nat := 0
  ovfFinal : Bool := false
  parityErr : Bool := false
  mode : Bool := false
  replayCnt : Word := 0
  ovfCnt : Word := 0
  parityCnt : Word := 0
  /-- Physical rows and columns that the feeders' skew tables mark as bypassed (R100). -/
  bypRows : List Nat := []
  bypCols : List Nat := []
  /-- ECLK intervals [first, end) in which slices are in the array, drains read or write, and the latest shadow load runs
(R104). -/
  busy : List (Nat × Nat) := []
  draining : List (Nat × Nat) := []
  loadFrom : Nat := 0
  loadTo : Nat := 0
deriving DecidableEq, Repr

/-! ### The slice sequencer -/

/-- A slice descriptor (R113). -/
structure SDesc where
  w0 : DWord := 0
  w1 : DWord := 0
  w2 : DWord := 0
  w3 : DWord := 0
  w4 : DWord := 0
  w5 : DWord := 0
  w6 : DWord := 0
  w7 : DWord := 0
deriving DecidableEq, Repr

namespace SDesc
def kind (x : SDesc) : Nat := fld x.w0 63 60
def beats (x : SDesc) : Nat := fld x.w0 59 52
def align (x : SDesc) : Bool := bit x.w0 51
def k (x : SDesc) : Nat := fld x.w0 47 32
def n (x : SDesc) : Nat := fld x.w0 31 23
def m (x : SDesc) : Nat := fld x.w0 22 14
def tag (x : SDesc) : Nat := fld x.w0 10 0
def link (x : SDesc) : Nat := fld x.w1 17 0
def intT (x : SDesc) : Int := sext 9 (fld x.w1 47 39)
def drainFn (x : SDesc) : Nat := fld x.w1 38 32
def drainFmt (x : SDesc) : Nat := fld x.w1 31 28
def fmtB (x : SDesc) : Nat := fld x.w1 27 24
def fmtA (x : SDesc) : Nat := fld x.w1 23 20
def promo (x : SDesc) : Nat := fld x.w1 19 18
def wSwap (x : SDesc) : Bool := bit x.w1 7
def wLoad (x : SDesc) : Bool := bit x.w1 6
def bOrder (x : SDesc) : Bool := bit x.w1 5
def aOrder (x : SDesc) : Bool := bit x.w1 4
def drain (x : SDesc) : Bool := bit x.w1 3
def swap (x : SDesc) : Bool := bit x.w1 2
def acc (x : SDesc) : Bool := bit x.w1 1
def stat (x : SDesc) : Bool := bit x.w1 0
def dstSpace (x : SDesc) : Nat := fld x.w4 63 62
def dstAddr (x : SDesc) : Nat := fld x.w4 61 41
def dstPitch (x : SDesc) : Nat := fld x.w4 40 31
def dstSAddr (x : SDesc) : Nat := fld x.w4 30 8
def sReg (x : SDesc) : Nat := fld x.w5 37 32
def pushEn (x : SDesc) : Bool := bit x.w5 31
def pushQ (x : SDesc) : Nat := fld x.w5 30 16
def waitEn (x : SDesc) : Bool := bit x.w5 15
def waitQ (x : SDesc) : Nat := fld x.w5 14 0
def biasEn (x : SDesc) : Bool := bit x.w6 56
def biasFmt (x : SDesc) : Nat := fld x.w6 55 52
def biasAddr (x : SDesc) : Nat := fld x.w6 51 34
def auxMode (x : SDesc) : Nat := fld x.w6 33 32
def auxFmt (x : SDesc) : Nat := fld x.w6 31 28
def auxPitch (x : SDesc) : Nat := fld x.w6 27 18
def auxAddr (x : SDesc) : Nat := fld x.w6 17 0
end SDesc

/-- A descriptor taken up and not yet issued (R119): a slice, a HALT, or one that was refused. -/
structure Upcoming where
  d : SDesc
  pc : Nat
  sval : Word := 0
  time : Nat := 0
  /-- ECLK of descriptor fetch that a run of LINKs before it has cost (R107). -/
  fetch : Nat := 0
  /-- The pop waits for the limit of R122. -/
  popHeld : Bool := false
  biscuit : Option (DWord × Nat) := none
  refused : Option Sc := none
  /-- The record of a refusal has been written. -/
  recorded : Bool := false
  gid : Nat := 0
  gStart : Nat := 0
  planEnd : Option Nat := none
deriving DecidableEq, Repr

/-- A slice in the array (R76 to R97, R121). -/
structure Flight where
  t : Upcoming
  first : Nat
  cL : Nat
  /-- First step cycle of the present attempt, or first token. -/
  stepAt : Nat := 0
  bank : Bool
  /-- The bank as a stationary slice's first token met it. -/
  before : Tbl Entry := []
  /-- The exponent T of the present attempt, the replays so far, and whether the attempt has overflowed. -/
  tRef : Int := 0
  replays : Nat := 0
  over' : Bool := false
  /-- Windows promoted in the present attempt, and the partials of the window under way. -/
  win : Nat := 0
  part : Tbl Part := []
  /-- An MXINT8 slice has passed its last check cycle; every other slice has from its issue. -/
  settled : Bool := true
  ovfFinal : Bool := false
  loadDue : Bool := false
  drainDue : Bool := false
  complAt : Nat := 0
  parityErr : Bool := false
deriving DecidableEq, Repr

/-- A slice sequencer (Tables 4-1 to 4-3). -/
structure Seq where
  cfg : DWord := 0
  run : Bool := false
  pc : Nat := 0
  refuseSc : Nat := 0
  refused : Bool := false
  halted : Bool := false
  cfgErr : Bool := false
  beat0 : DWord := 0
  doneCnt : Word := 0
  overrunCnt : Word := 0
  /-- Next descriptor: address in 64-byte units, index, and the ECLK of its take-up. -/
  addr : Nat := 0
  pcNext : Nat := 0
  takeAt : Nat := 0
  lastLink : Bool := false
  /-- ECLK of descriptor fetch that the present run of LINKs has cost (R107). -/
  linkCost : Nat := 0
  cur : Option Upcoming := none
  flight : List Flight := []
  prevMode : Option Bool := none
  prevCL : Nat := 0
  /-- No issue before: the check cycle of the last MXINT8 attempt (R96). -/
  minIssue : Nat := 0
  swapAt : Option Nat := none
  load0 : Option Nat := none
  /-- First row reads of the latest drain of each bank, and the ECLK in which the drain path is free (R85, R86). -/
  drain0 : Nat := 0
  drain1 : Nat := 0
  pathFree : Nat := 0
  /-- Pushes in list order that wait for the one before them: index, queue, biscuit, ECLK (R121). -/
  pushQ : List (Nat × Nat × DWord × Nat) := []
  /-- Index of the slice whose push is on its way. -/
  pushing : Option Nat := none
  /-- The open beat group: its number, planned start, and planned end once fixed (R131). -/
  gid : Nat := 0
  gStart : Nat := 0
  gEnd : Option Nat := none
  /-- ECLK of the latest completion point or accepted push, and by which the latest record has been written. -/
  lastDone : Nat := 0
  lastRec : Nat := 0
  lag : Nat := 0
deriving DecidableEq, Repr

/-! ### The vector engine -/

/-- An active loop: first instruction, the instruction after the body, and iterations left (R159). -/
structure Loop where
  first : Nat
  stop : Nat
  left : Nat
deriving DecidableEq, Repr

/-- A GROUP or HALT that has issued and not reached its completion point (R162). -/
structure Closer where
  /-- Planned end, in beats. -/
  stop : Nat
  /-- ECLK by which everything issued before it is done; a pop and a push under way hold it. -/
  ready : Nat
  popWait : Bool := false
  halt : Bool := false
deriving DecidableEq, Repr

/-- A vector engine (Tables 5-1, 5-6 to 5-8). Vector lanes are keyed by lane within a register. -/
structure Ve where
  cfg : DWord := 0
  run : Bool := false
  pc : Nat := 0
  refuseSc : Nat := 0
  refused : Bool := false
  halted : Bool := false
  cfgErr : Bool := false
  xlimit : Bool := false
  beat0 : DWord := 0
  seed : DWord := 0
  issueCnt : Word := 0
  overrunCnt : Word := 0
  v : Tbl (Tbl Word) := []
  /-- G1 to G7; G0 is all ones (R136). -/
  g : Tbl (BitVec 512) := []
  xacc : Tbl Strict := []
  step : DWord := 0
  drawId : Byte := 0
  loops : List Loop := []
  /-- Program base of the running program and its next instruction. -/
  base : Nat := 0
  pcNext : Nat := 0
  /-- The scoreboard of R141: ECLK in which each register's result is available. -/
  vReady : Tbl Nat := []
  gReady : Tbl Nat := []
  sReady : Tbl Nat := []
  xReady : Nat := 0
  cReady : Nat := 0
  /-- Earliest next issue: the ECLK after the last one, after its occupancy, after a push, and a planned start. -/
  issueMin : Nat := 0
  startMin : Option Nat := none
  /-- Latest result, and ECLK by which every store is visible. -/
  done : Nat := 0
  visible : Nat := 0
  /-- First register of the pair that a POPQ waits to write, and its instruction. -/
  popTo : Option (Nat × Nat) := none
  pushing : Bool := false
  gStart : Nat := 0
  afterGroup : Bool := false
  closers : List Closer := []
  /-- Lag of the unit, in beats (R332). -/
  lag : Nat := 0
deriving DecidableEq, Repr

/-- An engine pair: the OPE, its slice sequencer, the VE and the scalar register file that the two share (R137). -/
structure Pair where
  ope : Ope := {}
  seq : Seq := {}
  ve : Ve := {}
  scalars : Tbl Word := []
  /-- Writes of VE instructions to scalar registers, oldest first: the register, the first ECLK whose take-up reads the new
  value, and the value before (R137). -/
  history : List (Nat × Nat × Word) := []
deriving DecidableEq, Repr

end Sys2Proof.Machine
end

