-- ==== Sys2Proof/Machine/TypesPower.lean ====
section
/-! DEFINITION. Types of power, sensors, throttle and management (chapter 15), and the compound operands of
commands. -/

namespace Sys2Proof.Machine

/-- Input, rails and reset pins (R438 to R451). The machine right after reset has its rails up (log 5). -/
structure Power where
  /-- `VIN_54` is in range, and the hot-swap controller has opened the input. -/
  vinOk : Bool := true
  inputOpen : Bool := false
  /-- The standby island runs (R440). -/
  standby : Bool := true
  /-- `PWR_EN` past its filter, and since when it has been low. -/
  pwrEn : Bool := true
  lowSince : Option Nat := none
  /-- An emergency power-down is latched (Table 15-3). -/
  latched : Bool := false
  /-- Rail steps of Table 15-1 that are switched on, and those that hold power good. -/
  railsOn : Nat := 6
  railsGood : Nat := 6
  stepSince : Nat := 0
  /-- `PWR_GOOD_N` is low. -/
  good : Bool := true
  /-- A power-down is under way. -/
  down : Bool := false
  /-- `MOD_RST_N` is held low. -/
  modRst : Bool := false
  /-- Both tiers are in self-refresh (R450). -/
  selfRefresh : Bool := false
  /-- Rails of the fault log of the standby island, oldest first (R444). -/
  faultLog : List Nat := []
deriving DecidableEq, Repr

/-- A sensor of Table 15-6; readings are in 1/1,000 of the table's unit. -/
structure Sensor where
  window : List Int := []
  filtered : Option Int := none
  failed : Bool := false
  last : Option Nat := none
  warn : Bool := false
  throttle : Bool := false
  safe : Bool := false
  /-- Since when the filtered reading lies beyond the SAFE threshold, and since when on the safe side of warn. -/
  beyond : Option Nat := none
  calm : Option Nat := none
  /-- The sensor caused a limit that has not cleared (R454). -/
  held : Bool := false
deriving DecidableEq, Repr

/-- The throttle (R456, R457). Powers are in 1/1,000 W. -/
structure Throttle where
  long : Nat := 0
  short : Nat := 0
  hard : Nat := 0
  thermal : Nat := 0
  cap : Nat := 2400
  capNext : Option Nat := none
  /-- Samples of the present 100 µs, and the last hundred means over 100 µs and over 10 ms. -/
  sum : Int := 0
  count : Nat := 0
  means : List Int := []
  longMeans : List Int := []
  /-- Requests that rose at their last boundary: power, and thermal. -/
  powerRose : Bool := false
  thermalRose : Bool := false
  sixSince : Option Nat := none
deriving DecidableEq, Repr

/-- A message under reassembly on MCTP (R465). -/
structure Asm where
  kind : Nat
  tag : Nat
  bytes : List Byte
  since : Nat
deriving DecidableEq, Repr

/-- Management ports (R465 to R468). -/
structure Mgmt where
  i3cAddr : Option Nat := none
  eid : Nat := 0
  asm : Option Asm := none
  mctpDrop : Word := 0
  ethUp : Bool := false
  /-- The attempt under way tries 1000BASE-X. -/
  ethSlow : Bool := false
  ethSince : Nat := 0
  ip : Option Word := none
  ethDrop : Word := 0
deriving DecidableEq, Repr

/-- An MCTP packet as the binding delivers it (R465): start and end of message, message type and tag. -/
structure MctpPkt where
  pecOk : Bool := true
  som : Bool := true
  eom : Bool := true
  tag : Nat := 0
  kind : Nat := 0
  bytes : List Byte := []
deriving DecidableEq, Repr

/-- A frame on the management Ethernet port (R468). -/
inductive Frame where
  | badFcs
  | pause
  | other
  | ptp (bytes : List Byte)
  /-- An ARP request for an address. -/
  | arp (target : Word)
  /-- A DHCPv4 acknowledgement that gives an address. -/
  | dhcp (ip : Word)
deriving DecidableEq, Repr

/-- A unit register with a field that has no behaviour of its own (R13), and the host's BAR. -/
inductive Reg where
  | opeStatus (e : Eng)
  | seqConfig (e : Eng)
  | seqStatus (e : Eng)
  | seqBeat0 (e : Eng)
  | veConfig (e : Eng)
  | veStatus (e : Eng)
  | veBeat0 (e : Eng)
  | hqStatus (q : QueueId)
  | portConfig (p : PortId)
  | portKennels (p : PortId)
  | portStatus (p : PortId)
  | migConfig (m : MDieId)
  | timeStatus
  /-- A host write of `size` bytes at offset `ofs` of a function's BAR (R427, R428). -/
  | bar (p : HostPort) (n : FnIx) (ofs size : BitVec 18)
  /-- A counter or any other register whose every field is read-only. -/
  | readOnly
deriving DecidableEq, Repr

/-- What MSIX_UNMASK changes (R436): a table entry, the function mask, MSI-X Enable, Bus Master Enable, or D0. -/
inductive Unmask where
  | entry (v : BitVec 11) (value : BitVec 128)
  | function
  | enable
  | busMaster
  | d0
deriving DecidableEq, Repr

/-- What BOOT meets (R447): the images' verdicts (log 11), a failed channel of memory training (stack h, or 0x100 + far
channel), a failed self-test (pair, or 0xFFFF), epochs whose application fails, and a sensor whose SAFE limit is crossed
(R455). -/
structure BootIn where
  slotA : ImgCheck := {}
  slotB : ImgCheck := {}
  memFail : Option Nat := none
  selfTest : Option Nat := none
  epochFails : Bool := false
  prevFails : Bool := false
  limit : Option (Fin 32) := none
deriving DecidableEq, Repr

/-- How firmware's DMA of a request ended (R346, Table 11-13). -/
inductive Fetch where
  | request (r : Req)
  | failed
deriving DecidableEq, Repr

end Sys2Proof.Machine
end

