-- ==== Sys2Proof/Syntax.lean ====
section
/-! DEFINITION. The commands of the block: one constructor per row of the opcode table, with the operands that its rule
names and what comes from outside the module (log 30). -/

namespace Sys2Proof

open Sys2Proof.Machine

inductive Instr where
  /-- REGISTER_WRITE (R13). -/
  | registerWrite (reg : Reg) (v : DWord)
  /-- SEQ_START (R109). -/
  | seqStart (e : Eng) (v : DWord)
  /-- SEQ_ABORT (R110). -/
  | seqAbort (e : Eng) (v : DWord)
  /-- SLICE_TAKE_UP (R119). -/
  | sliceTakeUp (e : Eng)
  /-- BISCUIT_ARRIVAL (R119). -/
  | biscuitArrival (u : UnitId)
  /-- SLICE_ISSUE (R87). -/
  | sliceIssue (e : Eng)
  /-- WEIGHT_LOAD (R90). -/
  | weightLoad (e : Eng)
  /-- PROMOTION (R53). -/
  | promotion (e : Eng) (pc : Nat) (w : Nat)
  /-- DRAIN (R83). -/
  | drain (e : Eng) (upsets : List Nat)
  /-- CHECK_CYCLE (R94). -/
  | checkCycle (e : Eng)
  /-- SLICE_COMPLETION (R121). -/
  | sliceCompletion (e : Eng)
  /-- HALT_DESCRIPTOR (R123). -/
  | haltDescriptor (e : Eng)
  /-- QUEUE_PUSH (R186). -/
  | queuePush (u : UnitId)
  /-- QUEUE_POP (R186). -/
  | queuePop (u : UnitId)
  /-- PUSH_RETRY (R187). -/
  | pushRetry (u : UnitId)
  /-- VE_START (R165). -/
  | veStart (e : Eng) (v : DWord)
  /-- VE_ABORT (R166). -/
  | veAbort (e : Eng) (v : DWord)
  /-- TASK_SEED_WRITE (R164). -/
  | taskSeedWrite (e : Eng) (v : DWord)
  /-- NOP (R142). -/
  | nop (e : Eng)
  /-- FADD (R143). -/
  | fadd (e : Eng)
  /-- FSUB (R143). -/
  | fsub (e : Eng)
  /-- FMUL (R143). -/
  | fmul (e : Eng)
  /-- FMA (R143). -/
  | fma (e : Eng)
  /-- FNMA (R143). -/
  | fnma (e : Eng)
  /-- FMIN (R37). -/
  | fmin (e : Eng)
  /-- FMAX (R37). -/
  | fmax (e : Eng)
  /-- FCMP (R142). -/
  | fcmp (e : Eng)
  /-- SEL (R142). -/
  | sel (e : Eng)
  /-- MOV (R142). -/
  | mov (e : Eng)
  /-- IADD (R142). -/
  | iadd (e : Eng)
  /-- ISUB (R142). -/
  | isub (e : Eng)
  /-- IMIN (R142). -/
  | imin (e : Eng)
  /-- IMAX (R142). -/
  | imax (e : Eng)
  /-- ICMP (R142). -/
  | icmp (e : Eng)
  /-- CVT (R148). -/
  | cvt (e : Eng)
  /-- QNT (R149). -/
  | qnt (e : Eng)
  /-- ITOF (R142). -/
  | itof (e : Eng)
  /-- FTOI (R143). -/
  | ftoi (e : Eng)
  /-- LD (R144). -/
  | ld (e : Eng)
  /-- ST (R145). -/
  | st (e : Eng)
  /-- STS (R146). -/
  | sts (e : Eng)
  /-- GLD (R144). -/
  | gld (e : Eng)
  /-- GST (R144). -/
  | gst (e : Eng)
  /-- GLOG (R142). -/
  | glog (e : Eng)
  /-- PSUM (R151). -/
  | psum (e : Eng)
  /-- SSCAN (R152). -/
  | sscan (e : Eng)
  /-- RSUM (R153). -/
  | rsum (e : Eng)
  /-- RMIN (R153). -/
  | rmin (e : Eng)
  /-- RMAX (R153). -/
  | rmax (e : Eng)
  /-- EXP2 (R154). -/
  | exp2 (e : Eng)
  /-- LOG2 (R154). -/
  | log2 (e : Eng)
  /-- RCP (R154). -/
  | rcp (e : Eng)
  /-- RSQRT (R154). -/
  | rsqrt (e : Eng)
  /-- TANH (R154). -/
  | tanh (e : Eng)
  /-- XCLR (R155). -/
  | xclr (e : Eng)
  /-- XADD (R155). -/
  | xadd (e : Eng)
  /-- XRD (R156). -/
  | xrd (e : Eng)
  /-- XST (R157). -/
  | xst (e : Eng)
  /-- XMRG (R157). -/
  | xmrg (e : Eng)
  /-- SSET (R142). -/
  | sset (e : Eng)
  /-- SADD (R142). -/
  | sadd (e : Eng)
  /-- SADD64 (R142). -/
  | sadd64 (e : Eng)
  /-- SMOVV (R142). -/
  | smovv (e : Eng)
  /-- XRDS (R156). -/
  | xrds (e : Eng)
  /-- GBLK (R142). -/
  | gblk (e : Eng)
  /-- LOOP (R159). -/
  | loop (e : Eng)
  /-- RCTX (R150). -/
  | rctx (e : Eng)
  /-- POPQ (R160). -/
  | popq (e : Eng)
  /-- PUSHQ (R160). -/
  | pushq (e : Eng)
  /-- GROUP (R161). -/
  | group (e : Eng)
  /-- HALT (R161). -/
  | halt (e : Eng)
  /-- VE_GROUP_COMPLETION (R162). -/
  | veGroupCompletion (e : Eng)
  /-- SLOT_ARM (R172). -/
  | slotArm (m : MbxId) (pl : Payload)
  /-- SLOT_DISARM (R175). -/
  | slotDisarm (m : MbxId)
  /-- REPETITION_POPS (R177). -/
  | repetitionPops (n : StreamIx) (s : SlotId)
  /-- REPETITION_READS (R197). -/
  | repetitionReads (n : StreamIx) (s : Probed SlotId)
  /-- REPETITION_COMPLETION (R177). -/
  | repetitionCompletion (n : StreamIx) (s : SlotId) (at' : Nat)
  /-- SHADOW_MOVE (R173). -/
  | shadowMove (n : StreamIx) (s : SlotId)
  /-- RUNAHEAD_FETCH (R201). -/
  | runaheadFetch (n : StreamIx) (s : Probed SlotId)
  /-- WATCH_GRANT (R200). -/
  | watchGrant (m : MDieId)
  /-- LEASH_EXPIRY (R203). -/
  | leashExpiry (n : StreamIx) (s : SlotId)
  /-- MEMORY_READ (R219). -/
  | memoryRead (n : StreamIx) (s : SlotId) (ecc : Ecc)
  /-- MEMORY_WRITE (R219). -/
  | memoryWrite (n : StreamIx) (s : Probed SlotId)
  /-- MIGRATION_START (R224). -/
  | migrationStart (m : MDieId)
  /-- MIGRATION_COMPLETE (R225). -/
  | migrationComplete (k : KennelId) (pg : BitVec 23) (bad : List (BitVec 9) × List (BitVec 9))
  /-- FRAME_WAIT_TIMEOUT (R226). -/
  | frameWaitTimeout (k : KennelId) (pg : BitVec 23)
  /-- HINT_UPDATE (R235). -/
  | hintUpdate (t : BitVec 16) (v : DWord)
  /-- PORT_ENABLE (R249). -/
  | portEnable (p : PortId) (v : DWord)
  /-- PORT_RETRAIN (R266). -/
  | portRetrain (p : PortId) (v : DWord)
  /-- TRAINING_COMPLETE (R249). -/
  | trainingComplete (p : PortId)
  /-- TRAINING_TIMEOUT (R249). -/
  | trainingTimeout (p : PortId)
  /-- QUALIFY_WINDOW_END (R249). -/
  | qualifyWindowEnd (p : PortId) (ucw : Nat) (csym : Nat) (syms : Nat)
  /-- NEGOTIATE_TIMEOUT (R249). -/
  | negotiateTimeout (p : PortId)
  /-- NEG_SEND (R264). -/
  | negSend (p : PortId)
  /-- NEG (R264). -/
  | neg (p : PortId) (r : RxFlit)
  /-- NEG_DONE (R264). -/
  | negDone (p : PortId) (r : RxFlit)
  /-- PCS_LOCK_LOSS (R250). -/
  | pcsLockLoss (p : PortId)
  /-- DEGRADE_WINDOW (R250). -/
  | degradeWindow (p : PortId) (csym : Nat) (syms : Nat)
  /-- IDLE (R257). -/
  | idle (p : PortId) (r : RxFlit)
  /-- ACK_TIMEOUT (R255). -/
  | ackTimeout (p : PortId)
  /-- FLIT_SLOT (R259). -/
  | flitSlot (p : PortId) (ofs : Nat)
  /-- STRICT_WINDOW (R387). -/
  | strictWindow (p : PortId)
  /-- TCRED (R277). -/
  | tcred (p : PortId) (r : RxFlit)
  /-- BARK (R331). -/
  | bark (p : PortId) (r : RxFlit) (arr : Nat)
  /-- RED (R272). -/
  | red (p : PortId) (r : RxFlit)
  /-- RED_X (R275). -/
  | redX (p : PortId) (r : RxFlit)
  /-- LOCAL_CONTRIBUTION (R272). -/
  | localContribution (n : StreamIx) (s : SlotId)
  /-- ENTRY_LEASH_EXPIRY (R280). -/
  | entryLeashExpiry (t : TreeId)
  /-- MCAST (R285). -/
  | mcast (p : PortId) (r : RxFlit)
  /-- READ_REQ (R287). -/
  | readReq (p : PortId) (r : RxFlit) (ecc : Ecc)
  /-- READ_RSP (R287). -/
  | readRsp (p : PortId) (r : RxFlit)
  /-- PEER_READ_TIMEOUT (R287). -/
  | peerReadTimeout (rid : BitVec 12)
  /-- KEY_SWITCH (R383). -/
  | keySwitch (k : KennelId)
  /-- OLD_KEY_ERASE (R383). -/
  | oldKeyErase (k : KennelId)
  /-- RCV_ABORT (R400). -/
  | rcvAbort (p : PortId) (r : RxFlit)
  /-- RCV_NBR (R398). -/
  | rcvNbr (p : PortId) (r : RxFlit)
  /-- RCV_QUIET (R402). -/
  | rcvQuiet (p : PortId) (r : RxFlit)
  /-- RCV_LOST (R404). -/
  | rcvLost (p : PortId) (r : RxFlit)
  /-- RCV_ADOPT (R412). -/
  | rcvAdopt (p : PortId) (r : RxFlit)
  /-- RCV_JOIN (R412). -/
  | rcvJoin (p : PortId) (r : Rebuilding RxFlit)
  /-- RCV_GO (R415). -/
  | rcvGo (p : PortId) (r : RxFlit) (rebuilt : Option (List Byte))
  /-- RCV_END (R396). -/
  | rcvEnd (p : PortId) (r : RxFlit)
  /-- RCV_COMMITTED (R409). -/
  | rcvCommitted (p : PortId) (r : RxFlit)
  /-- RCV_SEALED (R409). -/
  | rcvSealed (p : PortId) (r : RxFlit)
  /-- COORDINATOR_ROUND_END (R402). -/
  | coordinatorRoundEnd (k : Rebuilding KennelId)
  /-- JOIN_TIMEOUT (R412). -/
  | joinTimeout (k : Rebuilding KennelId)
  /-- UPDATE_REPORT (R311). -/
  | updateReport (k : KennelId) (q : Probed QueueId)
  /-- FREEZE_APPLY (R306). -/
  | freezeApply (k : KennelId) (step : DWord)
  /-- PTP_SYNC (R320). -/
  | ptpSync (domain : BitVec 8) (ident : DWord) (logInt : Int) (t1 : Int) (t2 : Int) (inTime : Bool)
  /-- PTP_ANNOUNCE (R320). -/
  | ptpAnnounce (domain : BitVec 8) (ident : DWord) (prio : Nat) (steps : Nat) (logInt : Int)
  /-- PTP_DELAY_RESP (R320). -/
  | ptpDelayResp (domain : BitVec 8) (delay : Int)
  /-- DELAY_REQ_TIMEOUT (R320). -/
  | delayReqTimeout
  /-- SYNC_TIMEOUT (R320). -/
  | syncTimeout
  /-- ANNOUNCE_TIMEOUT (R320). -/
  | announceTimeout
  /-- PPS_EDGE (R320). -/
  | ppsEdge (t : Nat) (low : Nat) (high : Nat)
  /-- PPS_TIMEOUT (R320). -/
  | ppsTimeout
  /-- PARENT_BARK_TIMEOUT (R320). -/
  | parentBarkTimeout
  /-- HOLDOVER_EXPIRY (R318). -/
  | holdoverExpiry
  /-- PPS_OUTPUT (R321). -/
  | ppsOutput
  /-- BEAT_BOUNDARY (R324). -/
  | beatBoundary
  /-- START_BEAT (R362). -/
  | startBeat (k : KennelId)
  /-- ATTACH_DB (R434). -/
  | attachDb (p : HostPort) (n : FnIx) (v : DWord)
  /-- MBX_ATTACH (R339). -/
  | mbxAttach (p : HostPort) (n : FnIx) (mcb : Option (List Byte)) (writeOk : Bool)
  /-- MBX_DB (R435). -/
  | mbxDb (p : HostPort) (n : FnIx) (m : MbxId) (v : DWord)
  /-- REQUEST_BEGIN (R346). -/
  | requestBegin (m : MbxId) (f : Fetch)
  /-- COMPLETION_RING_STALL (R350). -/
  | completionRingStall (m : MbxId)
  /-- MAILBOX_FREE (R350). -/
  | mailboxFree (m : MbxId)
  /-- EVT_LOST (R367). -/
  | evtLost (m : MbxId)
  /-- INTERRUPT_COALESCE (R368). -/
  | interruptCoalesce (m : MbxId)
  /-- NOP_COMMAND (R355). -/
  | nopCommand (m : MbxId)
  /-- DEV_INFO (R356). -/
  | devInfo (m : MbxId)
  /-- DEV_STATE (R355). -/
  | devState (m : MbxId)
  /-- MBX_DETACH (R350). -/
  | mbxDetach (m : MbxId)
  /-- EVENT_MASK (R368). -/
  | eventMask (m : MbxId)
  /-- READ_UNIT (R357). -/
  | readUnit (m : MbxId)
  /-- DEV_READY (R352). -/
  | devReady (m : MbxId)
  /-- DEV_CONFIG (R352). -/
  | devConfig (m : MbxId)
  /-- DEV_DRAIN (R352). -/
  | devDrain (m : MbxId)
  /-- DEV_SAFE (R352). -/
  | devSafe (m : MbxId)
  /-- DEV_RESUME (R454). -/
  | devResume (m : MbxId)
  /-- DEV_RESET (R470). -/
  | devReset (m : MbxId)
  /-- CFG_GET (R358). -/
  | cfgGet (m : MbxId)
  /-- CFG_STAGE (R358). -/
  | cfgStage (m : MbxId) (pl : Payload)
  /-- CFG_COMMIT (R421). -/
  | cfgCommit (m : MbxId) (writeOk : Bool) (applyOk : Bool) (backOk : Bool)
  /-- CFG_ROLLBACK (R422). -/
  | cfgRollback (m : MbxId) (applyOk : Bool)
  /-- CFG_DISCARD (R355). -/
  | cfgDiscard (m : MbxId)
  /-- IMG_WRITE (R388). -/
  | imgWrite (m : MbxId) (pl : Payload)
  /-- IMG_ACTIVATE (R389). -/
  | imgActivate (m : MbxId) (chk : ImgCheck)
  /-- KENNEL_CREATE (R370). -/
  | kennelCreate (m : MbxId) (pl : Payload)
  /-- KENNEL_DESTROY (R371). -/
  | kennelDestroy (m : MbxId)
  /-- KENNEL_TEARDOWN_DONE (R371). -/
  | kennelTeardownDone (k : KennelId)
  /-- UNIT_CLEAR_DONE (R373). -/
  | unitClearDone (die : Bool) (u : Eng)
  /-- QUOTA_SET (R377). -/
  | quotaSet (m : MbxId) (pl : Payload)
  /-- KENNEL_KEY (R383). -/
  | kennelKey (m : MbxId) (pl : Payload) (key : Option (BitVec 256))
  /-- SPDM_MSG (R392). -/
  | spdmMsg (m : MbxId) (pl : Payload)
  /-- SPDM_GET_MEASUREMENTS (R393). -/
  | spdmGetMeasurements (m : MbxId) (pl : Payload)
  /-- SPDM_KEY_EXCHANGE (R392). -/
  | spdmKeyExchange (m : MbxId) (pl : Payload) (session : BitVec 32)
  /-- SPDM_VENDOR_DEFINED_REQUEST (R382). -/
  | spdmVendorDefinedRequest (m : MbxId) (pl : Payload) (key : Option (BitVec 256))
  /-- SPDM_OTHER_REQUEST (R392). -/
  | spdmOtherRequest (m : MbxId) (pl : Payload) (session : BitVec 32)
  /-- MAP (R379). -/
  | map (m : MbxId)
  /-- UNMAP (R379). -/
  | unmap (m : MbxId)
  /-- MEM_WRITE (R349). -/
  | memWrite (m : MbxId) (pl : Payload)
  /-- MEM_READ (R355). -/
  | memRead (m : MbxId) (ecc : Ecc)
  /-- MIGRATE (R224). -/
  | migrate (m : MbxId)
  /-- HQ_SET (R184). -/
  | hqSet (m : MbxId)
  /-- HQ_PUSH (R364). -/
  | hqPush (m : MbxId)
  /-- HQ_FLUSH (R189). -/
  | hqFlush (m : MbxId)
  /-- LITTER_SET (R192). -/
  | litterSet (m : MbxId)
  /-- TREE_SET (R270). -/
  | treeSet (m : MbxId)
  /-- SCALAR_SET (R137). -/
  | scalarSet (m : MbxId)
  /-- TASK_CREATE (R360). -/
  | taskCreate (m : MbxId)
  /-- TASK_CREATION_DONE (R361). -/
  | taskCreationDone (k : Probed KennelId)
  /-- TASK_START (R362). -/
  | taskStart (m : MbxId)
  /-- TASK_STOP (R355). -/
  | taskStop (m : MbxId)
  /-- TASK_ABORT (R353). -/
  | taskAbort (m : MbxId)
  /-- TASK_DESTROY (R353). -/
  | taskDestroy (m : MbxId)
  /-- TASK_STATUS (R355). -/
  | taskStatus (m : MbxId)
  /-- BATCH_PUT (R363). -/
  | batchPut (m : MbxId) (pl : Payload)
  /-- BATCH_WAIT_TIMEOUT (R363). -/
  | batchWaitTimeout (k : KennelId)
  /-- SCHED_SET (R312). -/
  | schedSet (m : MbxId) (pl : Payload)
  /-- FREEZE_SET (R306). -/
  | freezeSet (m : MbxId) (pl : Payload)
  /-- TASK_STANDBY (R412). -/
  | taskStandby (m : MbxId)
  /-- TIME_GET (R355). -/
  | timeGet (m : MbxId)
  /-- WATCHDOG_EXPIRY (R337). -/
  | watchdogExpiry
  /-- FUNCTION_LEVEL_RESET (R426). -/
  | functionLevelReset (p : HostPort) (n : FnIx)
  /-- BUS_MASTER_DISABLE (R426). -/
  | busMasterDisable (p : HostPort) (n : FnIx)
  /-- D3HOT_ENTRY (R426). -/
  | d3hotEntry (p : HostPort) (n : FnIx)
  /-- MSIX_ENABLE_CLEAR (R426). -/
  | msixEnableClear (p : HostPort) (n : FnIx)
  /-- VF_DISABLE (R426). -/
  | vfDisable (p : HostPort) (n : FnIx)
  /-- HOST_LINK_LOSS (R350). -/
  | hostLinkLoss (p : HostPort)
  /-- HOST_PORT_TRAIN (R424). -/
  | hostPortTrain (p : HostPort) (rate : Nat) (width : Nat) (flitMode : Bool)
  /-- FN_STATUS_WRITE (R431). -/
  | fnStatusWrite (p : HostPort) (n : FnIx) (v : DWord)
  /-- FN_INT_CTRL_WRITE (R431). -/
  | fnIntCtrlWrite (p : HostPort) (n : FnIx) (v : DWord)
  /-- MSIX_UNMASK (R436). -/
  | msixUnmask (p : HostPort) (n : FnIx) (u : Unmask)
  /-- VIN_IN_RANGE (R440). -/
  | vinInRange
  /-- PWR_EN_RISE (R442). -/
  | pwrEnRise
  /-- RAIL_STEP_GOOD (R442). -/
  | railStepGood
  /-- RAIL_FAULT (R444). -/
  | railFault (rail : Fin 18)
  /-- RAIL_POWER_LOSS (R444). -/
  | railPowerLoss (rail : Fin 18)
  /-- PWR_EN_FALL (R450). -/
  | pwrEnFall
  /-- INPUT_LOSS (R446). -/
  | inputLoss
  /-- INPUT_OVERCURRENT (R439). -/
  | inputOvercurrent
  /-- SENSOR_TRIP (R453). -/
  | sensorTrip (id : Fin 32)
  /-- RAIL_OFF_STEP (R450). -/
  | railOffStep
  /-- MOD_RST (R470). -/
  | modRst (held : Bool)
  /-- HP_PERST (R446). -/
  | hpPerst (p : HostPort)
  /-- BOOT (R447). -/
  | boot (b : BootIn)
  /-- SENSOR_SAMPLE (R452). -/
  | sensorSample (id : Fin 32) (v : Int)
  /-- SENSOR_TIMEOUT (R452). -/
  | sensorTimeout (id : Fin 32)
  /-- LIMIT_CLEARED (R454). -/
  | limitCleared (id : Fin 32)
  /-- THROTTLE_UPDATE (R456). -/
  | throttleUpdate
  /-- THROTTLE_WINDOW (R456). -/
  | throttleWindow
  /-- THROTTLE_SAFE (R457). -/
  | throttleSafe
  /-- PLDM_SET_EFFECTER (R466). -/
  | pldmSetEffecter (watts : Nat)
  /-- PLDM_GET_SENSOR (R466). -/
  | pldmGetSensor (id : Nat)
  /-- PLDM_FRU_READ (R466). -/
  | pldmFruRead
  /-- PLDM_REQUEST_UPDATE (R467). -/
  | pldmRequestUpdate
  /-- PLDM_ACTIVATE (R467). -/
  | pldmActivate (chk : ImgCheck)
  /-- IMG_SLOT_HOLD_TIMEOUT (R467). -/
  | imgSlotHoldTimeout
  /-- I3C_ENTDAA (R465). -/
  | i3cEntdaa (addr : BitVec 7)
  /-- MCTP_PACKET (R465). -/
  | mctpPacket (pkt : MctpPkt)
  /-- MCTP_REASSEMBLY_TIMEOUT (R465). -/
  | mctpReassemblyTimeout
  /-- ETH_SEEK_TIMEOUT (R468). -/
  | ethSeekTimeout
  /-- ETH_LOCK_LOSS (R468). -/
  | ethLockLoss
  /-- ETH_FRAME (R468). -/
  | ethFrame (f : Frame)
  /-- SECURITY_CORE_FAULT (R352). -/
  | securityCoreFault
  /-- EMERGENCY_LATCH_RELEASE (R439). -/
  | emergencyLatchRelease
  /-- ETH_LINK_LOCK (R468). -/
  | ethLinkLock (slow : Bool)
  /-- PTP_DELAY_REQ_SEND (R319). -/
  | ptpDelayReqSend
  /-- MCTP_SET_ENDPOINT_ID (R465). -/
  | mctpSetEndpointId (eid : Byte)
  /-- PLDM_CANCEL_UPDATE (R467). -/
  | pldmCancelUpdate
  /-- PLDM_FIRMWARE_DATA (R467). -/
  | pldmFirmwareData (ofs : Nat) (bytes : List Byte)
  /-- VF_ENABLE (R425). -/
  | vfEnable (p : HostPort) (n : FnIx)
deriving DecidableEq, Repr

end Sys2Proof
end

