-- ==== Sys2Proof/Machine/Funcs.lean ====
section
/-! DEFINITION. The five functions of R154: the exact value rounded once to FP32 by RNE. Fixed point at 256
fraction bits decides the rounding: a value that is not a dyadic number is taken as its truncation with a
sticky one below it. DEDUCED: 256 bits lie far beyond the hardest operand of binary32 (log 9). -/

namespace Sys2Proof.Machine

/-- Fraction bits of the fixed-point evaluation. -/
def fnP : Nat := 256

/-- ln 2 at 2⁻²⁵⁶, truncated. -/
def ln2Fix : Nat := 80260960185991308862233904206310070533990667611589946606122867505419956976171

/-- Sum of the Taylor terms of exp y at 2⁻²⁵⁶ from term `i` on. -/
def expTail (fuel i : Nat) (term y : Nat) : Nat :=
  match fuel with
  | 0 => 0
  | k + 1 => term + expTail k (i + 1) (term * y / 2 ^ fnP / i) y

/-- 2^(f × 2⁻²⁵⁶) at 2⁻²⁵⁶ for 0 ≤ f ≤ 2²⁵⁶. -/
def exp2Frac (f : Nat) : Nat := expTail 80 1 (2 ^ fnP) (f * ln2Fix / 2 ^ fnP)

/-- A value that lies strictly between t and t + 1 units of 2⁻²⁵⁶, scaled by 2^n. -/
def stickyFp (t : Int) (n : Int) : Fp := Fp.ofInt (2 * t + 1) (n - fnP - 1)

def exp2W (a : Word) : Word :=
  encW (match decW a with
    | .nan => .nan
    | .inf true => .fin false 0 0
    | .inf false => .inf false
    | .fin neg m e =>
      if m = 0 then .fin false 1 0
      else if (Nat.log2 m : Int) + e ≥ 10 then (if neg then .fin false 0 0 else .inf false)
      else
        let x := scaleTo neg m e (-(fnP : Int))
        let n := x / 2 ^ fnP
        let f := (x % 2 ^ fnP).toNat
        if f = 0 then .fin false 1 n else stickyFp (exp2Frac f) n)

/-- Sum of the series of artanh z at 2⁻²⁵⁶ from power 2i + 1 on. -/
def atanhTail (fuel i : Nat) (pow z2 : Nat) : Nat :=
  match fuel with
  | 0 => 0
  | k + 1 => pow / (2 * i + 1) + atanhTail k (i + 1) (pow * z2 / 2 ^ fnP) z2

def log2W (a : Word) : Word :=
  encW (match decW a with
    | .nan => .nan
    | .inf true => .nan
    | .inf false => .inf false
    | .fin neg m e =>
      if m = 0 then .inf true
      else if neg then .nan
      else
        let k := Nat.log2 m
        let w := m * 2 ^ (fnP - k)
        if m = 2 ^ k then Fp.ofInt (e + k) 0
        else
          let z := (w - 2 ^ fnP) * 2 ^ fnP / (w + 2 ^ fnP)
          let l := 2 * atanhTail 90 0 z (z * z / 2 ^ fnP) * 2 ^ fnP / ln2Fix
          stickyFp ((e + k) * 2 ^ fnP + l) 0)

def rcpW (a : Word) : Word :=
  encW (match decW a with
    | .nan => .nan
    | .inf n => .fin n 0 0
    | .fin n m e =>
      if m = 0 then .inf n
      else
        let q := 2 ^ 100 / m
        .fin n (2 * q + (if q * m = 2 ^ 100 then 0 else 1)) (-101 - e))

/-- Integer square root, one bit a step from bit `b` − 1 down. -/
def isqrtBits (b r n : Nat) : Nat :=
  match b with
  | 0 => r
  | k + 1 => isqrtBits k (if (r + 2 ^ k) * (r + 2 ^ k) ≤ n then r + 2 ^ k else r) n

def rsqrtW (a : Word) : Word :=
  encW (match decW a with
    | .nan => .nan
    | .inf true => .nan
    | .inf false => .fin false 0 0
    | .fin n m e =>
      if m = 0 then .inf n
      else if n then .nan
      else
        let odd := e % 2 ≠ 0
        let m' := if odd then 2 * m else m
        let e' := if odd then e - 1 else e
        let s := isqrtBits 81 0 (2 ^ 160 / m')
        .fin false (2 * s + (if s * s * m' = 2 ^ 160 then 0 else 1)) (-81 - e' / 2))

def tanhW (a : Word) : Word :=
  match decW a with
  | .nan => nanW
  | .inf n => if n then 0xBF800000#32 else 0x3F800000#32
  | .fin n m e =>
    let mag := (Nat.log2 m : Int) + e
    if m = 0 ∨ mag < -40 then a
    else if mag ≥ 5 then (if n then 0xBF800000#32 else 0x3F800000#32)
    else
      let x := (scaleTo false m e (-(fnP : Int))).toNat
      let w := 2 * x * 2 ^ fnP / ln2Fix
      let u := exp2Frac (2 ^ fnP - w % 2 ^ fnP) / 2 ^ (w / 2 ^ fnP + 1)
      let t := (2 ^ fnP - u) * 2 ^ fnP / (2 ^ fnP + u)
      encW (.fin n (2 * t + 1) (-(fnP : Int) - 1))

end Sys2Proof.Machine
end

