-- ==== Sys2Proof/Machine/State.lean ====
section
/-! DEFINITION. The state of the module as plain data: the device, the queue of waiting commands, and the
machine right after reset. -/

namespace Sys2Proof.Machine

/-- A report of a unit that firmware acts on at once (R394). The list of a device is empty between commands. -/
inductive Report where
  /-- A task fault, or a module fault of this module, of a kennel's task. -/
  | fault (k : Nat) (kind : FaultKind)
  /-- A neighbour has stopped barking: its module. -/
  | neighbour (m : Nat)
  /-- An ending of a kennel's task with a status (Table 13-1). -/
  | ending (k : Nat) (sc : Sc)
  /-- A META or CHANNEL error (R240), with the `CARG` of Table 15-5. -/
  | memFatal (carg : Nat)
  /-- A kennel's measured footprint (`high` false) or far use has passed its mark: bytes (R233). -/
  | memUse (k : Nat) (high : Bool) (bytes : Nat)
deriving DecidableEq, Repr

structure Dev where
  out : List Out := []
  reports : List Report := []
  fresh : Nat := 0
  eclk : Nat := 0
  timeOff : Int := 0
  fuses : Fuses := {}
  dstate : DState := .boot
  drainToConfig : Bool := false
  time : TimeUnit := {}
  fns : Tbl Fn := []
  hports : Tbl HPort := []
  mbx : Tbl (Option Mbx) := []
  mbxFreed : Tbl Nat := []
  kennels : Tbl Kennel := []
  tasks : Tbl (Option Task) := []
  rcvSeen : List (DWord × Nat) := []
  epochRun : Epoch := {}
  epochPrev : Epoch := {}
  epochStaged : Epoch := {}
  cfgSeq : Nat := 0
  slotA : Slot := factorySlot
  slotB : Slot := {}
  runningB : Option Bool := none
  reachedReady : Bool := false
  /-- An epoch has been applied since the last reset (Table 14-4). -/
  epochOn : Bool := false
  /-- What firmware raises once mailboxes exist: `SECURITY_FAULT` of R390, and `DEV_STATE` with its cause (R449). -/
  bootSecurity : Bool := false
  bootCause : Option DWord := none
  /-- Module key of the reserved region, drawn at each BOOT (R380). -/
  moduleKey : Option (BitVec 512) := none
  holder : Option (Holder × Nat) := none
  /-- SPDM sessions established, and those between KEY_EXCHANGE and FINISH: session ID and mailbox. -/
  sessions : List (Nat × Nat) := []
  handshakes : List (Nat × Nat) := []
  ports : Tbl Port := []
  trees : Tbl Tree := []
  adders : Tbl (List AEntry) := []
  reads : Tbl (Option PeerRead) := []
  /-- Entries completed at a root that the same command still delivers; empty between commands. -/
  delivered : List AEntry := []
  hqs : Tbl Hq := []
  litters : Tbl (BitVec 128) := []
  popReqs : List PopReq := []
  pushReqs : List PushReq := []
  arrivals : List Arrival := []
  ses : Tbl Se := []
  takeUps : Tbl (List TakeUp) := []
  /-- Kennel of an engine pair or die store (0: none), and what R373 is clearing. -/
  pairOwner : Tbl Nat := []
  dieOwner : Tbl Nat := []
  pairClearing : List Nat := []
  dieClearing : List Nat := []
  tiles : Tbl Mem := []
  caches : Tbl Mem := []
  dies : Tbl Mem := []
  /-- Plaintext of the mapped pages in the near tier, by kennel. -/
  mem : Tbl Mem := []
  dirs : Tbl DWord := []
  pages : Tbl Page := []
  mdies : Tbl MDie := []
  waits : List MemWait := []
  /-- Reads that have arrived at the M-dies, to number them (R245). -/
  arrived : Nat := 0
  /-- Prefetches that wait for a watch entry, in order of arrival: M-die, engine, slot, block (R200). -/
  watchQ : List (Nat × Nat × Nat × Nat) := []
  marks : Tbl MemMark := []
  retireSeq : Nat := 0
  pairs : Tbl Pair := []
  /-- Level of the throttle (R456). -/
  throttle : Nat := 0
  thr : Throttle := {}
  power : Power := {}
  sensors : Tbl Sensor := []
  mgmt : Mgmt := {}
  /-- Mailboxes with a request in progress, in the order in which firmware began them (R348). -/
  begun : List Nat := []
deriving DecidableEq, Repr

/-- Why the model stops with a fault: no command does, for the spec gives each an effect, or says that it has none. -/
inductive Fault where
deriving DecidableEq, Repr

/-- Why the model refuses a command. -/
inductive Refusal where
  /-- A command without a meaning in the model; none is left. Safe. -/
  | notModelled (mnemonic : String)
deriving DecidableEq, Repr

/-- The block: the queue of commands that wait, first in first out, and the device. -/
structure State where
  pending : List Instr := []
  d : Dev := {}
deriving DecidableEq, Repr

/-- The machine right after reset: the module in BOOT with its rails up (R470, Table 14-5), nothing waiting. -/
def State.reset : State := {}

end Sys2Proof.Machine
end

