-- ==== Sys2Proof/Machine/Ops.lean ====
section
/-! DEFINITION. Named operations of the control side: units of time, functions and interrupts, mailboxes, events,
device and task states, reports. -/

namespace Sys2Proof.Machine

/-! ### Time -/

/-- ECLK in n µs and in n ms (R14). -/
def us (n : Nat) : Nat := 1500 * n
def ms (n : Nat) : Nat := 1500000 * n

/-- `TIME_NOW`: one count per TCLK, which is 1.5 ECLK (R314). -/
def timeNow (d : Dev) : Nat := ((d.timeOff + (2 * d.eclk / 3 : Nat)) % 2 ^ 64).toNat

def timeSrc (d : Dev) : Nat := fld d.time.config 63 62
def timeParent (d : Dev) : Nat := fld d.time.config 61 58
def ptpDomain (d : Dev) : Nat := fld d.time.config 57 50
def ppsOutEn (d : Dev) : Bool := bit d.time.config 49
def holdMax (d : Dev) : Nat := fld d.time.config 48 41
def barkMiss (d : Dev) : Nat := fld d.time.config 40 36
def beatPeriod (d : Dev) : Nat := fld d.time.config 35 19

/-- `BEAT_NOW` (R322). -/
def beatNow (d : Dev) : Nat := (timeNow d - d.time.origin.toNat) / beatPeriod d

/-- ECLK of the boundary of beat b, on the present relation of `TIME_NOW` and ECLK. -/
def beatEclk (d : Dev) (b : Nat) : Nat :=
  ((3 * (((d.time.origin.toNat + b * beatPeriod d : Nat) : Int) - d.timeOff) + 1) / 2).toNat

/-- `TIME_STATUS` (Table 10-3). -/
def timeStatus (d : Dev) : DWord :=
  put 64 62 d.time.tstate.code ||| putB 64 61 d.time.refOk ||| putB 64 60 d.time.ppsOk ||| putB 64 59 d.time.stepped
    ||| putB 64 58 d.time.holdExpired ||| putB 64 57 d.time.inputRej ||| put 64 32 d.time.tdepth
    ||| (BitVec.ofInt 32 d.time.offset).setWidth 64

/-- Now lies at least `lim` ECLK after `t`. -/
def due (d : Dev) (t lim : Nat) : Bool := t + lim ≤ d.eclk

/-! ### Tables of units -/

/-- Kennel k; kennel 0 is always LIVE (R369). -/
def kennel (d : Dev) (k : Nat) : Kennel :=
  let x := Tbl.get {} d.kennels k
  if k = 0 then { x with st := .live } else x
def modKennel (d : Dev) (k : Nat) (f : Kennel → Kennel) : Dev := { d with kennels := Tbl.modify {} d.kennels k f }

def task (d : Dev) (k : Nat) : Option Task := Tbl.get none d.tasks k
def setTask (d : Dev) (k : Nat) (t : Option Task) : Dev := { d with tasks := Tbl.set none d.tasks k t }
/-- Change a task; nothing where the kennel has none. -/
def modTask (d : Dev) (k : Nat) (f : Task → Task) : Dev :=
  match task d k with
  | some t => setTask d k (some (f t))
  | none => d

def mbx (d : Dev) (m : Nat) : Option Mbx := Tbl.get none d.mbx m
def setMbx (d : Dev) (m : Nat) (x : Option Mbx) : Dev := { d with mbx := Tbl.set none d.mbx m x }
def modMbx (d : Dev) (m : Nat) (f : Mbx → Mbx) : Dev :=
  match mbx d m with
  | some x => setMbx d m (some (f x))
  | none => d

def hport (d : Dev) (p : Nat) : HPort := Tbl.get {} d.hports p
def modHport (d : Dev) (p : Nat) (f : HPort → HPort) : Dev := { d with hports := Tbl.modify {} d.hports p f }

/-- Number of function n of port p in the function table. -/
def fnIx (p n : Nat) : Nat := 65 * p + n
def fn (d : Dev) (p n : Nat) : Fn := Tbl.get {} d.fns (fnIx p n)
def modFn (d : Dev) (p n : Nat) (f : Fn → Fn) : Dev := { d with fns := Tbl.modify {} d.fns (fnIx p n) f }

/-- The physical function always exists; VF n exists while NumVFs is n or more (R425). -/
def fnExists (d : Dev) (p n : Nat) : Bool := p < 2 && n ≤ (hport d p).numVfs

/-- Table 14-2. -/
def kennelOfFn (n : Nat) : Nat := if n ≤ 1 then 0 else n - 1

/-- Every existing function, as (port, number). -/
def allFns (d : Dev) : List (Nat × Nat) :=
  (List.range 2).flatMap (fun p => (List.range ((hport d p).numVfs + 1)).map (fun n => (p, n)))

def port (d : Dev) (p : Nat) : Port := Tbl.get {} d.ports p
def modPort (d : Dev) (p : Nat) (f : Port → Port) : Dev := { d with ports := Tbl.modify {} d.ports p f }
def tree (d : Dev) (t : Nat) : Tree := Tbl.get {} d.trees t
def modTree (d : Dev) (t : Nat) (f : Tree → Tree) : Dev := { d with trees := Tbl.modify {} d.trees t f }
def adder (d : Dev) (p : Nat) : List AEntry := Tbl.get [] d.adders p
def setAdder (d : Dev) (p : Nat) (es : List AEntry) : Dev := { d with adders := Tbl.set [] d.adders p es }

def emit (d : Dev) (o : Out) : Dev := { d with out := d.out ++ [o] }
def report (d : Dev) (r : Report) : Dev := { d with reports := d.reports ++ [r] }

/-- Apply an operation for each item of a list, in order. -/
def each {α : Type} (d : Dev) (xs : List α) (f : Dev → α → Dev) : Dev := xs.foldl f d

/-- The first item of a list that answers, with what it answers. -/
def firstSome {α β : Type} (xs : List α) (f : α → Option β) : Option β :=
  match xs with
  | [] => none
  | x :: r => match f x with
    | some y => some y
    | none => firstSome r f

/-- Refuse with `c` when `b` holds; checks are taken in order. -/
def check (b : Bool) (c : Sc) : Option Sc := if b then some c else none

/-! ### Functions and interrupts (R430 to R436) -/

/-- The vector's entry of the MSI-X table: an entry is masked at reset, as the base specification requires (log 12). -/
def msixEntry (f : Fn) (v : Nat) : BitVec 128 := Tbl.get (1#128 <<< 96) f.table v
def vecMasked (f : Fn) (v : Nat) : Bool := f.fnMask || (msixEntry f v).getLsbD 96

/-- A message that falls due on a vector (R436). -/
def sendMsix (d : Dev) (p n v : Nat) : Dev :=
  let f := fn d p n
  if !f.msixEn then d
  else if vecMasked f v || !f.busMaster || f.d3 then
    modFn d p n (fun f => if f.pend.contains v then f else { f with pend := f.pend ++ [v] })
  else emit d (.msix p n v)

/-- Send the pending messages that may now go (R436). -/
def flushPend (d : Dev) (p n : Nat) : Dev :=
  let f := fn d p n
  if f.msixEn && f.busMaster && !f.d3 then
    let go := f.pend.filter (fun v => !vecMasked f v)
    let d := modFn d p n (fun f => { f with pend := f.pend.filter (fun v => !go.contains v) })
    each d go (fun d v => emit d (.msix p n v))
  else d

/-- The status condition of R431. -/
def statusCond (f : Fn) : Bool :=
  bit f.intCtrl 63 && ((f.devChange && bit f.intCtrl 2) || (f.attachDone && bit f.intCtrl 1) || (f.wrDrop && bit f.intCtrl 0))

def fnVec (f : Fn) : Nat := fld f.intCtrl 62 52

/-- Change a function and send the status message of R431; `wrote` marks a host write that completes. -/
def updFn (d : Dev) (p n : Nat) (wrote : Bool) (g : Fn → Fn) : Dev :=
  let was := statusCond (fn d p n)
  let d := modFn d p n g
  let f := fn d p n
  if statusCond f && (wrote || !was) then sendMsix d p n (fnVec f) else d

def setWrDrop (d : Dev) (p n : Nat) : Dev :=
  updFn d p n false (fun f => { f with wrDrop := true, wrDropCnt := inc f.wrDropCnt })
def setAttachDone (d : Dev) (p n : Nat) : Dev :=
  updFn d p n false (fun f => { f with attachDone := true, attachCnt := inc f.attachCnt })
/-- `DEV_CHANGE` sets on every function (R430). -/
def setDevChange (d : Dev) : Dev :=
  each d (allFns d) (fun d q => updFn d q.1 q.2 false (fun f => { f with devChange := true, devChangeCnt := inc f.devChangeCnt }))

/-- `ATTACH_OK`: attach doorbells are served outside BOOT (R339, Table 14-5). -/
def attachOk (d : Dev) : Bool := d.dstate ≠ .boot && d.dstate ≠ .off

def attachedCount (d : Dev) (p n : Nat) : Nat :=
  (d.mbx.filter (fun q => match q.2 with | some m => m.port == p && m.fn == n | none => false)).length

/-- `FN_STATUS` (Table 14-5). -/
def fnStatus (d : Dev) (p n : Nat) : DWord :=
  let f := fn d p n
  put 64 60 d.dstate.code ||| put 64 58 d.time.tstate.code ||| put 64 52 (kennelOfFn n) ||| putB 64 51 (attachOk d)
    ||| put 64 38 (attachedCount d p n) ||| putB 64 2 f.devChange ||| putB 64 1 f.attachDone ||| putB 64 0 f.wrDrop

/-! ### Rings, replies and events (R344, R365 to R368) -/

/-- PHASE of the entry of ordinal `count`: 1 on the first pass, 0 on the second (R344). -/
def phase (count log : Nat) : Nat := if count / 2 ^ log % 2 = 0 then 1 else 0

/-- v2.6 reports SC_INTEGRITY as SC_DENIED (Table 11-2). -/
def scFor (m : Mbx) (c : Sc) : Sc := if m.version = 0x26 && c = .integrity then .denied else c

/-- Signal a ring's vector for an entry just written: at once with `COAL` 0, else when its interval ends (R368). -/
def signalCq (d : Dev) (m : Nat) (x : Mbx) : Dev :=
  if x.coal = 0 then sendMsix d x.port x.fn x.cqVec
  else modMbx d m (fun x => { x with cqDue := some (x.cqDue.getD d.eclk) })
def signalEq (d : Dev) (m : Nat) (x : Mbx) : Dev :=
  if x.coal = 0 then sendMsix d x.port x.fn x.eqVec
  else modMbx d m (fun x => { x with eqDue := some (x.eqDue.getD d.eclk) })

/-- An event of Table 11-13: `kennel` is 0 for the device, `all` marks the events that go to every mailbox. -/
structure Ev where
  code : Nat
  cls : Nat
  since : Nat := 0x26
  status : Sc := .ok
  kennel : Nat := 0
  all : Bool := false
  d0 : DWord := 0
  d1 : DWord := 0
deriving DecidableEq, Repr

/-- The entry of Table 11-12. -/
def eventEntry (d : Dev) (x : Mbx) (e : Ev) : BitVec 256 :=
  put 256 255 (phase x.eqCount x.eqLog) ||| put 256 232 e.code ||| put 256 224 (scFor x e.status).code
    ||| put 256 218 e.kennel ||| put 256 208 d.dstate.code ||| put 256 192 x.evSeq ||| put 256 128 (beatNow d)
    ||| (e.d1.setWidth 256 <<< 64) ||| e.d0.setWidth 256

/-- Write one event entry into mailbox m's ring. -/
def writeEvent (d : Dev) (m : Nat) (e : Ev) : Dev :=
  match mbx d m with
  | none => d
  | some x =>
    let d := emit d (.event m (x.eqCount % 2 ^ x.eqLog) (eventEntry d x e))
    let d := setMbx d m (some { x with eqCount := x.eqCount + 1, eqUsed := x.eqUsed + 1, evSeq := (x.evSeq + 1) % 2 ^ 16 })
    signalEq d m x

def eqFree (x : Mbx) : Nat := 2 ^ x.eqLog - x.eqUsed

def evtLost (n : Nat) : Ev := { code := 0x0002, cls := 0, d0 := BitVec.ofNat 64 n }

/-- Write the count of lost events (R367). -/
def writeLost (d : Dev) (m : Nat) : Dev :=
  match mbx d m with
  | none => d
  | some x => modMbx (writeEvent d m (evtLost x.lost)) m (fun x => { x with lost := 0 })

/-- Deliver an event to one mailbox: it never waits, a full ring drops and counts it, and `EVT_LOST` goes before the
next event once two entries are free (R367). -/
def postEvent (d : Dev) (m : Nat) (e : Ev) : Dev :=
  match mbx d m with
  | none => d
  | some x =>
    if eqFree x < (if x.lost = 0 then 1 else 2) then modMbx d m (fun x => { x with lost := x.lost + 1 })
    else writeEvent (if x.lost = 0 then d else writeLost d m) m e

/-- A mailbox receives an event that is addressed to it, that its version knows and that its mask enables (R366, R368,
Table 11-2). -/
def wants (x : Mbx) (e : Ev) : Bool :=
  (e.all || x.kennel == 0 || (e.kennel != 0 && e.kennel == x.kennel)) && e.since ≤ x.version
    && (e.cls == 0 || x.version == 0x26 || bit x.evMask e.cls)

/-- Raise an event (R366). -/
def raise (d : Dev) (e : Ev) : Dev :=
  each d (d.mbx.keys) (fun d m => match mbx d m with
    | some x => if wants x e then postEvent d m e else d
    | none => d)

def evMbxError (cause : Nat) (db : DWord) : Ev := { code := 0x0001, cls := 0, d0 := BitVec.ofNat 64 cause, d1 := db }
def evHostLost (m cause : Nat) : Ev := { code := 0x0003, cls := 1, d0 := BitVec.ofNat 64 m, d1 := BitVec.ofNat 64 cause }
def evDevState (old new : DState) (cause : DWord) : Ev :=
  { code := 0x0010, cls := 1, all := true, d0 := put 64 0 new.code ||| put 64 8 old.code, d1 := cause }
def evTaskState (k old new : Nat) (sc : Sc) (step : Nat) : Ev :=
  { code := 0x0020, cls := 2, status := sc, kennel := k, d0 := put 64 0 new ||| put 64 8 old ||| put 64 16 sc.code, d1 := BitVec.ofNat 64 step }
def evTaskReplay (k m step : Nat) : Ev := { code := 0x0021, cls := 2, kennel := k, d0 := BitVec.ofNat 64 m, d1 := BitVec.ofNat 64 step }
def evTaskStall (k beats cls : Nat) : Ev :=
  { code := 0x0022, cls := 2, since := 0x30, kennel := k, d0 := BitVec.ofNat 64 beats, d1 := BitVec.ofNat 64 cls }
def evBatchReq (k step mb : Nat) : Ev := { code := 0x0030, cls := 3, kennel := k, d0 := BitVec.ofNat 64 step, d1 := BitVec.ofNat 64 mb }
def evBatchRelease (k step : Nat) : Ev := { code := 0x0031, cls := 3, kennel := k, d0 := BitVec.ofNat 64 step }
def evMemPlan (k bytes off : Nat) : Ev := { code := 0x0040, cls := 4, since := 0x30, kennel := k, d0 := BitVec.ofNat 64 bytes, d1 := BitVec.ofNat 64 off }
def evMemHigh (k bytes off : Nat) : Ev := { code := 0x0041, cls := 4, since := 0x30, kennel := k, d0 := BitVec.ofNat 64 bytes, d1 := BitVec.ofNat 64 off }
def evMemRetire (mdie far ix : Nat) : Ev := { code := 0x0042, cls := 4, since := 0x30, d0 := put 64 0 mdie ||| put 64 2 far ||| put 64 32 ix }
def evUpdPoison (k step n : Nat) : Ev := { code := 0x0050, cls := 5, since := 0x30, kennel := k, d0 := BitVec.ofNat 64 step, d1 := BitVec.ofNat 64 n }
def evUpdSkip (k step : Nat) : Ev := { code := 0x0051, cls := 5, since := 0x30, kennel := k, d0 := BitVec.ofNat 64 step }
def evQuotaCut (k code : Nat) (d1 : DWord) : Ev := { code := 0x0060, cls := 6, since := 0x34, kennel := k, d0 := BitVec.ofNat 64 code, d1 := d1 }
def evLinkState (p st cause peer : Nat) : Ev :=
  { code := 0x0070, cls := 7, d0 := put 64 0 p ||| put 64 8 st ||| put 64 16 cause, d1 := BitVec.ofNat 64 peer }
def evLinkDegraded (p : Nat) (ratio : Word) : Ev := { code := 0x0071, cls := 7, since := 0x30, d0 := BitVec.ofNat 64 p, d1 := ratio.setWidth 64 }
def evTimeState (old new : TState) (off : Int) : Ev :=
  { code := 0x0080, cls := 8, all := true, d0 := put 64 0 new.code ||| put 64 8 old.code, d1 := BitVec.ofInt 64 off }
def evPowerLimit (d0 d1 : DWord) : Ev := { code := 0x0090, cls := 9, since := 0x30, d0 := d0, d1 := d1 }
def evSecurity (u cause : Nat) : Ev := { code := 0x00A0, cls := 10, since := 0x31, d0 := BitVec.ofNat 64 u, d1 := BitVec.ofNat 64 cause }
def evEpoch (num : Nat) (committed rolled : Bool) : Ev :=
  { code := 0x00B0, cls := 11, d0 := BitVec.ofNat 64 num, d1 := putB 64 0 committed ||| putB 64 1 rolled }

/-- `TSTATE` of a reply: the task state of a kennel, 0xF for none. -/
def taskCode (d : Dev) (k : Nat) : Nat := match task d k with | some t => t.st.code | none => 0xF

/-- The reply entry of Table 11-4. -/
def replyEntry (d : Dev) (x : Mbx) (r : Req) (c : Sc) (res0 res1 res2 : DWord) : BitVec 256 :=
  put 256 255 (phase x.cqCount x.cqLog) ||| put 256 240 x.sqHead ||| put 256 224 r.tag ||| put 256 208 r.cmd
    ||| put 256 200 (scFor x c).code ||| put 256 196 d.dstate.code ||| put 256 192 (taskCode d x.kennel)
    ||| (res2.setWidth 256 <<< 128) ||| (res1.setWidth 256 <<< 64) ||| res0.setWidth 256

/-- Write the reply of the request in progress of mailbox m; the request is then no longer in progress (R344, R346). -/
def reply (d : Dev) (m : Nat) (c : Sc) (res0 res1 res2 : DWord) : Dev :=
  match mbx d m with
  | none => d
  | some x =>
    match x.req with
    | none => d
    | some r =>
      let d := emit d (.reply m (x.cqCount % 2 ^ x.cqLog) (replyEntry d x r c res0 res1 res2))
      let d := setMbx d m (some { x with cqCount := x.cqCount + 1, cqUsed := x.cqUsed + 1, req := none })
      signalCq d m x

/-! ### Detaching (R350) -/

/-- End a mailbox: its number becomes free 1 ms later, its SPDM sessions end (R392) and its hold on an image slot stays
until its limit. A forced detach raises `HOST_LOST`. -/
def detach (d : Dev) (m cause : Nat) (forced : Bool) : Dev :=
  match mbx d m with
  | none => d
  | some _ =>
    let d := setMbx d m none
    let d := { d with mbxFreed := Tbl.set 0 d.mbxFreed m (d.eclk + 1), sessions := d.sessions.filter (fun q => q.2 != m), handshakes := d.handshakes.filter (fun q => q.2 != m) }
    if forced then raise d (evHostLost m cause) else d

/-- Detach every mailbox that satisfies a test, in ascending number. -/
def detachWhere (d : Dev) (cause : Nat) (forced : Bool) (p : Mbx → Bool) : Dev :=
  each d d.mbx.keys (fun d m => match mbx d m with
    | some x => if p x then detach d m cause forced else d
    | none => d)

/-- Forced detach of the mailboxes of a function, with an attach in progress lost (R426). -/
def detachFn (d : Dev) (p n cause : Nat) : Dev :=
  modFn (detachWhere d cause true (fun x => x.port == p && x.fn == n)) p n (fun f => { f with attaching := none })

/-! ### Device and task states (R352, R353) -/

/-- Enter a device state: every function's `DEV_CHANGE` and a `DEV_STATE` event follow (R430, R366). -/
def setDState (d : Dev) (n : DState) (cause : DWord) : Dev :=
  if d.dstate = n then d
  else raise (setDevChange { d with dstate := n }) (evDevState d.dstate n cause)

def anyTask (d : Dev) (p : Task → Bool) : Bool := d.tasks.any (fun q => match q.2 with | some t => p t | none => false)
def taskKeys (d : Dev) (p : Task → Bool) : List Nat :=
  (d.tasks.filter (fun q => match q.2 with | some t => p t | none => false)).map (·.1)

/-- The transitions of Table 11-6 that follow from the task states. -/
def followTasks (d : Dev) (cause : DWord) : Dev :=
  let active := anyTask d (fun t => t.st.active)
  let rec' := anyTask d (fun t => t.st == .recovering)
  match d.dstate with
  | .ready => if active then setDState d (if rec' then .recovering else .running) cause else d
  | .running => if rec' then setDState d .recovering cause else if active then d else setDState d .ready cause
  | .recovering => if rec' then d else if active then setDState d .running cause else setDState d .ready cause
  | .draining => if active then d else setDState d (if d.drainToConfig then .config else .ready) cause
  | _ => d

/-- The step in progress of a task (R353). -/
def stepInProgress (t : Task) : Nat := match t.lastUpd with | some s => s + 1 | none => t.step0

/-- Move a task to a state: `TASK_STATE` and the device state follow. `sc` is the ending status on entry to ENDED. -/
def moveTask (d : Dev) (k : Nat) (st : TaskState) (sc : Sc) (cause : DWord) : Dev :=
  match task d k with
  | none => d
  | some t =>
    let d := setTask d k (some { t with st := st, endSt := if st = .ended then sc else t.endSt })
    followTasks (raise d (evTaskState k t.st.code st.code sc (stepInProgress t))) cause

/-- Remove a task; the state after it reads as 0xF (R469). -/
def dropTask (d : Dev) (k : Nat) (sc : Sc) (cause : DWord) : Dev :=
  match task d k with
  | none => d
  | some t => followTasks (raise (setTask d k none) (evTaskState k t.st.code 0xF sc (stepInProgress t))) cause

/-- Whether a kennel runs a task on this module, for the faults of R260 (R371). -/
def runsTask (d : Dev) (k : Nat) : Bool := match task d k with | some t => t.st.active | none => false

/-- Report a task fault where the kennel runs a task. -/
def taskFault (d : Dev) (k : Nat) (kind : FaultKind) : Dev := if runsTask d k then report d (.fault k kind) else d
def taskEnding (d : Dev) (k : Nat) (sc : Sc) : Dev := if runsTask d k then report d (.ending k sc) else d

/-- A fresh value for what the spec leaves open (log 2). -/
def takeFresh (d : Dev) : Nat × Dev := (d.fresh, { d with fresh := d.fresh + 1 })

end Sys2Proof.Machine
end

