-- ==== Sys2Proof/Machine/LinkOps.lean ====
section
/-! DEFINITION. The link layer of a Zholin port: bring-up, sequence and retry, credits, the choice of a flit slot, and
the checks of a received flit (R249 to R268). -/

namespace Sys2Proof.Machine

/-- Nanoseconds-free LCLK to ECLK: 1.5 / 1.328125 = 96 / 85, rounded up. -/
def lclk (n : Nat) : Nat := (96 * n + 84) / 85

/-- The kennel is enabled on the port: its `KMASK` bit, and a current link key (R266, R383). Bit 0 always reads 1. -/
def portAllows (d : Dev) (p k : Nat) : Bool := (k == 0 || bit (port d p).kmask k) && (kennel d k).cur.isSome

def isUp (d : Dev) (p : Nat) : Bool := (port d p).st == .up

def listSet (l : List Nat) (i v : Nat) : List Nat := l.mapIdx (fun j x => if j = i then v else x)

/-! ### States of the port -/

/-- Tasks that have a tree or a route through the port (R250). -/
def tasksThrough (d : Dev) (p : Nat) : List Nat :=
  (taskKeys d (fun t => t.st.active)).filter (fun k =>
    d.trees.any (fun q => q.2.en && q.2.kennel == k &&
      ((!q.2.root && q.2.upPort == p) || Nat.testBit q.2.down p || (!q.2.mcast && q.2.adder == p)))
    || (match task d k with
        | some t => t.roster.any (fun m => Tbl.get 0 d.epochRun.routes m == 16 + p)
        | none => false))

/-- The port leaves UP: its neighbour stops barking, and the tasks through the port meet a fault (R250, R331). -/
def leaveUp (d : Dev) (p : Nat) : Dev :=
  let x := port d p
  let d := each d (tasksThrough d p) (fun d k => taskFault d k .task)
  modPort (report d (.neighbour x.peerMod)) p (fun x => { x with bark := { x.bark with alive := false } })

/-- Change the state of a port and raise `LINK_STATE` (Table 11-13). -/
def setPort (d : Dev) (p : Nat) (st : PState) (cause : Nat) : Dev :=
  let was := port d p
  let d := if was.st = .up && st ≠ .up then leaveUp d p else d
  let d := modPort d p (fun x => { x with st := st, cause := cause, since := d.eclk, esc := none })
  if was.st = st then d else raise d (evLinkState p st.code cause was.peerMod)

/-- A port enters TRAINING anew. -/
def toTraining (d : Dev) (p : Nat) : Dev := modPort (setPort d p .training 0) p (fun x => { x with version := 0 })

/-- A try of bring-up has failed: back to TRAINING, or FAILED with `cause` after three (Table 8-2). -/
def failTry (d : Dev) (p cause : Nat) : Dev :=
  let d := modPort d p (fun x => { x with tries := x.tries + 1 })
  if 3 ≤ (port d p).tries then setPort d p .failed cause else toTraining d p

/-- A CTRL flit other than NEG and NEG_DONE, or a BARK: what R261 authenticates under kennel 0's key. -/
def needsKey0 (f : Flit) : Bool := f.ftype == 2 || (f.ftype == 1 && fld f.tsf 63 56 != 1 && fld f.tsf 63 56 != 2)

def isTcred (f : Flit) : Bool := f.ftype == 1 && fld f.tsf 63 56 == 3
def isNegDone (f : Flit) : Bool := f.ftype == 1 && fld f.tsf 63 56 == 2

/-- The receive buffers of port p begin anew: no flit that waits to be forwarded holds one (R258, R285). -/
def freeBuffers (d : Dev) (p : Nat) : Dev :=
  each d (List.range 16) (fun d q => modPort d q (fun x => { x with link := { x.link with q2 := x.link.q2.map (fun f => if f.origin.any (fun o => o.1 == p) then { f with origin := none } else f) } }))

/-- Entry to NEGOTIATING: the link layer starts afresh and the link epoch increments (R255, R258, R261, R385). What waits to be sent
stays; of TC0 only tree credits, for trees that were enabled before the port came up (R270). -/
def toNegotiating (d : Dev) (p : Nat) : Dev :=
  let d := freeBuffers (setPort d p .negotiating 0) p
  let ks := (List.range 64).filter (fun k => k != 0 && bit (port d p).kmask k && (kennel d k).cur.isSome)
  let full := ks.filter (fun k => Tbl.get 0 (port d p).kEpochs k == 255)
  let d := modPort d p (fun x => { x with
    link := { ackAt := d.eclk, q0 := x.link.q0.filter isTcred, q1 := x.link.q1, q2 := x.link.q2, q3 := x.link.q3 }, epoch := (x.epoch + 1) % 256, nonces := [],
    kEpochs := ks.foldl (fun t k => Tbl.set 0 t k (min 256 (Tbl.get 0 t k + 1))) x.kEpochs })
  each d full (fun d k => raise d { evSecurity p 2 with kennel := k })

/-- Both NEG_DONE agree: the port enters UP (R264) and its windows start (R387). -/
def toUp (d : Dev) (p v : Nat) : Dev :=
  let d := modPort d p (fun x => { x with version := v, slot := 0, strictUsed := [], bark := { alive := true } })
  setPort d p .up 0

/-! ### Sending -/

def queueOf (l : Link) (c : Nat) : List Flit := match c with | 0 => l.q0 | 1 => l.q1 | 2 => l.q2 | _ => l.q3
def setQueue (l : Link) (c : Nat) (q : List Flit) : Link :=
  match c with
  | 0 => { l with q0 := q }
  | 1 => { l with q1 := q }
  | 2 => { l with q2 := q }
  | _ => { l with q3 := q }

/-- Make a flit ready to send. NEG and NEG_DONE are of a port in NEGOTIATING or UP, and a bark or an RCV message of one that is UP while
kennel 0 has its key (R258, R263); tree credits and the other classes wait until they can be sent. -/
def sendFlit (d : Dev) (p : Nat) (f : Flit) : Dev :=
  let ok := if f.tc != 0 || isTcred f then true
            else if needsKey0 f then isUp d p && (kennel d 0).cur.isSome
            else (port d p).st == .negotiating || isUp d p
  if ok then modPort d p (fun x => { x with link := setQueue x.link f.tc (queueOf x.link f.tc ++ [f]) }) else d

/-- `ACK` to send: the last sequenced flit received in order. -/
def ackOf (x : Port) : Nat := x.link.rxSeq

def hdrWord (f : Flit) (seq ack : Nat) : DWord :=
  put 64 28 f.ftype ||| put 64 26 f.tc ||| put 64 20 f.ktag ||| put 64 10 seq ||| put 64 0 ack

/-- Receive buffers of port p that hold a multicast flit: its data waits for the pops of its take-up, or a forward of it waits to be
accepted, that is sent (R194, R285, log 104). -/
def heldFlits (d : Dev) (p : Nat) : Nat :=
  let data := (Tbl.get [] d.takeUps p).flatMap (fun t => t.data.map (fun z => z.2.2.2))
  let waits := (List.range 16).flatMap (fun q => (port d q).link.q2.filterMap (fun f => match f.origin with | some o => if o.1 = p then some o.2 else none | none => none))
  ((data ++ waits).foldl (fun l b => if l.contains b then l else l ++ [b]) []).length

/-- The IDLE of a port: cumulative credit returns and `NAK` (R257, Table 8-5). `held` are the multicast flits not yet freed. -/
def idleFlit (x : Port) (held : Nat) : Flit :=
  { ftype := 0, tc := 0, ktag := 0,
    tsf := putB 64 63 x.link.nak ||| put 64 24 (x.link.freed.getD 3 0 % 256) ||| put 64 16 ((x.link.freed.getD 2 0 - held) % 256)
      ||| put 64 8 (x.link.freed.getD 1 0 % 256) ||| put 64 0 (x.link.freed.getD 0 0 % 256) }

def sendIdle (d : Dev) (p : Nat) : Dev :=
  let x := port d p
  let f := idleFlit x (heldFlits d p)
  let d := emit d (.flit p 0 (hdrWord f 0 (ackOf x)) f.tsf [])
  modPort d p (fun x => { x with link := { x.link with sinceIdle := 0, nakSlots := 0 } })

/-- An XSUM tree's flit: what the Strict share counts (R387). -/
def isStrict (d : Dev) (f : Flit) : Bool :=
  (f.ftype == 3 || f.ftype == 4) && fld f.tsf 51 48 == 2 && (tree d (fld f.tsf 63 52)).opc == 2

/-- A flit that its kennel may send on the port now (R385, R387). -/
def eligible (d : Dev) (p : Nat) (f : Flit) : Bool :=
  portAllows d p f.ktag && Tbl.get 0 (port d p).kEpochs f.ktag < 256
    && (!isStrict d f || Tbl.get 0 (port d p).strictUsed f.ktag < (kennel d f.ktag).quota.strict)

/-- The kennel that a class serves next: the first after `last` in ascending order, cyclically. -/
def nextKennel (last : Nat) (ks : List Nat) : Option Nat :=
  match (List.range 64).find? (fun k => k > last && ks.contains k) with
  | some k => some k
  | none => (List.range 64).find? (fun k => ks.contains k)

/-- The flit that a class would send in this slot, with its place in the queue. RED_X flits follow their RED flit with
no other TC1 flit between (R275). -/
def candidate (d : Dev) (p c : Nat) : Option (Nat × Flit) :=
  let l := (port d p).link
  let q := queueOf l c
  let pick (k : Nat) := (q.zipIdx.find? (fun z => z.1.ktag == k && eligible d p z.1)).map (fun z => (z.2, z.1))
  let owed : Option (Flit × Nat) := match l.held with
    | some h => if c = 1 then q.zipIdx.find? (fun z => z.1.ftype == 4 && z.1.tsf == h.tsf && z.1.ktag == h.ktag) else none
    | none => none
  match owed with
  | some z => if eligible d p z.1 then some (z.2, z.1) else none
  | none =>
    match nextKennel (l.rr.getD (c - 1) 0) ((q.filter (fun f => eligible d p f && f.ftype != 4)).map Flit.ktag) with
    | some k => pick k
    | none => none

def removeAt {α : Type} (l : List α) (i : Nat) : List α := (l.zipIdx.filter (fun z => z.2 != i)).map (·.1)

/-- Send the flit at place i of class c: a sequence number, a place in the replay buffer, a credit (R255, R258, R261). -/
def sendSeq (d : Dev) (p c i : Nat) (f : Flit) : Dev :=
  let x := port d p
  let seq := x.link.nextSeq
  let d := emit d (.flit p c (hdrWord f seq (ackOf x)) f.tsf f.pay)
  modPort d p (fun x => { x with
    cnt := { x.cnt with tx := inc x.cnt.tx }
    nonces := Tbl.modify 0 x.nonces f.ktag (· + 1)
    strictUsed := if isStrict d f then Tbl.modify 0 x.strictUsed f.ktag (· + 1) else x.strictUsed
    link := { setQueue x.link c (removeAt (queueOf x.link c) i) with
      nextSeq := (seq + 1) % 1024
      unacked := x.link.unacked ++ [(seq, f)]
      ackAt := if x.link.unacked.isEmpty then d.eclk else x.link.ackAt
      credit := listSet x.link.credit c (x.link.credit.getD c 0 - 1)
      sinceIdle := x.link.sinceIdle + 1
      doneSent := x.link.doneSent || isNegDone f
      rr := if c = 0 then x.link.rr else listSet x.link.rr (c - 1) f.ktag
      held := if c ≠ 1 then x.link.held else if f.ftype = 3 then some f else x.link.held } })

/-- The first class in weighted turn among those that have a flit and credit (R259). Where every class with a flit has
used its weight, a new round begins. -/
def wrrClass (d : Dev) (p : Nat) : Option (Nat × Nat × Flit × List Nat) :=
  let l := (port d p).link
  let ready := [1, 2, 3].filterMap (fun c =>
    if l.credit.getD c 0 = 0 then none else (candidate d p c).map (fun z => (c, z.1, z.2)))
  match ready.find? (fun z => l.wrr.getD (z.1 - 1) 0 != 0) with
  | some z => some (z.1, z.2.1, z.2.2, listSet l.wrr (z.1 - 1) (l.wrr.getD (z.1 - 1) 0 - 1))
  | none =>
    match ready with
    | z :: _ => some (z.1, z.2.1, z.2.2, listSet [4, 3, 1] (z.1 - 1) ([4, 3, 1].getD (z.1 - 1) 0 - 1))
    | [] => none

/-- Note an offset of a beat, with the last eight. -/
def noteOfs (l : List (Nat × Nat)) (key ofs : Nat) : List (Nat × Nat) := ((l.filter (fun z => z.1 != key)) ++ [(key, ofs)]).reverse.take 8 |>.reverse

/-- The offset of a beat; 0xFFFF where there is none. -/
def ofsOf (l : List (Nat × Nat)) (key : Nat) : Nat := ((l.find? (fun z => z.1 == key)).map (·.2)).getD 0xFFFF

/-- Beat of an own bark plus 4, from its 12 bits. -/
def ownBeatKey (d : Dev) (b : Nat) : Nat := beatNow d + 4 - (beatNow d % 4096 + 4096 - b) % 4096

/-- TXOFS is computed when a bark leaves (R330): 0xFFFF past 8,191.875 ns. -/
def stampBark (f : Flit) (ofs : Nat) : Flit :=
  if f.ftype = 2 then { f with tsf := (f.tsf &&& ~~~(mask 64 31 16)) ||| put 64 16 (min ofs 0xFFFF) } else f

/-- The TC0 flit that goes next, with its place: one that needs kennel 0's key waits for UP and the key (R258, R259, R263). -/
def ctrlNext (d : Dev) (p : Nat) : Option (Nat × Flit) :=
  let ok (f : Flit) : Bool := !needsKey0 f || (isUp d p && (kennel d 0).cur.isSome)
  if (port d p).link.credit.getD 0 0 = 0 then none
  else ((port d p).link.q0.zipIdx.find? (fun z => ok z.1)).map (fun z => (z.2, z.1))

/-- One flit slot of the port's sender (R259). `ofs` is the slot's departure after the beat boundary in 1/8 ns. -/
def flitSlot (d : Dev) (p ofs : Nat) : Dev :=
  let x := port d p
  let l := x.link
  if x.st ≠ .up && x.st ≠ .negotiating then d
  else
    let d := modPort d p (fun x => { x with slot := x.slot + 1, link := { x.link with nakSlots := if x.link.nak then x.link.nakSlots + 1 else 0 } })
    match l.resend with
    | s :: r =>
      modPort (emit d (.resend p s)) p (fun x => { x with link := { x.link with resend := r, sinceIdle := x.link.sinceIdle + 1 } })
    | [] =>
      if l.sinceIdle ≥ 63 || (l.nak && l.nakSlots ≥ 7) then sendIdle d p
      else if l.unacked.length ≥ 256 then sendIdle d p
      else
        match ctrlNext d p with
        | some (i, f) =>
          let f := stampBark f ofs
          let d := if f.ftype = 2 then modPort d p (fun x => { x with bark := { x.bark with tx := noteOfs x.bark.tx (ownBeatKey d (fld f.tsf 63 52)) (min ofs 0xFFFF) } }) else d
          sendSeq d p 0 i f
        | none =>
          if x.st = .up then
            match wrrClass d p with
            | some (c, i, f, w) => sendSeq (modPort d p (fun x => { x with link := { x.link with wrr := w } })) p c i f
            | none => sendIdle d p
          else sendIdle d p

/-! ### Retry (R255, R256) -/

/-- Eight replays without an advance of `ACK` exhaust the retry: back to TRAINING (R250). -/
def startReplay (d : Dev) (p : Nat) : Dev :=
  let l := (port d p).link
  if l.unacked.isEmpty then d
  else if l.replays ≥ 8 then toTraining d p
  else modPort d p (fun x => { x with retryF := true, cnt := { x.cnt with retry := inc x.cnt.retry }
                                      link := { x.link with resend := x.link.unacked.map (·.1), replays := x.link.replays + 1, ackAt := d.eclk } })

/-- An `ACK` that covers unacknowledged flits frees them from the replay buffer. -/
def takeAck (d : Dev) (p a : Nat) : Dev :=
  let l := (port d p).link
  if l.unacked.any (fun z => z.1 == a) then
    let rest := (l.unacked.dropWhile (fun z => z.1 != a)).drop 1
    modPort d p (fun x => { x with link := { x.link with unacked := rest, ackAt := d.eclk, replays := 0, resend := x.link.resend.filter (fun s => rest.any (fun z => z.1 == s)) } })
  else d

/-- `NAK` starts a replay, but for one that repeats the same `ACK` within 512 LCLK (R255). -/
def takeNak (d : Dev) (p a : Nat) : Dev :=
  match (port d p).link.nakSeen with
  | some (a', t) => if a' = a && !due d t (lclk 512) then d
                    else startReplay (modPort d p (fun x => { x with link := { x.link with nakSeen := some (a, d.eclk) } })) p
  | none => startReplay (modPort d p (fun x => { x with link := { x.link with nakSeen := some (a, d.eclk) } })) p

/-- `CREDn` counts flits freed modulo 256; each increase returns a credit (R258). -/
def takeCredits (d : Dev) (p : Nat) (tsf : DWord) : Dev :=
  let c := [fld tsf 7 0, fld tsf 15 8, fld tsf 23 16, fld tsf 31 24]
  modPort d p (fun x => { x with link := { x.link with
    credit := x.link.credit.mapIdx (fun i v => v + (c.getD i 0 + 256 - x.link.credSeen.getD i 0) % 256), credSeen := c } })

def countReject (d : Dev) (p : Nat) : Dev := modPort d p (fun x => { x with cnt := { x.cnt with reject := inc x.cnt.reject } })

/-- A rejected flit: counted, flagged, and a fault for a kennel that runs a task (R260). -/
def rejectFlit (d : Dev) (p k : Nat) : Dev :=
  taskFault (modPort (countReject d p) p (fun x => { x with rejected := true })) k .task

/-- A tag failure: a security fault for the kennel and the port to FAILED with cause 7 (R250, R262). -/
def tagFailure (d : Dev) (p k : Nat) : Dev :=
  taskFault (setPort (raise (countReject d p) { evSecurity p 1 with kennel := k }) p .failed 7) k .task

/-- Reception of any flit by the link layer: FEC and CRC (R254), `ACK`, and for a sequenced flit its order (R255), its
buffer and credit (R258). Answers the flit when it is accepted. -/
def linkReceive (d : Dev) (p : Nat) (r : RxFlit) : Dev × Option Flit :=
  let x := port d p
  let r := { r with flit := { r.flit with origin := none } }
  if x.st ≠ .up && x.st ≠ .negotiating then (d, none)
  else
    let d := modPort d p (fun x => { x with cnt := { x.cnt with
      fecUcw := x.cnt.fecUcw + BitVec.ofNat 32 r.ucw, fecCsym := x.cnt.fecCsym + BitVec.ofNat 32 r.csym } })
    let discard (d : Dev) := modPort d p (fun x => { x with bark := { x.bark with discardAt := some d.eclk } })
    if !r.intact then (discard (modPort d p (fun x => { x with cnt := { x.cnt with crc := inc x.cnt.crc } })), none)
    else
      let d := takeAck d p r.ack
      if r.flit.ftype = 0 then (d, some r.flit)
      else if r.seq = (x.link.rxSeq + 1) % 1024 then
        (modPort d p (fun x => { x with cnt := { x.cnt with rx := inc x.cnt.rx }
                                        link := { x.link with rxSeq := r.seq, nak := false, nakSlots := 0, freed := listSet x.link.freed r.flit.tc (x.link.freed.getD r.flit.tc 0 + 1) } }),
         some r.flit)
      else (discard (modPort d p (fun x => { x with link := { x.link with nak := true } })), none)

/-- The reserved bits of a type's `TSF` (Table 8-5, Table 13-2). -/
def tsfRsvd (f : Flit) : DWord :=
  match f.ftype with
  | 0 => mask 64 62 32
  | 1 => match fld f.tsf 63 56 with
         | 1 => mask 64 37 0
         | 2 => mask 64 53 0
         | 3 => mask 64 36 0
         | _ => 0
  | 6 => mask 64 23 0
  | _ => 0

/-- The class that Table 8-5 gives a flit type. -/
def tcOf (ftype : Nat) : Option Nat :=
  match ftype with
  | 0 | 1 | 2 => some 0
  | 3 | 4 => some 1
  | 5 | 7 => some 2
  | 6 => some 3
  | _ => none

/-- Type, class, kennel and reserved bits as R253 demands. -/
def wellFormedFlit (f : Flit) : Bool :=
  tcOf f.ftype == some f.tc && f.tsf &&& tsfRsvd f == 0 && (f.tc != 0 || f.ktag == 0)
    && (f.ftype != 1 || (1 ≤ fld f.tsf 63 56 && fld f.tsf 63 56 ≤ 4))

/-- The checks every accepted flit passes before its own (R253, R258, R260, R262, R263, R385). Answers the flit when
it passes. -/
def rxCheck (d : Dev) (p : Nat) (r : RxFlit) : Dev × Option Flit :=
  match linkReceive d p r with
  | (d, none) => (d, none)
  | (d, some f) =>
    if f.ftype = 0 then (if wellFormedFlit f then (d, some f) else (rejectFlit d p f.ktag, none))
    else if f.tc ≠ 0 && !isUp d p then (modPort (countReject d p) p (fun x => { x with rejected := true }), none)
    else if needsKey0 f && (kennel d 0).cur.isNone then (countReject d p, none)
    else if !wellFormedFlit f then (rejectFlit d p f.ktag, none)
    else if f.tc ≠ 0 then
      if f.ktag = 0 || !portAllows d p f.ktag || Tbl.get 0 (port d p).kEpochs f.ktag ≥ 256 then (rejectFlit d p f.ktag, none)
      else if r.tagOk then (d, some f) else (tagFailure d p f.ktag, none)
    else if needsKey0 f then
      if !r.tagOk then (tagFailure d p 0, none)
      else (d, some f)
    else (d, some f)

/-! ### Messages between neighbours -/

/-- NEG of the port (R264). -/
def negFlit (d : Dev) (p : Nat) : Flit :=
  { ftype := 1, tc := 0, ktag := 0,
    tsf := put 64 56 1 ||| put 64 54 (fld (port d p).cfg 61 60) ||| put 64 42 (d.epochRun.moduleNo % 4096) ||| put 64 38 p }
def negDoneFlit (v : Nat) : Flit := { ftype := 1, tc := 0, ktag := 0, tsf := put 64 56 2 ||| put 64 54 v }
/-- TCRED: `n` tree credits for the contributions of the receiver to tree t (Table 8-5). -/
def tcredFlit (t n : Nat) : Flit := { ftype := 1, tc := 0, ktag := 0, tsf := put 64 56 3 ||| put 64 44 t ||| put 64 37 n }

end Sys2Proof.Machine
end

