-- ==== Sys2Proof/Machine/AdderOps.lean ====
section
/-! DEFINITION. Link adders: contributions, steps, completion and tree credits (R271 to R280). -/

namespace Sys2Proof.Machine

/-- Ports of a mask, ascending. -/
def portsOf (m : Nat) : List Nat := (List.range 16).filter (fun p => Nat.testBit m p)

/-- Expected contributions of an entry: each port of `DOWN_MASK`, and 16 for the local one (R272). -/
def expected (t : Tree) : List Nat := portsOf t.down ++ (if t.localN > 0 then [16] else [])

def isDone (t : Tree) (e : AEntry) : Bool := (expected t).all (fun s => e.got.contains s)

/-- Combination of two values by opcode (Table 8-12, R273, R274). -/
def combineWord (opc : Nat) (a b : Word) : Word :=
  match opc with
  | 1 => fadd a b
  | 3 => fmax a b
  | 4 => fmin a b
  | 5 => a ^^^ b
  | _ => a + b

def combine (opc : Nat) (x y : Chunk) : Chunk :=
  match x, y with
  | .words a, .words b => .words (List.zipWith (combineWord opc) a b)
  | .strict a, .strict b => .strict (List.zipWith Strict.merge a b)
  | x, _ => x

/-- One level of the fixed binary tree: entry 2i with entry 2i + 1, an unpaired last one unchanged (R272). -/
def pairUp (opc : Nat) (l : List Chunk) : List Chunk :=
  match l with
  | a :: b :: r => combine opc a b :: pairUp opc r
  | l => l

/-- Local contributions combined by `CIDX` (R272); 4 levels suffice for 15. -/
def combineLocal (opc : Nat) (l : List Chunk) : Option Chunk :=
  (pairUp opc (pairUp opc (pairUp opc (pairUp opc l)))).head?

/-- The value with low 12 bits `low` nearest to `near`, the later of two equally near (R279). -/
def extendStep (near low : Nat) : Nat :=
  let up := (low + 4096 - near % 4096) % 4096
  if up ≤ 2048 then (near + up) % 2 ^ 48 else (near + 2 ^ 48 - (4096 - up)) % 2 ^ 48

/-- How far a step lies after the open step, modulo 4,096 (R279). -/
def stepAhead (t : Tree) (s : Nat) : Nat := (s + 4096 - t.openStep % 4096) % 4096

/-- `TREE_STATUS` (Table 8-11). -/
def openCount (d : Dev) (tn : Nat) : Nat := ((adder d (tree d tn).adder).filter (fun e => e.tree == tn)).length
def treeStatus (d : Dev) (tn : Nat) : DWord :=
  let t := tree d tn
  putB 64 63 t.stepV ||| put 64 57 (openCount d tn) ||| putB 64 56 t.closing ||| put 64 0 t.openStep

/-- A refused contribution: counted on the port, its credit returned to `src` (R279). -/
def lateContribution (d : Dev) (tn src cidx : Nat) : Dev :=
  let p := if src = 16 then (tree d tn).adder else src
  let d := modPort d p (fun x => { x with lateF := true, cnt := { x.cnt with late := inc x.cnt.late } })
  if src = 16 then modTree d tn (fun t => { t with localCredit := Tbl.modify 0 t.localCredit cidx (· + 1) })
  else sendFlit d src (tcredFlit tn 1)

/-- Credits back to every contributor of an entry that has left (R277). -/
def returnCredits (d : Dev) (tn : Nat) (e : AEntry) : Dev :=
  let d := each d (e.got.filter (· < 16)) (fun d p => sendFlit d p (tcredFlit tn 1))
  modTree d tn (fun t => { t with localCredit := e.locals.foldl (fun c z => Tbl.modify 0 c z.1 (· + 1)) t.localCredit })

/-- TSF of a RED flit of an entry (Table 8-5). -/
def redTsf (t : Tree) (e : AEntry) : DWord :=
  put 64 52 e.tree ||| put 64 48 t.opc ||| put 64 36 e.step ||| put 64 24 e.coll ||| put 64 0 e.elem

/-- Groups of at most five. -/
def fives {α : Type} (fuel : Nat) (l : List α) : List (List α) :=
  match fuel with
  | 0 => []
  | k + 1 => if l.isEmpty then [] else l.take 5 :: fives k (l.drop 5)

/-- The RED flit of a completed entry, and the RED_X flits of its escaped elements (R272, R274, R275). -/
def redFlits (t : Tree) (e : AEntry) : List Flit :=
  match e.acc with
  | none => []
  | some (.words ws) => [{ ftype := 3, tc := 1, ktag := e.kennel, tsf := redTsf t e, pay := ws.flatMap (fun w => leBytes 4 w.toNat) }]
  | some (.strict ss) =>
    let red : Flit := { ftype := 3, tc := 1, ktag := e.kennel, tsf := redTsf t e, pay := ss.flatMap (fun s => leBytes 16 s.wire.1) }
    let esc := (ss.filter (fun s => s.wire.2)).map (fun s => leBytes 48 s.container)
    red :: (fives 4 esc).map (fun g => { ftype := 4, tc := 1, ktag := e.kennel, tsf := redTsf t e, pay := (g.flatten ++ List.replicate (256 - 48 * g.length) 0) })

def escCount (e : AEntry) : Nat :=
  match e.acc with
  | some (.strict ss) => (ss.filter (fun s => s.wire.2)).length
  | _ => 0

/-- An XSUM result whose count differs from `SUBTREE` is never delivered (R276). -/
def countMismatch (t : Tree) (e : AEntry) : Bool :=
  match e.acc with
  | some (.strict ss) => ss.any (fun s => s.count != t.subtree)
  | _ => false

/-- `OPEN_STEP` advances when `CLOSING` is set and no entry of it is left open (R279, log 13). -/
def advanceStep (d : Dev) (tn : Nat) : Dev :=
  let t := tree d tn
  let ahead := ((adder d t.adder).filter (fun e => e.tree == tn && !isDone t e)).map (fun e => stepAhead t e.step)
  if t.closing && !ahead.contains 0 then
    let by' := ahead.foldl (fun a b => if a = 0 then b else min a b) 0
    let n := if by' = 0 then 1 else by'
    modTree d tn (fun t => { t with openStep := (t.openStep + n) % 2 ^ 48, closing := ahead.any (· > n) })
  else d

/-- A flit of an entry that leaves upward. -/
def flitOf (t : Tree) (e : AEntry) (f : Flit) : Bool := (f.ftype == 3 || f.ftype == 4) && f.tsf == redTsf t e && f.ktag == e.kennel

/-- A completed entry leaves: at the root for delivery, else upward while a credit is held; there it frees when the link layer has
accepted its flits (R272, R276, R277). -/
def leaveEntry (d : Dev) (tn : Nat) (e : AEntry) : Dev :=
  let t := tree d tn
  if !isDone t e || e.leaving then d
  else if t.root then
    let d := setAdder d t.adder ((adder d t.adder).filter (fun x => x != e))
    let d := returnCredits d tn e
    if countMismatch t e then taskFault d t.kennel .task else { d with delivered := d.delivered ++ [e] }
  else if t.upCredit = 0 then d
  else
    let d := setAdder d t.adder ((adder d t.adder).map (fun x => if x = e then { x with leaving := true } else x))
    let d := each d (redFlits t e) (fun d f => sendFlit d t.upPort f)
    let d := modPort d t.upPort (fun x => { x with cnt := { x.cnt with esc := x.cnt.esc + BitVec.ofNat 32 (escCount e) } })
    modTree d tn (fun t => { t with upCredit := t.upCredit - 1 })

/-- Entries of a tree whose flits the link layer has accepted, that is sent (log 104), free, and return their contributors' credits (R277). -/
def freeAccepted (d : Dev) (tn : Nat) : Dev :=
  let t := tree d tn
  let gone := (adder d t.adder).filter (fun e => e.tree == tn && e.leaving && !(port d t.upPort).link.q1.any (flitOf t e))
  each d gone (fun d e => returnCredits (setAdder d t.adder ((adder d t.adder).filter (fun x => x != e))) tn e)

/-- Send what waits for a credit toward the parent, in order. -/
def pumpTree (d : Dev) (tn : Nat) : Dev :=
  each d ((adder d (tree d tn).adder).filter (fun e => e.tree == tn)) (fun d e => leaveEntry d tn e)

/-- What became of a contribution. -/
inductive Taken where
  | ok | late | rejected
deriving DecidableEq, Repr

/-- A contribution to tree `tn` from port `src`, or local (16) with its `CIDX` and its full step (R272, R273, R279). -/
def contribute (d : Dev) (tn src cidx step coll elem : Nat) (v : Chunk) : Dev × Taken :=
  let t0 := tree d tn
  let d := if t0.stepV then d
    else modTree d tn (fun t => { t with stepV := true, openStep := if src = 16 then step % 2 ^ 48 else extendStep t.openStep step })
  let t := tree d tn
  let s12 := step % 4096
  let es := adder d t.adder
  let is (e : AEntry) := e.tree == tn && e.step == s12 && e.coll == coll && e.elem == elem
  let old := es.find? is
  let ahead := stepAhead t s12
  let twice := match old with
    | some e => if src = 16 then e.locals.any (fun z => z.1 == cidx) else e.got.contains src
    | none => false
  if twice then (d, .rejected)
  else if ahead ≥ 2048 || (ahead = 0 && t.closing && old.isNone) then (lateContribution d tn src cidx, .late)
  else
    let d := if ahead = 0 then d else modTree d tn (fun t => { t with closing := true })
    let e := old.getD { tree := tn, kennel := t.kennel, step := s12, coll := coll, elem := elem, openBeat := beatNow d, got := [], acc := none }
    let join (e : AEntry) (v : Chunk) : AEntry :=
      { e with got := e.got ++ [src], acc := some (match e.acc with | some a => combine t.opc a v | none => v) }
    let e' :=
      if src = 16 then
        let e := { e with locals := e.locals ++ [(cidx, v)] }
        if e.locals.length < t.localN then e
        else match combineLocal t.opc (((List.range 16).filterMap (fun i => (e.locals.find? (fun z => z.1 == i)).map (·.2)))) with
          | some c => join e c
          | none => e
      else join e v
    let es' := if old.isSome then es.map (fun x => if is x then e' else x) else es ++ [e']
    let d := setAdder d t.adder es'
    (advanceStep (leaveEntry (advanceStep d tn) tn e') tn, .ok)

/-- Adders discard a tree's entries and credits, and RED flits that wait for their RED_X flits (R288). -/
def clearTree (d : Dev) (tn : Nat) : Dev :=
  let t := tree d tn
  let d := each d (List.range 16) (fun d p => modPort d p (fun x => if x.esc.any (fun w => fld w.flit.tsf 63 52 == tn) then { x with esc := none } else x))
  let d := setAdder d t.adder ((adder d t.adder).filter (fun e => e.tree != tn))
  modTree d tn (fun t => { t with upCredit := 0, localCredit := [] })

/-- Clear `EN` of a tree. -/
def disableTree (d : Dev) (tn : Nat) : Dev :=
  modTree (clearTree d tn) tn (fun t => { t with entry := t.entry &&& ~~~(mask 128 127 127) })

/-- Set `EN` of a tree with its other fields kept: `STEP_V` clears, local contributors hold `WIN` credits, and a
reduction sends `WIN` credits to every port of `DOWN_MASK` (R270, R277). -/
def enableTree (d : Dev) (tn : Nat) (entry : BitVec 128) : Dev :=
  let d := modTree (clearTree d tn) tn (fun t => { t with entry := entry, stepV := false, closing := false })
  let t := tree d tn
  let d := modTree d tn (fun t => { t with localCredit := (List.range t.localN).foldl (fun c i => Tbl.set 0 c i t.win) [] })
  if t.mcast then d else each d (portsOf t.down) (fun d p => sendFlit d p (tcredFlit tn t.win))

/-- The tree is allowed on the port's negotiated version (R265). -/
def zl2Forbids (d : Dev) (p : Nat) (t : Tree) : Bool :=
  (port d p).version == 1 && !t.mcast && (t.opc == 2 || t.opc == 3 || t.opc == 4 || t.win > 16)

/-- Ports that a tree uses: `DOWN_MASK`, and `UP_PORT` where the root is elsewhere. -/
def treePorts (t : Tree) : List Nat := portsOf t.down ++ (if t.root then [] else [t.upPort])

/-- Words of a payload of four-byte elements. -/
def chunkWords (fuel : Nat) (bs : List Byte) : List Word :=
  match fuel with
  | 0 => []
  | k + 1 => BitVec.ofNat 32 (leNat (bs.take 4)) :: chunkWords k (bs.drop 4)

/-- Wire elements of an XSUM payload. -/
def chunkWires (fuel : Nat) (bs : List Byte) : List Nat :=
  match fuel with
  | 0 => []
  | k + 1 => leNat (bs.take 16) :: chunkWires k (bs.drop 16)

/-- Accumulators of wire elements, with the containers of the escaped ones in order; none when malformed (R275). -/
def strictOf (ws : List Nat) (cs : List (List Byte)) : Option (List Strict) :=
  match ws with
  | [] => if cs.isEmpty then some [] else none
  | w :: r =>
    if w / 2 ^ 91 % 2 ^ 9 = 0x1FF then
      match cs with
      | c :: cr => match Strict.ofContainer (leNat c) with
        | some s => match Strict.ofWire w (some s) with
          | some x => (strictOf r cr).map (fun l => x :: l)
          | none => none
        | none => none
      | [] => none
    else match Strict.ofWire w none with
      | some x => (strictOf r cs).map (fun l => x :: l)
      | none => none

/-- Take a RED contribution whose elements are all at hand, or reject it. -/
def takeRed (d : Dev) (p : Nat) (f : Flit) (v : Option Chunk) : Dev :=
  match v with
  | none => rejectFlit d p f.ktag
  | some c =>
    match contribute d (fld f.tsf 63 52) p 0 (fld f.tsf 47 36) (fld f.tsf 35 24) (fld f.tsf 23 0) c with
    | (d, .rejected) => rejectFlit d p f.ktag
    | (d, _) => d

/-- A RED flit that still waits for its RED_X flits is malformed when another TC1 flit comes (R275). -/
def dropEsc (d : Dev) (p : Nat) : Dev :=
  match (port d p).esc with
  | some w => rejectFlit (modPort d p (fun x => { x with esc := none })) p w.flit.ktag
  | none => d

/-- The tree expects this reduction flit on this port (R260, R272). -/
def redExpected (d : Dev) (p : Nat) (f : Flit) : Bool :=
  let t := tree d (fld f.tsf 63 52)
  t.en && t.kennel == f.ktag && !t.mcast && Nat.testBit t.down p && t.opc == fld f.tsf 51 48

/-- An admitted RED flit. -/
def redFlit (d : Dev) (p : Nat) (f : Flit) : Dev :=
  let d := dropEsc d p
  if !redExpected d p f then rejectFlit d p f.ktag
  else if fld f.tsf 51 48 = 2 then
    let ws := chunkWires 16 f.pay
    let need := ((List.range 16).filter (fun i => ws.getD i 0 / 2 ^ 91 % 2 ^ 9 == 0x1FF))
    if need.isEmpty then takeRed d p f ((strictOf ws []).map .strict)
    else modPort d p (fun x => { x with esc := some { flit := f, need := need } })
  else takeRed d p f (some (.words (chunkWords 64 f.pay)))

/-- The containers of a RED_X payload: five of 48 bytes, and zeros from byte 240 on. -/
def containers (f : Flit) : List (List Byte) := (List.range 5).map (fun i => (f.pay.drop (48 * i)).take 48)

/-- An admitted RED_X flit. -/
def redXFlit (d : Dev) (p : Nat) (f : Flit) : Dev :=
  match (port d p).esc with
  | none => rejectFlit d p f.ktag
  | some w =>
    let left := w.need.length - w.got.length
    let cs := containers f
    let here := min left 5
    if f.tsf ≠ w.flit.tsf || f.ktag ≠ w.flit.ktag then rejectFlit (dropEsc d p) p f.ktag
    else if (f.pay.drop (48 * here)).any (· != 0) then rejectFlit (modPort d p (fun x => { x with esc := none })) p f.ktag
    else
      let got := w.got ++ cs.take here
      if got.length < w.need.length then modPort d p (fun x => { x with esc := some { w with got := got } })
      else if !redExpected d p w.flit then rejectFlit (modPort d p (fun x => { x with esc := none })) p f.ktag
      else takeRed (modPort d p (fun x => { x with esc := none })) p w.flit ((strictOf (chunkWires 16 w.flit.pay) got).map .strict)

end Sys2Proof.Machine
end

