-- ==== Sys2Proof/Config.lean ====
section
/-! DEFINITION. What the spec leaves open: free values without a body, so that nothing can be proved of a
value of theirs. `n` is always the fresh counter of the state, read and advanced by the step. -/

namespace Sys2Proof.Config

/-- The coded stream that the far-tier encoder writes for a block: the tokens that an encoder chooses are
no part of the format (R231). A stream that does not decode to the block is not used. Log 6. -/
opaque blockStream : List Byte → List Byte

/-- Set of the tensor cache that a line's tag selects: a fixed hash that the spec does not give (R234). Log 6. -/
opaque cacheSet : Nat → Nat → Nat → Nat

/-- A memory key or module key drawn from the entropy source (R380). Log 7. -/
opaque freshKey : Nat → BitVec 512

/-- The bytes of an SPDM response: DSP0274 message bytes, nonces and signatures (R392, R393). Log 7. -/
opaque spdmResponse : Nat → List Byte → List Byte

/-- The bytes of a PLDM or MCTP response body that DSP0248, DSP0257 and DSP0267 lay out (R466). Log 7. -/
opaque pldmResponse : Nat → List Byte → List Byte

/-- The bytes of a PLDM platform event message for a crossing of a sensor (R466): from its ID, the level and the reading. Log 7. -/
opaque pldmEvent : Nat → Nat → Int → List Byte

/-- The byte layout of a manifest section that the spec names without a layout (R361, R306, R312):
the index of the item and the section's bytes give the item's words. Log 8. -/
opaque sectionWords : Nat → Nat → List Byte → List DWord

/-- The data of a manifest section as the re-map plan of a ring position leaves it (R413), whose layout the spec does not give:
from the position, the module that takes it, the section's kind and index, the bytes at `REMAP` and the section's data. Log 41. -/
opaque remapSection : Nat → Nat → Nat → Nat → List Byte → List Byte → List Byte

/-- Segments of a task whose manifest has no ownership records (R293): from the data of its sections. Log 98. -/
opaque segments : List Byte → Nat

/-- Kennel-local byte address of the owner's freeze plane (R305), from the freeze schedule's bytes: the spec places it nowhere.
Log 99. -/
opaque planeAddr : List Byte → Nat

/-- Place in the report area of the table of measured ratios, and its bytes from the tensors with their plain and stored bytes
(R233). Log 100. -/
opaque ratioOffset : List Byte → Nat
opaque ratioBytes : List (Nat × Nat × Nat) → List Byte

/-- SHA-384 (R419, R420). Log 21. -/
opaque sha384 : List Byte → List Byte

/-- First register of the scalar pair that a VE program declares for its step (R312): from the program's bytes. Log 22. -/
opaque stepPair : List Byte → Nat

/-- A round whose first ABORT came from another module was caused by a lag abort or by a reduction leash with every peer
barking (R405): by kennel, round and sender. The ABORT message does not say (Table 13-2). Log 23. -/
opaque roundByLag : Nat → Nat → Nat → Bool

/-- `RES2` of TASK_STATUS before the first parity commit (Table 11-8). Log 24. -/
opaque noCommit : Nat → DWord

end Sys2Proof.Config
end

