-- ==== Sys2Proof/Machine/Compress.lean ====
section
/-! DEFINITION. Far-tier page images: block map, GBC tokens, XPLANE planes (R227 to R231). -/

namespace Sys2Proof.Machine

/-- Append n copies of the byte `off` back, byte by byte; the output is held newest first. -/
def gbcCopy (n off : Nat) (rev : List Byte) : List Byte :=
  match n with
  | 0 => rev
  | k + 1 => gbcCopy k off (rev.getD (off - 1) 0 :: rev)

/-- Tokens of Table 7-8 until 4,096 bytes are out; the rest must be zeros. None is a DECODE error (R230). -/
def gbcDecode (fuel : Nat) (inp rev : List Byte) (len : Nat) : Option (List Byte) :=
  if len = 4096 then (if inp.all (· == 0) then some rev.reverse else none)
  else if len > 4096 then none
  else
    match fuel with
    | 0 => none
    | k + 1 =>
      match inp with
      | [] => none
      | t :: r =>
        let lo := fld t 5 0
        match fld t 7 6 with
        | 0 => if r.length < lo + 1 then none else gbcDecode k (r.drop (lo + 1)) ((r.take (lo + 1)).reverse ++ rev) (len + lo + 1)
        | 1 => match r with
               | x :: r => gbcDecode k r (List.replicate (lo + 3) x ++ rev) (len + lo + 3)
               | [] => none
        | 2 => match r with
               | y :: r =>
                 let n := fld t 5 3 + 3
                 let off := fld t 2 0 * 256 + y.toNat + 1
                 if off > len then none else gbcDecode k r (gbcCopy n off rev) (len + n)
               | [] => none
        | _ => match r with
               | z0 :: z1 :: r =>
                 let off := z0.toNat + 256 * z1.toNat + 1
                 if off > 4096 || off > len then none else gbcDecode k r (gbcCopy (lo + 3) off rev) (len + lo + 3)
               | _ => none

/-- Elements of `w` bytes as numbers. -/
def elems (fuel w : Nat) (bs : List Byte) : List Nat :=
  match fuel with
  | 0 => []
  | k + 1 => if bs.isEmpty then [] else leNat (bs.take w) :: elems k w (bs.drop w)

def rol (w v : Nat) : Nat := (v * 2) % 2 ^ w + v / 2 ^ (w - 1)
def ror (w v : Nat) : Nat := v / 2 + (v % 2) * 2 ^ (w - 1)

/-- Element width in bytes of an `ETYPE` other than bytes. -/
def etBytes (et : Nat) : Nat := if et = 1 then 4 else 2

/-- The plane image of R229. -/
def planeImage (et : Nat) (bs : List Byte) : List Byte :=
  let w := etBytes et
  let rs := (elems 2048 w bs).map (rol (8 * w))
  (List.range w).reverse.flatMap (fun j => rs.map (fun r => BitVec.ofNat 8 (r / 256 ^ j)))

/-- The inverse of R229. -/
def planeInverse (et : Nat) (img : List Byte) : List Byte :=
  let w := etBytes et
  let n := 4096 / w
  let planes := (List.range w).map (fun i => (img.drop (n * i)).take n)
  let at' (j e : Nat) : Nat := ((planes.getD (w - 1 - j) []).getD e 0).toNat
  (List.range n).flatMap (fun e => leBytes w (ror (8 * w) ((List.range w).foldl (fun a j => a + at' j e * 256 ^ j) 0)))

def zeros (n : Nat) : List Byte := List.replicate n 0

/-- Whether a block map entry contradicts itself (R228). -/
def blockBad (m : BitVec 16) : Bool :=
  let f := fld m 15 14
  let s := fld m 6 0
  fld m 10 7 != 0 || (f == 0 && s != 0) || (bit m 11 && s != 0)
    || (!bit m 11 && ((f == 1 && s != 64) || (f ≥ 2 && (s == 0 || s > 63)) || (f == 3 && fld m 13 12 == 0)))

/-- The bytes of a block, or the class that a read of it reports (R228, R230, R240). -/
def decodeBlock (b : Block) : MemClass × List Byte :=
  if blockBad b.map then (.lost, zeros 4096)
  else if bit b.map 11 then (.poison, zeros 4096)
  else match fld b.map 15 14 with
    | 0 => (.ok, zeros 4096)
    | 1 => (.ok, (b.bytes ++ zeros 4096).take 4096)
    | 2 => match gbcDecode 4097 b.bytes [] 0 with
           | some o => (.ok, o)
           | none => (.decode, zeros 4096)
    | _ => match gbcDecode 4097 b.bytes [] 0 with
           | some o => (.ok, planeInverse (fld b.map 13 12) o)
           | none => (.decode, zeros 4096)

/-- Map entry of a block. -/
def blockMap (format et sectors : Nat) (poison : Bool) : BitVec 16 :=
  put 16 14 format ||| put 16 12 et ||| putB 16 11 poison ||| put 16 0 sectors

/-- Encode a block (R231): ZERO, the coded stream where it decodes back and fits 63 sectors, else RAW. The tokens are
`Config.blockStream`'s (log 6). -/
def encodeBlock (et : Nat) (bs : List Byte) : Block :=
  if bs.all (· == 0) then { map := blockMap 0 et 0 false, bytes := [] }
  else
    let src := if et = 0 then bs else planeImage et bs
    let coded := Config.blockStream src
    let s := ceilDiv coded.length 64
    let padded := coded ++ zeros (64 * s - coded.length)
    if 1 ≤ s && s ≤ 63 && gbcDecode 4097 padded [] 0 == some src then
      { map := blockMap (if et = 0 then 2 else 3) et s false, bytes := padded }
    else { map := blockMap 1 et 64 false, bytes := bs }

/-- A block stored poisoned (R242). -/
def poisonBlock (et : Nat) : Block := { map := blockMap 0 et 0 true, bytes := [] }

/-- Granules of an image: ⌈(16 + Σ sectors) / 64⌉ (R227). -/
def imageGranules (img : Tbl Block) : Nat := ceilDiv (16 + img.foldl (fun a b => a + fld b.2.map 6 0) 0) 64

/-- A block of an image: unlisted blocks are ZERO blocks of the page's type. -/
def imageBlock (img : Tbl Block) (b : Nat) : Block := Tbl.get {} img b

end Sys2Proof.Machine
end

