-- ==== Sys2Proof/Machine/QueueOps.lean ====
section
/-! DEFINITION. Handle queues at their homes (R183 to R190). -/

namespace Sys2Proof.Machine

def hq (d : Dev) (q : Nat) : Hq := Tbl.get {} d.hqs q
def modHq (d : Dev) (q : Nat) (f : Hq → Hq) : Dev := { d with hqs := Tbl.modify {} d.hqs q f }

/-- What became of a push. -/
inductive Pushed where
  | accepted | full | denied
deriving DecidableEq, Repr

/-- What became of a pop. -/
inductive Popped where
  | got (b : DWord)
  | waiting
  | denied
deriving DecidableEq, Repr

/-- A unit's kennel may use the queue (R185). -/
def hqAllows (q : Hq) (k : Nat) : Bool := q.en && q.kennel == k

def hqDeny (d : Dev) (q : Nat) : Dev := modHq d q (fun x => { x with denied := true, denyCnt := inc x.denyCnt })

/-- A push of kennel k reaches queue q at ECLK `at'`: the oldest waiting pop takes its biscuit, which arrives 8 ECLK
later; else it is stored, refused, or meets the full queue (R119, R185, R186, R187). -/
def qPush (d : Dev) (q k : Nat) (b : DWord) (at' : Nat) : Dev × Pushed :=
  let x := hq d q
  if !hqAllows x k then (hqDeny d q, .denied)
  else match x.waiters with
    | w :: r =>
      let d := modHq d q (fun x => { x with waiters := r, pushCnt := inc x.pushCnt, popCnt := inc x.popCnt })
      ({ d with arrivals := d.arrivals ++ [⟨w.unit, w.role, b, max at' w.at' + 8⟩] }, .accepted)
    | [] =>
      if x.items.length < x.depth then
        (modHq d q (fun x => { x with items := x.items ++ [b], pushCnt := inc x.pushCnt }), .accepted)
      else (modHq d q (fun x => { x with fullSeen := true, fullCnt := inc x.fullCnt }), .full)

/-- A pop of kennel k reaches queue q: the oldest biscuit, a place in the wait list, or a refusal (R185, R186). -/
def qPop (d : Dev) (q k : Nat) (u : UnitId) (role at' : Nat) : Dev × Popped :=
  let x := hq d q
  if !hqAllows x k then (hqDeny d q, .denied)
  else match x.items with
    | b :: r =>
      let d := modHq d q (fun x => { x with items := r, popCnt := inc x.popCnt })
      ({ d with arrivals := d.arrivals ++ [⟨u, role, b, at' + 8⟩] }, .got b)
    | [] => (modHq d q (fun x => { x with waiters := x.waiters ++ [⟨u, role, at'⟩] }), .waiting)

/-- A flush discards every biscuit and cancels every waiting pop (R189). -/
def qFlush (d : Dev) (q : Nat) : Dev := modHq d q (fun x => { x with items := [], waiters := [] })

/-- `HQ_STATUS` (Table 6-13). -/
def hqStatus (q : Hq) : DWord :=
  put 64 32 q.waiters.length ||| put 64 19 q.items.length ||| putB 64 9 q.fullSeen ||| putB 64 8 q.denied

def requestPop (d : Dev) (u : UnitId) (role q k at' : Nat) : Dev := { d with popReqs := d.popReqs ++ [⟨u, role, q, k, at'⟩] }
def requestPush (d : Dev) (u : UnitId) (q k : Nat) (b : DWord) (at' : Nat) : Dev :=
  { d with pushReqs := d.pushReqs ++ [⟨u, q, k, b, at', false⟩] }

/-- Drop everything that a set of units has under way at the queues: requests, waiting pops, arrivals (R205). -/
def dropUnits (d : Dev) (p : UnitId → Bool) : Dev :=
  { d with
    popReqs := d.popReqs.filter (fun r => !p r.unit)
    pushReqs := d.pushReqs.filter (fun r => !p r.unit)
    arrivals := d.arrivals.filter (fun r => !p r.unit)
    hqs := Tbl.mapAll {} d.hqs (fun _ x => { x with waiters := x.waiters.filter (fun w => !p w.unit) }) }

/-- Pops that a unit has outstanding: requested, waiting or on their way (R188). -/
def popsOutstanding (d : Dev) (p : UnitId → Bool) : Nat :=
  (d.popReqs.filter (fun r => p r.unit)).length + (d.arrivals.filter (fun r => p r.unit)).length
    + (d.hqs.map (fun z => (z.2.waiters.filter (fun w => p w.unit)).length)).sum

/-- The first element that satisfies a test, and the list without it. -/
def takeFirst {α : Type} (l : List α) (p : α → Bool) : Option (α × List α) :=
  match l with
  | [] => none
  | x :: r => if p x then some (x, r) else (takeFirst r p).map (fun z => (z.1, x :: z.2))

/-- The fixed order of the units at a home (R186): firmware, sequencers, vector engines, gather engines, streamers, ports, each
group in ascending order of names. -/
def unitRank (u : UnitId) : Nat :=
  match u with
  | .fw => 0
  | .seq e => 10000 + e
  | .ve e => 20000 + e
  | .se n s => if n < 64 then 40000 + 32 * n + s else 30000 + 32 * n + s
  | .zl p => 50000 + p

/-- A request of unit u at ECLK t comes before one of unit v at ECLK t'. -/
def goesBefore (t : Nat) (u : UnitId) (t' : Nat) (v : UnitId) : Bool := t < t' || (t == t' && unitRank u < unitRank v)

/-- No request on its way reaches the queue before this pop: one ECLK takes pops before pushes (R186). -/
def popFirst (d : Dev) (r : PopReq) : Bool :=
  !d.popReqs.any (fun x => x.q == r.q && goesBefore x.at' x.unit r.at' r.unit) && !d.pushReqs.any (fun x => x.q == r.q && x.at' < r.at')

/-- No request on its way reaches the queue before this push. -/
def pushFirst (d : Dev) (r : PushReq) : Bool :=
  !d.popReqs.any (fun x => x.q == r.q && x.at' ≤ r.at') && !d.pushReqs.any (fun x => x.q == r.q && goesBefore x.at' x.unit r.at' r.unit)

/-- Use of a kennel's queue quotas: enabled queues, and the sum of their depths (Table 12-2). -/
def queueUse (d : Dev) (k : Nat) : Nat := (d.hqs.filter (fun z => z.2.en && z.2.kennel == k)).length
def depthUse (d : Dev) (k : Nat) : Nat := ((d.hqs.filter (fun z => z.2.en && z.2.kennel == k)).map (fun z => z.2.depth)).sum
/-- Depths of the enabled queues of a home (R183, R184). -/
def homeDepth (d : Dev) (home : Nat) : Nat := ((d.hqs.filter (fun z => z.2.en && z.1 / 8192 == home)).map (fun z => z.2.depth)).sum

/-- A counted quota admits a request for `n` more when the use stays within the limit (R376). -/
def within (use n limit : Nat) : Bool := n = 0 || use + n ≤ limit

/-- The checks of a write of `HQ_CONFIG` for kennel k, in the order of R347: RSVD, holder, home depth, state, quota. -/
def hqSetCheck (d : Dev) (k q : Nat) (v : DWord) : Option Sc :=
  let x := hq d q
  let n : Hq := { cfg := v }
  let own (b : Bool) (t : Nat) : Nat := if b then t else 0
  (check (fld v 52 0 != 0) .format).or <|
  (check (n.kennel != k || (x.en && x.kennel != k)) .denied).or <|
  (check (fld v 56 53 > 12 || (n.en && homeDepth d (q / 8192) - own x.en x.depth + n.depth > 65536)) .range).or <|
  (check (x.en && ((n.en && (n.kennel != x.kennel || n.depth != x.depth))
      || (!n.en && (!x.items.isEmpty || !x.waiters.isEmpty || n.kennel != x.kennel || n.depth != x.depth)))) .state).or <|
  (check (n.en && !x.en && (!within (queueUse d k) 1 (kennel d k).quota.queues
      || !within (depthUse d k) n.depth (kennel d k).quota.qdepth)) .quota)

end Sys2Proof.Machine
end

