-- ==== Sys2Proof/Machine/MemOps.lean ====
section
/-! DEFINITION. Memory: translation, page states, reads and writes at the home M-die, watches, migrations, the tensor
cache and error classes (R208 to R247). -/

namespace Sys2Proof.Machine

def pageBytes : Nat := 2097152
def frameTotal : Nat := 196096
def granuleTotal : Nat := 805306368

/-- Key of page `pg` of kennel k in the page table. -/
def pageKey (k pg : Nat) : Nat := 8388608 * k + pg
def page (d : Dev) (k pg : Nat) : Page := Tbl.get {} d.pages (pageKey k pg)
def modPage (d : Dev) (key : Nat) (f : Page → Page) : Dev := { d with pages := Tbl.modify {} d.pages key f }
def mdie (d : Dev) (m : Nat) : MDie := Tbl.get {} d.mdies m
def modMdie (d : Dev) (m : Nat) (f : MDie → MDie) : Dev := { d with mdies := Tbl.modify {} d.mdies m f }
def kmem (d : Dev) (k : Nat) : Mem := Tbl.get [] d.mem k
def setKmem (d : Dev) (k : Nat) (m : Mem) : Dev := { d with mem := Tbl.set [] d.mem k m }
def modCnt (d : Dev) (m : Nat) (f : MemCnt → MemCnt) : Dev := modMdie d m (fun x => { x with cnt := f x.cnt })

/-! ### Translation (R210, R211) -/

def dirOf (d : Dev) (k addr : Nat) : DWord := Tbl.get 0 d.dirs (8192 * k + addr / pageBytes / 1024)

/-- Directory and PTE checks, then `OWNER` (R211). -/
def mapped (d : Dev) (k addr : Nat) : Bool :=
  let p := page d k (addr / pageBytes)
  addr < 2 ^ 44 && bit (dirOf d k addr) 63 && p.v && p.owner == k

/-- A table entry of the address is inconsistent: a reserved bit, or the reserved policy (R211). `LEAF` has no value beyond the
pool. -/
def tableBad (d : Dev) (k addr : Nat) : Bool :=
  let p := page d k (addr / pageBytes)
  addr < 2 ^ 44 && bit (dirOf d k addr) 63 && (fld (dirOf d k addr) 62 17 != 0 || (p.v && (fld p.pte 34 24 != 0 || p.policy == 3)))

def canRead (d : Dev) (k addr : Nat) : Bool := mapped d k addr && (page d k (addr / pageBytes)).rd
def canWrite (d : Dev) (k addr : Nat) : Bool := mapped d k addr && (page d k (addr / pageBytes)).wr

/-- An inconsistent or lost table entry, record or map: the page is LOST, and the module has a fault (R240). -/
def metaError (d : Dev) (key : Nat) : Dev := report (modPage d key (fun p => { p with st := .lost })) (.memFatal 0)

/-! ### Hints and distances (R235, R236) -/

def hint (d : Dev) (m t : Nat) : DWord := if t = 0 then 0 else Tbl.get 0 (mdie d m).hints t

/-- Distance of a tensor's next use; none is infinite. -/
def distance (d : Dev) (m k t : Nat) : Option Nat :=
  let h := hint d m t
  let b := beatNow d % 2 ^ 48
  let n := fld h 47 0
  if !bit h 63 || fld h 62 57 ≠ k || t = 0 || n ≤ b then none else some (n - b)

/-- a is the greater distance. -/
def farther (a b : Option Nat) : Bool :=
  match a, b with
  | none, none => false
  | none, some _ => true
  | some _, none => false
  | some x, some y => x > y

/-! ### Use of frames and granules (R213, R216, R218, R233, R376) -/

def holdsFrame (p : Page) : Bool := p.st == .near || p.st == .promoting || p.st == .demoting
/-- Reads of the page are served from its near frame (Table 7-5). -/
def readsNear (p : Page) : Bool := p.st == .near || p.st == .demoting
def framesOf (d : Dev) (k : Nat) : Nat := (d.pages.filter (fun z => z.1 / 8388608 == k && holdsFrame z.2)).length
def granulesOf (d : Dev) (k : Nat) : Nat := ((d.pages.filter (fun z => z.1 / 8388608 == k)).map (fun z => z.2.granules)).sum
def pagesOf (d : Dev) (k : Nat) : Nat := (d.pages.filter (fun z => z.1 / 8388608 == k && z.2.v)).length

/-- What may not be allocated: what is in use, and what is retired. -/
def takenFrames (x : MDie) : List Nat := x.frames ++ x.retiredF.filter (fun f => !x.frames.contains f)
def takenGranules (x : MDie) : List Nat := x.far ++ x.retiredG.filter (fun g => !x.far.contains g)
def freeFrames (d : Dev) (m : Nat) : Nat := frameTotal - (takenFrames (mdie d m)).length
def freeGranules (d : Dev) (m : Nat) : Nat := granuleTotal - (takenGranules (mdie d m)).length

/-- A free frame of the stack whose turn it is, the least numbered one (R216, log 16): stacks hold 65,536, 65,536 and 65,024. -/
def pickFrame (x : MDie) : Nat :=
  let used := takenFrames x
  let base := 65536 * (x.turn % 3)
  ((List.range (used.length + 1)).map (fun i => (base + i) % frameTotal)).find? (fun f => !used.contains f) |>.getD base

/-- The least numbered free granule of a far channel; granule g lies on channel g mod 12 (R218, log 16). -/
def pickGranule (used : List Nat) (channel : Nat) : Nat :=
  ((List.range (used.length + 1)).map (fun i => 12 * i + channel)).find? (fun g => !used.contains g) |>.getD channel

/-- Granules from place i on of a page's extent: place i lies on channel (i + `PID`) mod 12 (R218). -/
def pickGranules (n : Nat) (used : List Nat) (pid i : Nat) : List Nat :=
  match n with
  | 0 => []
  | k + 1 => let g := pickGranule used ((i + pid) % 12); g :: pickGranules k (g :: used) pid (i + 1)

/-- Measured compression of each tensor of a kennel with far pages: tensor, plain bytes, stored bytes (R233). -/
def ratios (d : Dev) (k : Nat) : List (Nat × Nat × Nat) :=
  (d.pages.filter (fun z => z.1 / 8388608 == k && z.2.granules != 0)).foldl (fun l z =>
    if l.any (fun y => y.1 == z.2.tensor) then l.map (fun y => if y.1 = z.2.tensor then (y.1, y.2.1 + pageBytes, y.2.2 + 4096 * z.2.granules) else y)
    else l ++ [(z.2.tensor, pageBytes, 4096 * z.2.granules)]) []

/-- The marks of R233: firmware hears once each time the footprint, or the far use, passes its mark. -/
def memPlanCheck (d : Dev) (k : Nat) : Dev :=
  let used := framesOf d k * pageBytes + granulesOf d k * 4096
  let far := granulesOf d k
  let q := (kennel d k).quota.farGran
  let plan := match task d k with | some t => t.footprint < used | none => false
  let high := q != 0 && 100 * far ≥ 95 * q
  let m := Tbl.get {} d.marks k
  let d := { d with marks := Tbl.set {} d.marks k { plan := plan, high := high } }
  let d := if plan && !m.plan then report d (.memUse k false used) else d
  if high && !m.high then report d (.memUse k true (far * 4096)) else d

/-! ### Requests for migrations (R221 to R226) -/

def pending (x : MDie) (key : Nat) : Bool := x.migs.any (fun g => g.key == key)

/-- Request a migration of a page, once; a request of higher priority takes the place of a waiting one, behind those of its class. -/
def requestMig (d : Dev) (m key prio : Nat) (up : Bool) : Dev :=
  modMdie d m (fun x =>
    if x.migs.any (fun g => g.key == key && (g.running || g.up != up || g.prio ≤ prio)) then x
    else { x with migs := x.migs.filter (fun g => g.key != key) ++ [⟨key, up, prio, false⟩] })

/-- The page may be demoted: NEAR, not pinned near; a page pinned far only after 8 beats without a write (R222). -/
def demotable (d : Dev) (m : Nat) (p : Page) : Bool :=
  p.home == m && p.v && p.st == .near && p.policy != 1 && (p.policy != 2 || due d p.lastWrite (8 * beatPeriod d * 3 / 2))

/-- a goes before b in the order of R222. -/
def victimBefore (d : Dev) (m : Nat) (a b : Nat × Page) : Bool :=
  let da := distance d m (a.1 / 8388608) a.2.tensor
  let db := distance d m (b.1 / 8388608) b.2.tensor
  if (a.2.policy == 2) != (b.2.policy == 2) then a.2.policy == 2
  else if a.2.policy != 2 && farther da db then true
  else if a.2.policy != 2 && farther db da then false
  else if a.2.lastAccess ≠ b.2.lastAccess then a.2.lastAccess < b.2.lastAccess
  else a.2.pid < b.2.pid

/-- The first page in the order of R222 among those that satisfy a test. -/
def pickVictim (d : Dev) (m : Nat) (p : Nat × Page → Bool) : Option Nat :=
  ((d.pages.filter (fun z => demotable d m z.2 && p z)).foldl (fun b z => match b with
    | none => some z
    | some y => if victimBefore d m z y then some z else some y) none).map (·.1)

/-- The image of a page from its plaintext (R227, R231, R242): a block with a poisoned line is stored poisoned. -/
def pageImage (d : Dev) (key : Nat) : Tbl Block :=
  let p : Page := Tbl.get {} d.pages key
  let k := key / 8388608
  let base := key % 8388608 * pageBytes
  (List.range 512).foldl (fun t b =>
    let blk := if (List.range 64).any (fun i => p.poison.contains (64 * b + i)) then poisonBlock p.etype
      else encodeBlock p.etype (Mem.read (kmem d k) (base + 4096 * b) 4096)
    Tbl.set {} t b blk) []

/-- Granules that a page's image takes now; no write changes it before its demotion ends (R219, R227). -/
def imageSize (d : Dev) (key : Nat) : Nat := imageGranules (pageImage d key)

/-- The images of pages fit beside `used` granules within a limit; an image never takes more than 513 (R227). -/
def imagesFit (d : Dev) (used limit : Nat) (keys : List Nat) : Bool :=
  used + 513 * keys.length ≤ limit || used + (keys.map (imageSize d)).sum ≤ limit

/-- Pages that are being demoted. -/
def demoting (d : Dev) (p : Nat × Page → Bool) : List Nat := (d.pages.filter (fun z => z.2.st == .demoting && p z)).map (·.1)

/-- The kennel's far quota admits the page's image beside those of its pages in demotion (R376, log 39). -/
def farRoom (d : Dev) (key : Nat) : Bool :=
  let k := key / 8388608
  imagesFit d (granulesOf d k) (kennel d k).quota.farGran (key :: demoting d (fun z => z.1 / 8388608 == k))

/-- The M-die's free granules hold it. -/
def granuleRoom (d : Dev) (m key : Nat) : Bool := imagesFit d 0 (freeGranules d m) (key :: demoting d (fun z => z.2.home == m))

/-- Watermark demotions: victims until the frames free, or being freed, reach `HIGH_WM` × 4 (R222). -/
def watermark (fuel : Nat) (d : Dev) (m : Nat) : Dev :=
  match fuel with
  | 0 => d
  | n + 1 =>
    let x := mdie d m
    let coming := (x.migs.filter (fun g => !g.up)).length
    if freeFrames d m + coming ≥ 4 * fld x.cfg 31 16 then d
    else match pickVictim d m (fun z => !pending x z.1 && farRoom d z.1) with
      | some key => watermark n (requestMig d m key 3 false) m
      | none => d

/-- Demotion by watermark begins below `LOW_WM` × 4 free frames and goes on until `HIGH_WM` × 4 are free (R222). -/
def watermarkCheck (d : Dev) (m : Nat) : Dev :=
  let free := freeFrames d m
  let d := modMdie d m (fun x => { x with draining := free < 4 * fld x.cfg 15 0 || (x.draining && free < 4 * fld x.cfg 31 16) })
  if (mdie d m).draining then watermark d.pages.length d m else d

/-- Take a near frame for a page. -/
def takeFrame (d : Dev) (key m : Nat) : Dev :=
  let f := pickFrame (mdie d m)
  watermarkCheck (modPage (modMdie d m (fun x => { x with frames := x.frames ++ [f], turn := (x.turn + 1) % 3 })) key (fun p => { p with frame := f })) m

def freeFrame (d : Dev) (key m : Nat) : Dev :=
  let f := (Tbl.get {} d.pages key : Page).frame
  modPage (modMdie d m (fun x => { x with frames := x.frames.filter (· != f), freedAt := some d.eclk })) key (fun p => { p with frame := 0 })

/-- Whether a page of kennel k may take a near frame on M-die m now. -/
def frameReady (d : Dev) (m k : Nat) : Bool := freeFrames d m > 0 && framesOf d k < (kennel d k).quota.nearFrames

/-- A demotion of the second class that frees a frame, waiting or running (R224). -/
def freesFrame (g : Mig) : Bool := !g.up && (g.prio ≤ 2 || g.running)

/-- Ask for the demotion that frees a frame: of the kennel's own pages at its own limit, else of any victim, which a waiting
request of a lower class may already name (R222, R224, R376). -/
def askFrame (d : Dev) (m k : Nat) : Dev :=
  let own := framesOf d k ≥ (kennel d k).quota.nearFrames
  match pickVictim d m (fun z => (!own || z.1 / 8388608 == k) && !(mdie d m).migs.any (fun g => g.key == z.1 && freesFrame g) && farRoom d z.1) with
  | some key => requestMig d m key 2 false
  | none => d

def waitKey (w : MemWait) : Nat := pageKey w.kennel (w.addr / pageBytes)

/-- Pages of an M-die that wait for a frame: ZERO pages with a first write, and FAR pages whose demand promotion has not
started (R226). -/
def wantFrame (d : Dev) (m : Nat) : List Nat :=
  let zero := d.waits.filterMap (fun w => let p : Page := Tbl.get {} d.pages (waitKey w)
    if p.st == .zero && p.home == m then some (waitKey w) else none)
  let far := ((mdie d m).migs.filter (fun g => g.up && g.prio == 1 && !g.running)).map (·.key)
  (zero ++ far).foldl (fun l x => if l.contains x then l else l ++ [x]) []

/-- One demotion of the second class for each page that waits in vain for a frame. -/
def askFrames (d : Dev) (m : Nat) : Dev :=
  each d (wantFrame d m).zipIdx (fun d z =>
    if frameReady d m (z.1 / 8388608) || ((mdie d m).migs.filter freesFrame).length > z.2 then d else askFrame d m (z.1 / 8388608))

/-! ### Tensor cache (R234, R237) -/

/-- Bytes at address a with the bytes xs written from address b on. -/
def lay (a : Nat) (bs : List Byte) (b : Nat) (xs : List Byte) : List Byte :=
  bs.mapIdx (fun i y => if b ≤ a + i && a + i < b + xs.length then xs.getD (a + i - b) y else y)

/-- The set of a line: one of 65,536 (R234). -/
def setOf (m k line : Nat) : Nat := Config.cacheSet m k line % 65536

def cached (d : Dev) (m k line : Nat) : Option TcLine := (mdie d m).tc.find? (fun l => l.kennel == k && l.line == line)

/-- Allocate a line with its bytes, or bypass. `counted` marks the line that missed. -/
def tcFill (d : Dev) (m k line tensor : Nat) (bytes : List Byte) (poisoned counted : Bool) : Dev :=
  let x := mdie d m
  let s := setOf m k line
  let ways := x.tc.filter (fun l => l.set' == s)
  let dist (l : TcLine) := distance d m l.kennel l.tensor
  let victim := ways.foldl (fun b l => match b with
    | none => some l
    | some v => if farther (dist l) (dist v) || (!farther (dist v) (dist l) && (l.used < v.used || (l.used == v.used && l.way < v.way))) then some l else some v) none
  let bypass := fld (hint d m tensor) 56 55 = 1 && bit (hint d m tensor) 63 && fld (hint d m tensor) 62 57 = k
  let skip (d : Dev) := if counted then modCnt d m (fun c => { c with bypass := inc c.bypass }) else d
  if (cached d m k line).isSome then d
  else if poisoned || bypass then skip d
  else if ways.length < 16 then
    let w := ((List.range 16).find? (fun w => !ways.any (fun l => l.way == w))).getD 0
    modMdie d m (fun x => { x with tc := x.tc ++ [⟨k, line, tensor, d.eclk, s, w, bytes⟩] })
  else match victim with
    | none => skip d
    | some v =>
      if farther (distance d m k tensor) (dist v) then skip d
      else modMdie d m (fun x => { x with tc := x.tc.filter (fun l => l != v) ++ [⟨k, line, tensor, d.eclk, s, v.way, bytes⟩] })

/-- The lines of a page leave the cache (R214, R371). -/
def tcDrop (d : Dev) (m k pg : Nat) : Dev :=
  modMdie d m (fun x => { x with tc := x.tc.filter (fun l => !(l.kennel == k && l.line / 8192 == pg)) })

/-- A write updates every line that holds its bytes (R234). -/
def tcWrite (d : Dev) (m k addr : Nat) (bs : List Byte) : Dev :=
  modMdie d m (fun x => { x with tc := x.tc.map (fun l => if l.kennel = k then { l with bytes := lay (256 * l.line) l.bytes addr bs } else l) })

/-! ### Reads -/

/-- Lines of 64 bytes, and blocks of 4 KiB, that n bytes from offset o of a page touch. -/
def linesOf (o n : Nat) : List Nat := (List.range (ceilDiv (o % 64 + n) 64)).map (fun i => o / 64 + i)
def blocksOf (o n : Nat) : List Nat := (List.range (ceilDiv (o % 4096 + n) 4096)).map (fun i => o / 4096 + i)

/-- Bytes of a far image from offset o, with the worst class met. -/
def imageRead (img : Tbl Block) (o n : Nat) : MemClass × List Byte :=
  let bs := (blocksOf o n).map (fun b => decodeBlock (imageBlock img b))
  let cls := bs.foldl (fun c z => if c = .ok then z.1 else c) MemClass.ok
  (cls, ((bs.flatMap (·.2)).drop (o % 4096)).take n)

/-- Bytes of a page as its tier holds them, with the class of the access. -/
def tierBytes (d : Dev) (k addr n : Nat) : MemClass × List Byte :=
  let p := page d k (addr / pageBytes)
  let o := addr % pageBytes
  match p.st with
  | .zero => (.ok, zeros n)
  | .lost => (.lost, zeros n)
  | .far | .promoting => imageRead p.image o n
  | .near | .demoting =>
    if (linesOf o n).any (fun l => p.poison.contains l) then (.poison, zeros n) else (.ok, Mem.read (kmem d k) addr n)

/-- The writes that wait for a page have reached the M-die: a read sees their bytes (R238, log 62). -/
def seeWaits (d : Dev) (k addr : Nat) (bs : List Byte) : List Byte :=
  d.waits.foldl (fun b w => if w.kennel = k then lay addr b w.addr w.bytes else b) bs

/-- The parts of n bytes from an address in the 256-byte lines of the cache: line, address, length. -/
def cacheParts (addr n : Nat) : List (Nat × Nat × Nat) :=
  (List.range (ceilDiv (addr % 256 + n) 256)).map (fun i =>
    let lo := max addr (256 * (addr / 256 + i))
    (addr / 256 + i, lo, min (addr + n) (256 * (addr / 256 + i) + 256) - lo))

/-- Bytes of a page without any effect: from the cache where it holds the line, else from the tier, with the class of the first
part that the tier does not deliver; on top the writes that wait (R234, R238). -/
def peek (d : Dev) (k addr n : Nat) : MemClass × List Byte :=
  let m := (page d k (addr / pageBytes)).home
  let r := (cacheParts addr n).foldl (fun (r : MemClass × List Byte) z =>
    match cached d m k z.1 with
    | some l => (r.1, r.2 ++ (l.bytes.drop (z.2.1 % 256)).take z.2.2)
    | none => let (c, bs) := tierBytes d k z.2.1 z.2.2; (if r.1 = .ok then c else r.1, r.2 ++ bs)) (.ok, [])
  (r.1, seeWaits d k addr r.2)

/-- Read-count promotion (R221). -/
def readCount (d : Dev) (k addr n : Nat) : Dev :=
  let key := pageKey k (addr / pageBytes)
  let p := page d k (addr / pageBytes)
  let rp := fld (mdie d p.home).cfg 47 40
  if p.st ≠ .far || rp = 0 || p.policy ≠ 0 then d
  else
    let bs := (blocksOf (addr % pageBytes) n).foldl (fun l b => if l.contains b then l else l ++ [b]) p.readBlocks
    let d := modPage d key (fun p => { p with readBlocks := bs })
    if bs.length ≥ rp then requestMig d p.home key 5 true else d

/-- A line that missed is offered for allocation; a far page's decoded block offers its 16 lines, ascending (R234, R237). -/
def tcOffer (d : Dev) (k line : Nat) : Dev :=
  let p := page d k (line * 256 / pageBytes)
  let m := p.home
  let lines := if readsNear p then [line] else (List.range 16).map (fun i => line / 16 * 16 + i)
  each d lines (fun d j => match tierBytes d k (256 * j) 256 with
    | (c, bs) => tcFill d m k j p.tensor bs (c != .ok) (j == line))

/-- Hits and misses of the cache for a read, with allocation (R234, R237, R247). -/
def tcRead (d : Dev) (k addr n : Nat) : Dev :=
  let m := (page d k (addr / pageBytes)).home
  each d (cacheParts addr n) (fun d z =>
    if (cached d m k z.1).isSome then
      modMdie d m (fun x => { x with cnt := { x.cnt with hit := inc x.cnt.hit }
                                     tc := x.tc.map (fun c => if c.kennel == k && c.line == z.1 then { c with used := d.eclk } else c) })
    else tcOffer (modCnt d m (fun c => { c with miss := inc c.miss })) k z.1)

/-! ### Watches (R198 to R200) -/

def blockNo (addr : Nat) : Nat := addr / 65536
def homeOf (d : Dev) (k addr : Nat) : Nat := (page d k (addr / pageBytes)).home
def isWatch (k b : Nat) (w : Watch) : Bool := w.kennel == k && w.block == b

/-- A free entry within the table and the kennel's share. -/
def watchRoom (d : Dev) (m k : Nat) : Bool :=
  (mdie d m).watches.length < 4096 && ((mdie d m).watches.filter (fun w => w.kennel == k)).length < (kennel d k).quota.watch

/-- Open or share a watch entry for a slot; false where none is free within the table or the kennel's share. -/
def watchTake (d : Dev) (m k b n slot : Nat) : Dev × Bool :=
  if (mdie d m).watches.any (isWatch k b) then
    (modMdie d m (fun x => { x with watches := x.watches.map (fun w => if isWatch k b w && !w.holders.contains (n, slot) then { w with holders := w.holders ++ [(n, slot)] } else w) }), true)
  else if watchRoom d m k then
    (modMdie d m (fun x => { x with watches := x.watches ++ [⟨k, b, [(n, slot)]⟩] }), true)
  else (d, false)

/-- A slot keeps its entries of the blocks that satisfy a test and lets go of the others. -/
def watchKeep (d : Dev) (n slot : Nat) (p : Nat → Bool) : Dev :=
  each d (List.range 4) (fun d m => modMdie d m (fun x => { x with watches :=
    (x.watches.map (fun w => if p w.block then w else { w with holders := w.holders.filter (· != (n, slot)) })).filter (fun w => !w.holders.isEmpty) }))

def se (d : Dev) (n : Nat) : Se := Tbl.get {} d.ses n
def modSe (d : Dev) (n : Nat) (f : Se → Se) : Dev := { d with ses := Tbl.modify {} d.ses n f }
def sslot (d : Dev) (n s : Nat) : SSlot := Tbl.get {} (se d n).slots s
def modSlot (d : Dev) (n s : Nat) (f : SSlot → SSlot) : Dev := modSe d n (fun x => { x with slots := Tbl.modify {} x.slots s f })

/-- A piece whose staged bytes a write to block b of kennel k makes stale. -/
def stale (k b : Nat) (a : Active) (p : Piece) : Bool :=
  p.src == .memory && a.kennel == k && blockNo p.addr == b && p.bytes.isSome

/-- Staged bytes of a slot under block b of kennel k are discarded, to be read again under the same entry; the run-ahead's bytes
are read again at once, for which `fresh` gives what memory holds now (R199). It answers how many it reads again at once. -/
def restage (now k b : Nat) (fresh : Nat → Nat → List Byte) (x : SSlot) : SSlot × Nat :=
  let touch := x.aheadKennel == k && !x.ahead.isEmpty && blockNo x.aheadAt ≤ b && b ≤ blockNo (x.aheadAt + x.ahead.length - 1)
  let x := { x with act := x.act.map (fun a => { a with reps := a.reps.map (fun r => { r with
    pieces := r.pieces.map (fun p => if stale k b a p then { p with bytes := none, again := true, issued := some now } else p) }) }) }
  if touch then ({ x with ahead := fresh x.aheadAt x.ahead.length }, 1) else (x, 0)

/-- A write to n bytes at addr invalidates what is staged under the watched blocks it touches (R199). -/
def invalidate (d : Dev) (k addr n : Nat) : Dev :=
  let bs := (List.range (ceilDiv (addr % 65536 + n) 65536)).map (fun i => blockNo addr + i)
  { d with ses := Tbl.mapAll {} d.ses (fun _ e =>
      e.slots.keys.foldl (fun e s => bs.foldl (fun (e : Se) b =>
        let (x, c) := restage (beatNow d) k b (fun a l => (peek d k a l).2) (Tbl.get {} e.slots s)
        { e with slots := Tbl.set {} e.slots s x, pfRefetch := e.pfRefetch + BitVec.ofNat 32 c }) e) e) }

/-! ### Errors and reads (R219, R238 to R243) -/

/-- Place in the extent of the granule that holds the first sector of the block at offset o (R227). -/
def granulePlace (p : Page) (o : Nat) : Nat :=
  (p.image.filter (fun z => z.1 < o / 4096)).foldl (fun a z => a + fld z.2.map 6 0) 16 / 64

/-- The far granule that a read at offset o meets. -/
def granuleAt (p : Page) (o : Nat) : Nat := p.extent.getD (granulePlace p o) 0

/-- The storage of a page at offset o has taken 16 corrected errors: it is retired, and the page that uses it moves, which
counts as a write (R243, log 77). -/
def retire (d : Dev) (m key o : Nat) : Dev :=
  let p : Page := Tbl.get {} d.pages key
  let near := readsNear p
  let ix := if near then p.frame else granuleAt p o
  let d := modMdie d m (fun x => { x with
    cnt := { x.cnt with retire := inc x.cnt.retire }, ces := x.ces.filter (fun z => !(z.1 == !near && z.2.1 == ix))
    retiredF := if near then x.retiredF ++ [ix] else x.retiredF, retiredG := if near then x.retiredG else x.retiredG ++ [ix] })
  let d :=
    if near then
      if freeFrames d m = 0 then requestMig d m key 2 false
      else takeFrame (modMdie d m (fun x => { x with frames := x.frames.filter (· != ix) })) key m
    else
      let g := pickGranule (takenGranules (mdie d m)) ((granulePlace p o + p.pid) % 12)
      modPage (modMdie d m (fun x => { x with far := x.far.filter (· != ix) ++ [g] })) key (fun p => { p with extent := p.extent.map (fun y => if y = ix then g else y) })
  let d := invalidate d (key / 8388608) (key % 8388608 * pageBytes) pageBytes
  raise { d with retireSeq := d.retireSeq + 1 } (evMemRetire m (!near).toNat ix)

/-- A corrected error at offset o of a page is counted; 16 within 24 hours retire the storage (R240, R243). -/
def correctedError (d : Dev) (m key o : Nat) : Dev :=
  let p : Page := Tbl.get {} d.pages key
  let gran := !(readsNear p)
  let ix := if gran then granuleAt p o else p.frame
  let recent := ((mdie d m).ces.filter (fun z => !due d z.2.2 (86400000 * 1500000))) ++ [(gran, ix, d.eclk)]
  let d := modMdie d m (fun x => { x with cnt := { x.cnt with ce := inc x.cnt.ce }, ces := recent })
  if (recent.filter (fun z => z.1 == gran && z.2.1 == ix)).length < 16 then d else retire d m key o

/-- `CARG` of the stack or far channel that holds an address of a page: stack h, or 0x100 + far channel (R216, R218,
Table 15-5). -/
def channelOf (p : Page) (o : Nat) : Nat :=
  if readsNear p then 3 * p.home + min 2 (p.frame / 65536) else 0x100 + 12 * p.home + (granulePlace p o + p.pid) % 12

/-- A UE of a page at offset o is counted; more than 64 of one stack or far channel in one beat are a CHANNEL error, a
module fault (R240). -/
def countUe (d : Dev) (key o : Nat) : Dev :=
  let p : Page := Tbl.get {} d.pages key
  let c := channelOf p o
  let d := modMdie d p.home (fun x => { x with
    cnt := { x.cnt with ue := inc x.cnt.ue }, ueBeat := beatNow d, ues := Tbl.modify 0 (if x.ueBeat = beatNow d then x.ues else []) c (· + 1) })
  if Tbl.get 0 (mdie d p.home).ues c > 64 then report d (.memFatal c) else d

/-- Poison the lines of a page: near lines, or the far blocks that hold them (R240, R242). -/
def poisonLines (d : Dev) (key : Nat) (ls : List Nat) : Dev :=
  modPage d key (fun p =>
    if readsNear p then { p with poison := ls.foldl (fun l x => if l.contains x then l else l ++ [x]) p.poison }
    else { p with image := ls.foldl (fun t l => Tbl.set {} t (l / 64) (poisonBlock p.etype)) p.image })

/-- The blocks of a read that do not decode are poisoned and counted (R240). -/
def decodeErrors (d : Dev) (key o n : Nat) : Dev :=
  let p : Page := Tbl.get {} d.pages key
  let bad := (blocksOf o n).filter (fun b => (decodeBlock (imageBlock p.image b)).1 = .decode)
  poisonLines (each d bad (fun d b => countUe d key (4096 * b))) key (bad.map (64 * ·))

/-- 64-byte lines of an access that ECC names and that the cache does not serve, as lines of the page. -/
def tierLines (d : Dev) (k addr n : Nat) (ls : List Nat) : List Nat :=
  let m := (page d k (addr / pageBytes)).home
  (linesOf (addr % pageBytes) n).zipIdx.filterMap (fun z =>
    if ls.contains z.2 && (cached d m k ((addr / pageBytes * pageBytes + 64 * z.1) / 256)).isNone then some z.1 else none)

/-- What the codes find before the access is served: a failing copy of the cache is dropped and fetched again, a failing hint
entry reads with `EN` 0, lines are corrected, or poisoned where they cannot be (R236, R240). Answers whether a line failed. -/
def eccFinds (d : Dev) (k addr n : Nat) (ecc : Ecc) : Dev × Bool :=
  let key := pageKey k (addr / pageBytes)
  let m := (page d k (addr / pageBytes)).home
  let ce (d : Dev) : Dev := modCnt d m (fun c => { c with ce := inc c.ce })
  match ecc with
  | .cache ls => (each d (cacheParts addr n).zipIdx (fun d z =>
      if ls.contains z.2 && (cached d m k z.1.1).isSome then ce (modMdie d m (fun x => { x with tc := x.tc.filter (fun l => !(l.kennel == k && l.line == z.1.1)) }))
      else d), false)
  | .hint t => (if Tbl.get 0 (mdie d m).hints t = 0 then d else ce (modMdie d m (fun x => { x with hints := Tbl.erase x.hints t })), false)
  | .corrected ls => (each d (tierLines d k addr n ls) (fun d l => correctedError d m key (64 * l)), false)
  | .ue ls =>
    let bad := tierLines d k addr n ls
    (poisonLines (each d bad (fun d l => countUe d key (64 * l))) key bad, !bad.isEmpty)
  | _ => (d, false)

/-- A read of n bytes within one page at the home M-die (R219, R238, R240). `ecc` is what the storage's codes find; `own` is false
for a run-ahead, which starts no migration (R201). -/
def memAccess (own : Bool) (d : Dev) (k addr n : Nat) (ecc : Ecc) : Dev × MemClass × List Byte :=
  let key := pageKey k (addr / pageBytes)
  if tableBad d k addr then (metaError d key, .lost, zeros n)
  else if !canRead d k addr then (d, .denied, zeros n)
  else
    let d := modPage d key (fun p => { p with lastAccess := d.eclk })
    let p := page d k (addr / pageBytes)
    if p.st = .lost then (d, .lost, zeros n)
    else if ecc = .metadata then (metaError d key, .lost, zeros n)
    else if p.st = .zero then (d, .ok, seeWaits d k addr (zeros n))
    else if ecc = .channel then (report d (.memFatal (channelOf p (addr % pageBytes))), .ue, zeros n)
    else match eccFinds d k addr n ecc with
      | (d, failed) =>
        let (cls, bs) := peek d k addr n
        let d := tcRead (if own then readCount d k addr n else d) k addr n
        if failed then (d, .ue, zeros n)
        else match cls with
          | .ok => (d, .ok, bs)
          | .poison => (modCnt d p.home (fun c => { c with poisonRd := inc c.poisonRd }), .poison, bs)
          | .decode => (decodeErrors d key (addr % pageBytes) n, .decode, bs)
          | .lost => (metaError d key, .lost, bs)
          | c => (d, c, bs)

def memRead (d : Dev) (k addr n : Nat) (ecc : Ecc) : Dev × MemClass × List Byte := memAccess true d k addr n ecc

/-! ### Writes -/

/-- What became of a write. -/
inductive Wrote where
  | done | waiting | denied | lost
deriving DecidableEq, Repr

/-- Lines that a write covers wholly get fresh check bytes (R220). -/
def coversLine (addr n l : Nat) : Bool := addr % pageBytes ≤ 64 * l && 64 * l + 64 ≤ addr % pageBytes + n

/-- Apply a write to a near frame: fresh check bytes clear poison; a merge into a poisoned line, or one whose old bytes the code
cannot correct (`ues`, lines of the access), stores the line poisoned and counts as UE (R220, R242). -/
def applyWrite (d : Dev) (k addr : Nat) (bs : List Byte) (ues : List Nat) : Dev :=
  let key := pageKey k (addr / pageBytes)
  let ls := linesOf (addr % pageBytes) bs.length
  let p : Page := Tbl.get {} d.pages key
  let merged := ls.zipIdx.filter (fun z => !coversLine addr bs.length z.1)
  let bad := (merged.filter (fun z => p.poison.contains z.1 || ues.contains z.2)).map (·.1)
  let d := poisonLines (each d bad (fun d l => countUe d key (64 * l))) key bad
  let d := modPage d key (fun p => { p with poison := p.poison.filter (fun l => !(ls.contains l && coversLine addr bs.length l)), lastAccess := d.eclk, lastWrite := d.eclk })
  invalidate (tcWrite (setKmem d k (Mem.write (kmem d k) addr bs)) p.home k addr bs) k addr bs.length

/-- A write that waits for its page to be NEAR; one behind it on the same page waits as well (R219, R226, R238). -/
def waitWrite (d : Dev) (k addr : Nat) (bs : List Byte) (w : Writer) : Dev := { d with waits := d.waits ++ [⟨k, addr, bs, w, d.eclk⟩] }

/-- A write within one page at its home M-die, by the state of the page (R219, R225, R226). `ecc` is what the codes find on the old
bytes of a merged line. -/
def memWrite (d : Dev) (k addr : Nat) (bs : List Byte) (w : Writer) (ecc : Ecc) : Dev × Wrote :=
  let key := pageKey k (addr / pageBytes)
  if tableBad d k addr then (metaError d key, .lost)
  else if !canWrite d k addr then (d, .denied)
  else
    let p := page d k (addr / pageBytes)
    let m := p.home
    let ues := match ecc with | .ue ls => ls | _ => []
    let ce (d : Dev) : Dev := match ecc with
      | .corrected ls => each d ((linesOf (addr % pageBytes) bs.length).zipIdx.filter (fun z => ls.contains z.2 && !coversLine addr bs.length z.1)) (fun d z => correctedError d m key (64 * z.1))
      | _ => d
    if p.st = .lost then (d, .lost)
    else if ecc = .metadata then (metaError d key, .lost)
    else match p.st with
    | .near => (applyWrite (ce d) k addr bs ues, .done)
    | .demoting =>
      let d := modMdie d m (fun x => { x with cnt := { x.cnt with abort := inc x.cnt.abort }, migs := x.migs.filter (fun g => g.key != key) })
      (watermarkCheck (applyWrite (ce (modPage d key (fun p => { p with st := .near }))) k addr bs ues) m, .done)
    | .zero =>
      if frameReady d m k && !d.waits.any (fun w => waitKey w == key) then
        let d := modPage (takeFrame d key m) key (fun p => { p with st := .near })
        (memPlanCheck (applyWrite d k addr bs []) k, .done)
      else (askFrames (waitWrite d k addr bs w) m, .waiting)
    | .far => (askFrames (waitWrite (requestMig d m key 1 true) k addr bs w) m, .waiting)
    | _ => (waitWrite d k addr bs w, .waiting)

/-- Cut bytes at page boundaries. -/
def cutPages (fuel addr : Nat) (bs : List Byte) : List (Nat × List Byte) :=
  match fuel with
  | 0 => []
  | f + 1 =>
    if bs.isEmpty then []
    else
      let n := pageBytes - addr % pageBytes
      (addr, bs.take n) :: cutPages f (addr + n) (bs.drop n)

/-- A write that may cross pages, piece by piece; answers the worst outcome. -/
def memWriteAll (d : Dev) (k addr : Nat) (bs : List Byte) (w : Writer) (ecc : Ecc) : Dev × Wrote :=
  (cutPages (bs.length / pageBytes + 2) addr bs).foldl (fun r z =>
    let (d, o) := memWrite r.1 k z.1 z.2 w ecc
    (d, if r.2 = .done || (r.2 = .waiting && o ≠ .done) then o else r.2)) (d, .done)

/-- A read that may cross pages, page by page: the class of the first error, and the bytes. What the codes find meets the first
page of it. -/
def memReadAll (d : Dev) (k addr n : Nat) (ecc : Ecc) : Dev × MemClass × List Byte :=
  ((cutPages (n / pageBytes + 2) addr (zeros n)).zipIdx).foldl (fun r z =>
    let (d, c, b) := memRead r.1 k z.1.1 z.1.2.length (if z.2 = 0 then ecc else .clean)
    (d, if r.2.1 = .ok then c else r.2.1, r.2.2 ++ b)) (d, .ok, [])

/-- The waiting writes of a page apply, in order, once it is NEAR. -/
def applyWaits (d : Dev) (key : Nat) : Dev :=
  each { d with waits := d.waits.filter (fun w => waitKey w != key) } (d.waits.filter (fun w => waitKey w == key))
    (fun d w => applyWrite d w.kennel w.addr w.bytes [])

/-- First writes to ZERO pages that wait for a frame, while frames are at hand (R226). -/
def serveFirst (d : Dev) (m : Nat) : Dev :=
  each d (wantFrame d m) (fun d key =>
    if (Tbl.get {} d.pages key : Page).st == .zero && frameReady d m (key / 8388608) then
      memPlanCheck (applyWaits (modPage (takeFrame d key m) key (fun p => { p with st := .near })) key) (key / 8388608)
    else d)

/-! ### Running migrations -/

/-- A waiting migration can start now: a promotion needs a frame. -/
def canStart (d : Dev) (m : Nat) (g : Mig) : Bool :=
  let p : Page := Tbl.get {} d.pages g.key
  !g.running && (if g.up then p.st == .far && frameReady d m (g.key / 8388608) else p.st == .near && farRoom d g.key && granuleRoom d m g.key)

/-- Start the waiting migration of highest priority, in order of request, when fewer than eight run (R224). -/
def migStart (d : Dev) (m : Nat) : Dev :=
  let d := askFrames d m
  let x := mdie d m
  if (x.migs.filter (·.running)).length ≥ 8 then d
  else
    match (x.migs.filter (canStart d m)).foldl (fun b g => match b with
        | none => some g
        | some y => if g.prio < y.prio then some g else some y) (none : Option Mig) with
    | none => d
    | some g =>
      let d := modMdie d m (fun x => { x with migs := x.migs.map (fun y => if y == g then { y with running := true } else y) })
      if g.up then modPage (takeFrame d g.key m) g.key (fun p => { p with st := .promoting })
      else modPage d g.key (fun p => { p with st := .demoting })

/-- What the reads of a migration met: corrected lines in the blocks `ces`, UE in the blocks `ues`, DECODE and POISON in what is
stored; the data goes on poisoned (R240, R241, log 40). -/
def migErrors (d : Dev) (m key : Nat) (up : Bool) (ues ces : List Nat) : Dev :=
  let p : Page := Tbl.get {} d.pages key
  let bad (c : MemClass) : List Nat := (p.image.filter (fun z => (decodeBlock z.2).1 == c)).map (·.1)
  let n := if up then (bad .poison).length else p.poison.length
  let d := each d (ues ++ (if up then (bad .decode).filter (fun b => !ues.contains b) else [])) (fun d b => countUe d key (4096 * b))
  let d := each d ces (fun d b => correctedError d m key (4096 * b))
  modCnt d m (fun c => { c with poisonRd := c.poisonRd + BitVec.ofNat 32 n })

/-- The frame freed by a demotion or an unmapped page serves who waits for one (R226). -/
def frameFreed (d : Dev) (m : Nat) : Dev := watermarkCheck (serveFirst d m) m

/-- A promotion ends: the frame holds the page, its blocks decoded or poisoned, and the granules are free (R225, R242). -/
def promoted (d : Dev) (m key : Nat) (ues : List Nat) : Dev :=
  let k := key / 8388608
  let base := key % 8388608 * pageBytes
  let p : Page := Tbl.get {} d.pages key
  let blocks := (List.range 512).map (fun b => (b, if ues.contains b then (MemClass.ue, []) else decodeBlock (imageBlock p.image b)))
  let bad := (blocks.filter (fun z => z.2.1 != .ok)).flatMap (fun z => (List.range 64).map (fun i => 64 * z.1 + i))
  let bytes := blocks.foldl (fun mm z => if z.2.1 = .ok then Mem.write mm (base + 4096 * z.1) z.2.2 else mm) (Mem.zero (kmem d k) base pageBytes)
  let d := modPage (setKmem d k bytes) key (fun p => { p with st := .near, image := [], extent := [], poison := bad, readBlocks := [] })
  let d := modMdie d m (fun x => { x with far := x.far.filter (fun g => !p.extent.contains g), cnt := { x.cnt with up := inc x.cnt.up } })
  memPlanCheck (watermarkCheck (applyWaits (invalidate d k base pageBytes) key) m) k

/-- A demotion ends: granules hold the image, and the frame is free (R225, R242). -/
def demoted (d : Dev) (m key : Nat) (ues : List Nat) : Dev :=
  let k := key / 8388608
  let base := key % 8388608 * pageBytes
  let p : Page := Tbl.get {} d.pages key
  let img := ues.foldl (fun t b => Tbl.set {} t b (poisonBlock p.etype)) (pageImage d key)
  let gs := pickGranules (imageGranules img) (takenGranules (mdie d m)) p.pid 0
  let d := freeFrame d key m
  let d := modPage (setKmem d k (Mem.zero (kmem d k) base pageBytes)) key (fun p => { p with st := .far, image := img, extent := gs, poison := [], readBlocks := [] })
  let d := modMdie d m (fun x => { x with far := x.far ++ gs, cnt := { x.cnt with down := inc x.cnt.down } })
  memPlanCheck (frameFreed (invalidate d k base pageBytes) m) k

/-- A block map that contradicts itself makes its page LOST (R228, R240). -/
def mapBad (p : Page) : Bool := p.image.any (fun z => blockBad z.2.map)

/-- The end of a migration: the page switches state and its old storage is freed; the copy counts as a write (R225). `ues` and
`ces` are the blocks in which its reads met UE and corrected errors: a promotion writes the lines of the former poisoned, a
demotion stores them poisoned (R242). -/
def migComplete (d : Dev) (m key : Nat) (ues ces : List Nat) : Dev :=
  match (mdie d m).migs.find? (fun g => g.key == key && g.running) with
  | none => d
  | some g =>
    let d := modMdie (migErrors d m key g.up ues ces) m (fun x => { x with migs := x.migs.filter (fun y => y.key != key) })
    if g.up && mapBad (Tbl.get {} d.pages key) then metaError d key
    else if g.up then promoted d m key ues else demoted d m key ues

/-! ### Hints (R221, R235) -/

/-- Hint promotions: far pages under auto whose tensor's next use is near (R221). -/
def hintPromotions (d : Dev) : Dev :=
  each d d.pages (fun d z =>
    let p := z.2
    let lead := fld (mdie d p.home).cfg 55 48
    let near := match distance d p.home (z.1 / 8388608) p.tensor with | some n => decide (n ≤ lead) | none => false
    if p.v && p.st == .far && p.policy == 0 && lead != 0 && near then requestMig d p.home z.1 4 true else d)

/-- A hint entry on every M-die; entry 0 always reads with `EN` 0 (R235). -/
def setHint (d : Dev) (t : Nat) (v : DWord) : Dev :=
  if t = 0 then d else each d (List.range 4) (fun d m => modMdie d m (fun x => { x with hints := Tbl.set 0 x.hints t v }))

/-- Firmware writes a hint entry on every M-die, and the distances fall with it (R221, R235). -/
def hintUpdate (d : Dev) (t : Nat) (v : DWord) : Dev := hintPromotions (setHint d t v)

/-! ### Mapping (R210 to R214, R379) -/

def leafUsed (d : Dev) : List Nat := (d.dirs.filter (fun z => bit z.2 63)).map (fun z => fld z.2 16 0)

/-- The least number not in a list, below a limit. -/
def leastFree (l : List Nat) : Nat := ((List.range (l.length + 1)).find? (fun i => !l.contains i)).getD 0

/-- Map one page of kennel k: a leaf table where the directory has none, a page record of the home M-die, ZERO (R212, R219, R379). -/
def mapPage (d : Dev) (k pg home : Nat) (attrs : DWord) : Dev :=
  let dir := 8192 * k + pg / 1024
  let d := if bit (Tbl.get 0 d.dirs dir) 63 then d
    else { d with dirs := Tbl.set 0 d.dirs dir (putB 64 63 true ||| put 64 0 (leastFree (leafUsed d))) }
  let pid := leastFree (mdie d home).records
  let d := modMdie d home (fun x => { x with records := x.records ++ [pid] })
  let pte := putB 64 63 true ||| (attrs &&& mask 64 62 41) ||| put 64 35 k ||| put 64 22 home ||| put 64 0 pid
  { d with pages := Tbl.set {} d.pages (pageKey k pg) { pte := pte, lastAccess := d.eclk, lastWrite := d.eclk } }

/-- Return everything that a page holds and clear its PTE. -/
def unmapPage (d : Dev) (k pg : Nat) : Dev :=
  let key := pageKey k pg
  let p := page d k pg
  let d := tcDrop d p.home k pg
  let d := if holdsFrame p then freeFrame d key p.home else d
  let d := modMdie d p.home (fun x => { x with records := x.records.filter (· != p.pid), far := x.far.filter (fun g => !p.extent.contains g), migs := x.migs.filter (fun g => g.key != key) })
  let d := setKmem d k (Mem.zero (kmem d k) (pg * pageBytes) pageBytes)
  let d := { d with pages := Tbl.erase d.pages key, waits := d.waits.filter (fun w => waitKey w != key) }
  let d := if d.pages.any (fun z => z.1 / 1024 == key / 1024) then d else { d with dirs := Tbl.erase d.dirs (8192 * k + pg / 1024) }
  memPlanCheck (if holdsFrame p then frameFreed d p.home else d) k

/-- A read of the page that a stream has issued and that has not been served. -/
def readOut (d : Dev) (k pg : Nat) : Bool :=
  d.ses.any (fun e => e.2.slots.any (fun s => match s.2.act with
    | some a => a.kennel == k && a.reps.any (fun r => r.pieces.any (fun p => p.src == .memory && p.bytes.isNone && p.addr / pageBytes == pg))
    | none => false))

/-- R214 forbids clearing `V`: a watch, a migration or an outstanding read of the page. -/
def unmapBusy (d : Dev) (k pg : Nat) : Bool :=
  let p := page d k pg
  (mdie d p.home).migs.any (fun g => g.key == pageKey k pg && g.running) || (mdie d p.home).watches.any (fun w => w.kennel == k && w.block / 32 == pg)
    || d.waits.any (fun w => waitKey w == pageKey k pg) || readOut d k pg

end Sys2Proof.Machine
end

