-- ==== Sys2Proof/Machine/StreamOps.lean ====
section
/-! DEFINITION. Stream engines: stores, litters, arms, plans, status, ends and pops (R167 to R193, R205, R282). -/

namespace Sys2Proof.Machine

/-! ### Stores -/

/-- Bytes of a tile store, operand cache or die store. -/
def spaceBytes (sp : Nat) : Nat := match sp with | 1 => 16777216 | 2 => 2097152 | _ => 134217728

/-- Pair 12c + e, or C-die, that an `ENGINE` field names (Table 6-3). -/
def unitOf (sp eng : Nat) : Nat := if sp = 3 then eng / 16 else 12 * (eng / 16) + eng % 16

def store (d : Dev) (sp u : Nat) : Mem :=
  match sp with
  | 1 => Tbl.get [] d.tiles u
  | 2 => Tbl.get [] d.caches u
  | _ => Tbl.get [] d.dies u

def setStore (d : Dev) (sp u : Nat) (m : Mem) : Dev :=
  match sp with
  | 1 => { d with tiles := Tbl.set [] d.tiles u m }
  | 2 => { d with caches := Tbl.set [] d.caches u m }
  | _ => { d with dies := Tbl.set [] d.dies u m }

def storeWrite (d : Dev) (sp u a : Nat) (bs : List Byte) : Dev := setStore d sp u (Mem.write (store d sp u) a bs)

def present (d : Dev) (e : Nat) : Bool := e < 48 && bit d.fuses.presence e

/-- The unit exists: a pair of the presence map, or a C-die (R5, R6). -/
def unitExists (d : Dev) (sp eng : Nat) : Bool := if sp = 3 then eng / 16 < 4 else eng % 16 < 12 && present d (unitOf sp eng)

/-- The store is bound to the kennel (R372). -/
def ownsUnit (d : Dev) (sp eng k : Nat) : Bool :=
  if sp = 3 then Tbl.get 0 d.dieOwner (eng / 16) == k else Tbl.get 0 d.pairOwner (unitOf sp eng) == k

def isStore (sp : Nat) : Bool := 1 ≤ sp && sp ≤ 3

/-! ### Litters (R191, R192) -/

def litter (d : Dev) (l : Nat) : BitVec 128 := Tbl.get 0 d.litters l
def litEn (x : BitVec 128) : Bool := bit x 127
def litKennel (x : BitVec 128) : Nat := fld x 126 121
def litSel (x : BitVec 128) : Nat := fld x 120 119
def litMask (x : BitVec 128) : Nat := fld x 118 71
/-- Members by rank: pairs, or C-dies when the window lies in die stores. -/
def litMembers (x : BitVec 128) : List Nat :=
  let ms := (List.range 48).filter (fun i => Nat.testBit (litMask x) i)
  if litSel x = 2 then ms.map (· / 12) else ms
def litBase (x : BitVec 128) : Nat := fld x 70 50
def litFree (x : BitVec 128) : Nat := fld x 49 35
def litFull (x : BitVec 128) : Nat := fld x 34 20
def litTreeEn (x : BitVec 128) : Bool := bit x 19
def litTree (x : BitVec 128) : Nat := fld x 18 7
/-- Space of the members' windows, coded as in Table 6-3. -/
def litSpace (x : BitVec 128) : Nat := litSel x + 1

/-! ### Checks of an arm (R171, R282) -/

/-- An `ENGINE` field uses only the bits that its space gives a meaning (Table 6-3). -/
def engineRsvd (sp eng : Nat) : Bool := if sp = 3 then eng % 16 == 0 else isStore sp || eng == 0

/-- A source or destination word: reserved bits. -/
def placeRsvd (w : DWord) : Bool :=
  let sp := fld w 63 60
  fld w 3 0 == 0 && (sp == 6 || fld w 15 4 == 0) && engineRsvd sp (fld w 59 54)

def engineRuns (n kind : Nat) : Bool := if n < 64 then kind == 1 || kind == 2 || kind == 4 else kind == 1 || kind == 3

def descFormat (n slot : Nat) (x : Desc) : Bool :=
  let k := x.kind
  let s := fld x.w1 63 60
  let t := fld x.w2 63 60
  let i := fld x.w5 63 60
  fld x.w0 23 16 == 0 && placeRsvd x.w1 && placeRsvd x.w2
    && (k != 3 || (fld x.w5 15 0 == 0 && fld x.w6 31 0 == 0)) && (k != 2 || fld x.w6 53 0 == 0) && (k != 1 || x.w6 == 0)
    && (if k == 4 then fld x.w7 17 0 == 0 else fld x.w7 57 0 == 0)
    && engineRuns n k
    && [1, 2, 3, 4, 6, 15].contains s
    && (if k == 2 then [5, 15].contains t else if k == 4 then [0, 1, 2, 3, 4, 15].contains t else [1, 2, 3, 4, 15].contains t)
    && (k != 3 || (1 ≤ i && i ≤ 4 && engineRsvd i (fld x.w5 59 54)))
    && (s != 15 || x.srcQEn) && (t != 15 || k == 2 || x.dstQEn)
    && (!x.pushEn || x.dstQEn) && (!x.retEn || x.srcQEn)
    && (k != 2 || (!x.dstQEn && !x.pushEn))
    && (k != 3 || x.rep == 0)
    && (x.runahead == 0 || (s == 4 && x.rowLen == x.srcPitch))
    && (x.leash == 0 || ((s == 4 || s == 6) && x.fbEn))
    && (!x.dormant || x.rep == 0)
    && x.slot == slot
    && (k != 4 || ((1 ≤ x.opc && x.opc ≤ 6) && x.inFmt ≤ 1 && x.outFmt ≤ 1 && (x.opc < 5 || (x.inFmt == 0 && x.outFmt == 0))))

/-- First unit of row i of repetition n from an address word with a step and a pitch (R170, R281). -/
def rowUnit (x : Desc) (src : Bool) (n i : Nat) : Int :=
  let a : Int := fld (if src then x.w1 else x.w2) 53 16
  let pitch := if src then x.srcPitch else x.dstPitch
  let step : Int := if x.kind = 4 then x.rows * pitch else if x.kind = 3 then 0 else if src then x.srcStep else x.dstStep
  a + n * step + i * pitch

/-- Bytes of an element as a REDUCE reads it and as its root writes it (R281, R284). -/
def inBytes (x : Desc) : Nat := if x.inFmt = 1 then 2 else 4
def outBytes (x : Desc) : Nat := if x.outFmt = 1 then 2 else 4

/-- Bytes of a row as it is read, and as it is written (R170, R284). -/
def rowBytes (x : Desc) : Nat := x.rowLen * 64
def dstRowBytes (x : Desc) : Nat := if x.kind = 4 then rowBytes x / inBytes x * outBytes x else rowBytes x

/-- An explicit range stays within its store in every repetition. -/
def rangeFits (x : Desc) (src : Bool) : Bool :=
  let sp := fld (if src then x.w1 else x.w2) 63 60
  let rows := if x.kind = 3 && src then x.tableRows else x.rows
  let len := if src then rowBytes x else dstRowBytes x
  if !isStore sp || rows = 0 then true
  else [0, x.rep].all (fun n => 0 ≤ rowUnit x src n 0 && rowUnit x src n (rows - 1) * 64 + len ≤ spaceBytes sp)

/-- Elements of a REDUCE repetition (R281). -/
def redElems (x : Desc) : Nat := x.rows * rowBytes x / inBytes x

def descRange (d : Dev) (x : Desc) : Bool :=
  let s := fld x.w1 63 60
  let t := fld x.w2 63 60
  let i := fld x.w5 63 60
  x.beats != 0 && (x.rows == 0 || x.rowLen != 0) && (x.rows ≤ 1 || x.rowLen ≤ x.dstPitch)
    && (!isStore s || unitExists d s (fld x.w1 59 54)) && (!isStore t || unitExists d t (fld x.w2 59 54))
    && (x.kind != 3 || !isStore i || (unitExists d i (fld x.w5 59 54) && fld x.w5 53 16 * 64 + 4 * x.rows ≤ spaceBytes i))
    && rangeFits x true && rangeFits x false
    && (x.kind != 4 || (x.elem0 % 4 == 0 && redElems x % 64 == 0 && x.elem0 * 16 + (x.rep + 1) * redElems x ≤ 2 ^ 28))

def queueOk (d : Dev) (k q : Nat) (en : Bool) : Bool := !en || hqAllows (hq d q) k

def descDenied (d : Dev) (k n slot : Nat) (x : Desc) : Bool :=
  let s := fld x.w1 63 60
  let t := fld x.w2 63 60
  let i := fld x.w5 63 60
  let sl := sslot d n slot
  !(queueOk d k x.srcQ x.srcQEn && queueOk d k x.dstQ x.dstQEn && queueOk d k x.pushQ x.pushEn && queueOk d k x.retQ x.retEn)
    || (x.kind == 2 && !(litEn (litter d x.litter) && litKennel (litter d x.litter) == k))
    || (isStore s && !ownsUnit d s (fld x.w1 59 54) k) || (isStore t && !ownsUnit d t (fld x.w2 59 54) k)
    || (x.kind == 3 && isStore i && !ownsUnit d i (fld x.w5 59 54) k)
    || (n ≥ 64 && Tbl.get 0 d.dieOwner ((n - 64) / 4) != k)
    || (match sl.act with | some a => a.kennel != k | none => false)
    || (match sl.shd with | some z => z.2.2.1 != k | none => false)

/-- The checks of an arm up to its state: R171 and R282 in their order. -/
def armCheck (d : Dev) (k n slot : Nat) (x : Desc) : Option Sc :=
  let t := tree d x.tree
  let rootDst := t.root && x.cidx == 0
  (check (!descFormat n slot x) .format).or <|
  (check (!descRange d x) .range).or <|
  (check (descDenied d k n slot x || (x.kind == 4 && (!t.en || t.kennel != k || t.mcast))) .denied).or <|
  (check (x.kind == 4 && (x.opc != t.opc || (!rootDst && x.w2 != 0) || (rootDst && !List.contains [1, 2, 3, 4, 15] (fld x.w2 63 60))
      || (x.poisonEn && !rootDst))) .format).or <|
  (check (x.kind == 4 && x.cidx ≥ t.localN) .range)

/-- Slots whose positions hold a descriptor of the kennel (Table 12-2). -/
def slotHeld (k : Nat) (x : SSlot) : Bool :=
  (match x.act with | some a => a.kennel == k | none => false) || (match x.shd with | some z => z.2.2.1 == k | none => false)
def slotUse (d : Dev) (k : Nat) : Nat := (d.ses.map (fun z => (z.2.slots.filter (fun q => slotHeld k q.2)).length)).sum

/-- Make a descriptor active with its plan (R172, R173); a dormant one waits for a fallback. -/
def activate (x : Desc) (gen k plan : Nat) : Active := { desc := x, gen := gen, kennel := k, plan := plan, waiting := x.dormant }

/-- The shadow descriptor moves into the active position (R173, R175). -/
def shadowMove (d : Dev) (n s : Nat) : Dev :=
  let x := sslot d n s
  match x.act, x.shd with
  | none, some (ds, g, k, _) => modSlot d n s (fun x => { x with act := some (activate ds g k x.movePlan), shd := none })
  | _, _ => d

/-- An accepted arm (Table 6-7, R174): answers the state and the generation; none is SC_BUSY. -/
def arm (d : Dev) (k n s : Nat) (x : Desc) (start : Nat) : Option (Dev × Nat) :=
  let d := shadowMove d n s
  let sl := sslot d n s
  match sl.act, sl.shd with
  | none, _ => some (modSlot d n s (fun y => { y with gen := (y.gen + 1) % 2 ^ 16, act := some (activate x y.gen k start), lag := 0 }), sl.gen)
  | some _, none => some (modSlot d n s (fun y => { y with gen := (y.gen + 1) % 2 ^ 16, shd := some (x, y.gen, k, 0) }), sl.gen)
  | some _, some _ => none

/-- The last SC_BUSY of an arm, before it is made. -/
def armBusy (d : Dev) (n s : Nat) : Bool := (sslot d n s).act.isSome && (sslot d n s).shd.isSome

/-! ### Plans -/

/-- Planned start and end of repetition m of a descriptor, in beats (R177). -/
def repStart (a : Active) (m : Nat) : Nat := a.plan + a.desc.beats * m
def repEnd (a : Active) (m : Nat) : Nat := repStart a m + a.desc.beats

/-- Planned start of the descriptor, and planned end of its last repetition (R173, R175). -/
def planLast (a : Active) : Nat := repEnd a a.desc.rep

def modAct (d : Dev) (n s : Nat) (f : Active → Active) : Dev :=
  modSlot d n s (fun x => { x with act := x.act.map f })

/-- Change repetition m of a slot. -/
def modRep (d : Dev) (n s m : Nat) (f : Rep → Rep) : Dev :=
  modAct d n s (fun a => { a with reps := a.reps.map (fun r => if r.num = m then f r else r) })

/-! ### Repetitions in hand -/

/-- Rows that the repetition moves: all of them, or those before the row at which a gather stops (R195). -/
def rowsOut (x : Desc) (r : Rep) : Nat := r.stopRow.getD x.rows

/-- Bytes of the repetition, and whether every one has become part of an issued read. -/
def repBytes (x : Desc) (r : Rep) : Nat := rowsOut x r * rowBytes x
def readsIssued (x : Desc) (r : Rep) : Bool := r.reading && r.cursor == repBytes x r && r.pieces.all (fun p => p.issued.isSome)

/-- Everything of the repetition has been read and written on. -/
def drained (x : Desc) (r : Rep) : Bool := r.reading && r.cursor == repBytes x r && r.pieces.isEmpty

/-- The repetition that reads, the youngest in hand, while it has bytes left to read. -/
def reader (a : Active) : Option Rep :=
  match a.reps.getLast? with
  | some r => if r.popsLeft = 0 && (!r.reading || r.cursor < repBytes a.desc r) then some r else none
  | none => none

/-- The repetition that writes: the oldest one whose completion point is still to come (R177). -/
def writer (a : Active) : Option Rep := a.reps.find? (fun r => r.pushes.isNone)

/-- Number of the oldest repetition whose completion point is still to come. -/
def openRep (a : Active) : Nat := match writer a with | some r => r.num | none => a.next

def planEnd (a : Active) : Nat := repEnd a (openRep a)

def biscuit (r : Rep) (role : Nat) : DWord := ((r.biscuits.find? (fun z => z.1 == role)).map (·.2)).getD 0

/-! ### Staging (Table 6-1) -/

def stageBytes (n : Nat) : Nat := if n < 64 then 1048576 else 262144

/-- Bytes that a slot stages, or has under way into staging. -/
def slotStaged (x : SSlot) : Nat :=
  x.ahead.length + (match x.act with | some a => (a.reps.map (fun r => (r.pieces.map (·.len)).sum)).sum | none => 0)
def staged (d : Dev) (n : Nat) : Nat := ((se d n).slots.map (fun z => slotStaged z.2)).sum

/-- Free staging of an engine. -/
def stageRoom (d : Dev) (n : Nat) : Nat := stageBytes n - staged d n

/-! ### Where rows lie -/

/-- A source or a destination in use: its space, its engine, and its first row's address, after biscuits (R170). -/
structure Place where
  sp : Nat
  eng : Nat
  base : Int
  /-- First byte, and the byte after the last one, of the buffer when the place is taken from a biscuit. -/
  buf : Option (Nat × Nat)
deriving DecidableEq, Repr

def bSpace (b : DWord) : Nat := fld b 63 60
def bEng (b : DWord) : Nat := fld b 59 54
def bLen (b : DWord) : Nat := fld b 53 38
def bAddr (b : DWord) : Nat := fld b 37 0

def placeOf (x : Desc) (r : Rep) (src : Bool) : Place :=
  let w := if src then x.w1 else x.w2
  if fld w 63 60 = 15 then
    let b := biscuit r (if src then 0 else 1)
    ⟨bSpace b, bEng b, bAddr b * 64, some (bAddr b * 64, (bAddr b + bLen b) * 64)⟩
  else ⟨fld w 63 60, fld w 59 54, rowUnit x src r.num 0 * 64, none⟩

/-- Byte address of row i of the source (row t of a gather's table), and of the destination. -/
def srcRow (x : Desc) (r : Rep) (i : Nat) : Int := (placeOf x r true).base + i * x.srcPitch * 64
def dstRow (x : Desc) (r : Rep) (i : Nat) : Int := (placeOf x r false).base + i * x.dstPitch * 64

/-- Place in the destination of a byte of the repetition's rows. -/
def dstByte (x : Desc) (r : Rep) (off : Nat) : Int := dstRow x r (off / rowBytes x) + (off % rowBytes x : Nat)

/-- A byte address of the 2⁴⁴ that a kennel's space has (R210); addresses outside it are refused as unmapped ones (log 93). -/
def inSpace (a : Int) (n : Nat) : Option Nat := if 0 ≤ a && a + n ≤ 2 ^ 44 then some a.toNat else none

/-- The destination is memory. -/
def destMem (x : Desc) (r : Rep) : Bool := x.kind ≠ 2 && (placeOf x r false).sp = 4

/-! ### Reads, waits and holds -/

/-- A read waits for a watch entry, or its bytes have not come. -/
def unwatched (p : Piece) : Bool := p.issued.isNone
def awaited (p : Piece) : Bool := p.issued.isSome && p.bytes.isNone

/-- A read at an M-die of this module that has issued and has not been served. -/
def atMdie (p : Piece) : Bool := awaited p && p.src == .memory

/-- No write of the slot waits at an M-die. -/
def writesDone (d : Dev) (n s : Nat) : Bool := !d.waits.any (fun w => w.by' == Writer.stream n s)

/-- Pops of a repetition: role and queue (R177, R193). -/
def popList (d : Dev) (x : Desc) : List (Nat × Nat) :=
  (if x.srcQEn then [(0, x.srcQ)] else []) ++ (if x.dstQEn then [(1, x.dstQ)] else [])
    ++ (if x.kind = 2 then ((litMembers (litter d x.litter)).mapIdx (fun i _ => (2 + i, litFree (litter d x.litter) + i))) else [])

def seUnit (n : Nat) (u : UnitId) : Bool := match u with | .se m _ => m == n | _ => false

/-- The slot has a repetition left, and the one before it has issued its last read (R177). -/
def nextDue (a : Active) : Bool :=
  !a.waiting && a.next ≤ a.desc.rep && (match a.reps.getLast? with | some r => readsIssued a.desc r | none => true)

/-- `ALIGN` lets repetition m request its pops (R177). -/
def aligned (d : Dev) (a : Active) (m : Nat) : Bool := !a.desc.align || repStart a m ≤ beatNow d

/-- The engine's limit leaves room for all the pops of a repetition (R177, R188). -/
def popRoom (d : Dev) (n : Nat) (a : Active) : Bool := popsOutstanding d (seUnit n) + (popList d a.desc).length ≤ 64

/-- What holds a slot (Table 6-8, log 90). -/
def slotHold (d : Dev) (n : Nat) (a : Active) : Nat :=
  if a.waiting then 6
  else if a.reps.any (fun r => match r.pushes with | some (_ :: _) => true | _ => false) then 2
  else if a.reps.any (fun r => r.pieces.any unwatched) then 4
  else if (reader a).any (fun r => r.reading) && stageRoom d n < 64 then 5
  else if a.reps.any (fun r => r.popsLeft != 0) then 1
  else if nextDue a && aligned d a a.next && !popRoom d n a then 1
  else if nextDue a && a.reps.isEmpty && !aligned d a a.next then 3
  else 0

/-- `SLOT_STATUS` (Table 6-8). -/
def slotStatus (d : Dev) (n s : Nat) : DWord :=
  let x := sslot d n s
  let sh := match x.shd with | some z => put 64 32 z.2.1 ||| putB 64 13 true ||| (if x.act.isNone then put 64 15 z.2.2.1 else 0) | none => 0
  match x.act with
  | some a => put 64 48 a.gen ||| put 64 21 a.repDone ||| put 64 15 a.kennel ||| putB 64 14 true ||| putB 64 12 a.started
      ||| put 64 9 (slotHold d n a) ||| sh
  | none => sh

/-! ### Watches of a slot -/

/-- Blocks that n bytes from an address touch. -/
def blocksFrom (a n : Nat) : List Nat := if n = 0 then [] else (List.range (blockNo (a + n - 1) - blockNo a + 1)).map (fun i => blockNo a + i)

/-- Blocks under which a slot has bytes staged or under way (R198): each read lies in one block. -/
def blocksHeld (x : SSlot) : List Nat :=
  blocksFrom x.aheadAt x.ahead.length ++ (match x.act with
    | some a => a.reps.flatMap (fun r => (r.pieces.filter (fun p => p.src == .memory && !unwatched p)).map (fun p => blockNo p.addr))
    | none => [])

/-- A read of the slot, or its run-ahead, waits for an entry of block b. -/
def blockWaits (x : SSlot) (b : Nat) : Bool :=
  match x.act with
  | some a => a.reps.any (fun r => r.pieces.any (fun p => p.src == .memory && unwatched p && blockNo p.addr == b))
      || (a.desc.runahead != 0 && !x.aheadStop && a.reps.getLast?.any (readsIssued a.desc))
  | none => false

/-- Entries under which a slot has nothing left close, and waits that no read of it needs end (R198, R202). -/
def trimWatches (d : Dev) (n s : Nat) : Dev :=
  let x := sslot d n s
  let d := { d with watchQ := d.watchQ.filter (fun z => !(z.2.1 == n && z.2.2.1 == s && !blockWaits x z.2.2.2)) }
  watchKeep d n s (blocksHeld x).contains

/-- The run-ahead's bytes of a slot are discarded (R202, R205). -/
def dropAhead (d : Dev) (n s : Nat) : Dev := modSlot d n s (fun x => { x with ahead := [], aheadStop := false })

/-- Peer reads of a slot are cancelled: what still comes for them is discarded (R203, R205). -/
def cancelReads (d : Dev) (n s : Nat) (p : Nat → Bool) : Dev :=
  { d with reads := Tbl.mapAll none d.reads (fun _ x => x.map (fun r => if r.engine = n && r.slot = s && p r.rep then { r with live := false } else r)) }

/-! ### Ends -/

/-- `TIME_NOW` at ECLK c (R124, R180). -/
def timeAt (d : Dev) (c : Nat) : Nat := ((d.timeOff + (2 * c / 3 : Nat)) % 2 ^ 64).toNat

/-- The completion record of Table 6-9 at ECLK `at'`, and its count (R180). -/
def seRecord (d : Dev) (n s : Nat) (a : Active) (sc : Sc) (at' : Nat) : Dev :=
  let r : BitVec 128 := put 128 96 (timeAt d at' % 2 ^ 32) ||| put 128 72 (min a.overrun (2 ^ 24 - 1)) ||| put 128 56 (a.gen % 2 ^ 16)
    ||| put 128 48 sc.code ||| put 128 37 (a.repDone % 2 ^ 11) ||| put 128 32 s ||| put 128 21 (a.fallbacks % 2 ^ 11) ||| put 128 0 a.desc.tag
  modSe d n (fun x => { x with ring := Tbl.set 0 x.ring (x.doneCnt.toNat % 256) r, doneCnt := inc x.doneCnt })

/-- The active descriptor leaves its position: what waits in the shadow position moves up with the plan `plan`; a slot that falls
idle discards its run-ahead (R202). -/
def leaveActive (d : Dev) (n s plan : Nat) : Dev :=
  trimWatches (modSlot d n s (fun x => { x with act := none, movePlan := plan, ahead := if x.shd.isSome then x.ahead else [], aheadStop := false })) n s

/-- A descriptor ends with a status, and firmware ends its task with it (R178). -/
def endDesc (d : Dev) (n s : Nat) (sc : Sc) : Dev :=
  match (sslot d n s).act with
  | none => d
  | some a =>
    let d := dropUnits (cancelReads (seRecord d n s a sc d.eclk) n s (fun _ => true)) (· == UnitId.se n s)
    taskEnding (leaveActive d n s (planLast a)) a.kennel sc

/-- The final transfer, in ECLK `at'` (R173, R174, R180). -/
def finalTransfer (d : Dev) (n s at' : Nat) : Dev :=
  match (sslot d n s).act with
  | none => d
  | some a => leaveActive (seRecord d n s a .ok at') n s (planLast a)

/-- The oldest repetition goes on from ECLK `at'`, when it is past its completion point: its next push, or its end, after which the
one behind it does; the last one makes the final transfer (R174, R177). -/
def nextPush (fuel : Nat) (d : Dev) (n s at' : Nat) : Dev :=
  match fuel, (sslot d n s).act with
  | f + 1, some a =>
    match a.reps with
    | r :: rest => match r.pushes with
      | some (z :: _) => requestPush d (.se n s) z.1 a.kennel z.2 (max at' r.complAt + 1)
      | some [] => nextPush f (modAct d n s (fun a => { a with reps := rest, repDone := a.repDone + 1 })) n s (max at' r.complAt)
      | none => d
    | [] => if a.next > a.desc.rep then finalTransfer d n s at' else d
  | _, _ => d

/-- More than the repetitions that a slot can have in hand. -/
def manyReps (d : Dev) (n s : Nat) : Nat := match (sslot d n s).act with | some a => a.reps.length + 1 | none => 0

/-- A push of a slot was accepted at ECLK `at'`. -/
def sePushed (d : Dev) (n s at' : Nat) : Dev :=
  let d := modAct d n s (fun a => { a with reps := match a.reps with
    | r :: rest => { r with pushes := r.pushes.map (List.drop 1) } :: rest
    | [] => [] })
  nextPush (manyReps d n s) d n s at'

/-- Disarm by generation (R175); false is SC_STATE. -/
def disarm (d : Dev) (n s gen : Nat) : Dev × Bool :=
  let x := sslot d n s
  let active : Dev × Bool := match x.act with
    | some a => if a.gen = gen && !a.started then (leaveActive d n s (if a.desc.dormant then beatNow d + 1 else a.plan), true) else (d, false)
    | none => (d, false)
  match x.shd with
  | some z => if z.2.1 = gen then (modSlot d n s (fun x => { x with shd := none }), true) else active
  | none => active

/-! ### Pops (R177, R188) -/

/-- A repetition's roles at the queues follow those of the repetitions before it. -/
def roleOf (m role : Nat) : Nat := 100 * m + role

/-- The next repetition of a slot begins: it requests all its pops in one ECLK. -/
def repPops (d : Dev) (n s : Nat) : Dev :=
  match (sslot d n s).act with
  | none => d
  | some a =>
    let pops := popList d a.desc
    if !(nextDue a && aligned d a a.next && popRoom d n a) then d
    else
      let d := modAct d n s (fun a => { a with next := a.next + 1, started := a.started || !pops.isEmpty
                                               reps := a.reps ++ [{ num := a.next, popsLeft := pops.length, lastArrival := d.eclk }] })
      each d pops (fun d z => requestPop d (.se n s) (roleOf a.next z.1) z.2 a.kennel d.eclk)

/-- A biscuit arrives at a slot. -/
def seArrive (d : Dev) (n s role : Nat) (b : DWord) (at' : Nat) : Dev :=
  modRep d n s (role / 100) (fun r => { r with
    biscuits := r.biscuits ++ [(role % 100, b)], popsLeft := r.popsLeft - 1, lastArrival := max r.lastArrival at' })

end Sys2Proof.Machine
end

