-- ==== Sys2Proof/Machine/RepOps.lean ====
section
/-! DEFINITION. The work of a repetition: its checks, reads, watches, run-ahead, leashes, writes and completion (R168, R177 to R180,
R193 to R204, R245, R281 to R284). -/

namespace Sys2Proof.Machine

/-! ### Checks of biscuits (R178, R192, R193) -/

/-- A biscuit in use as the source or the destination: its space and reserved bits, its engine (R6), and its buffer, of which
`rows` rows of `len` bytes are touched. -/
def placeCheck (d : Dev) (k : Nat) (x : Desc) (r : Rep) (src : Bool) (rows len : Nat) : Option Sc :=
  let p := placeOf x r src
  let last := (if src then srcRow x r (rows - 1) else dstRow x r (rows - 1)) + len
  match p.buf with
  | none => none
  | some (_, hi) =>
    (check (!(isStore p.sp || p.sp == 4) || !engineRsvd p.sp p.eng) .format).or <|
    (check (isStore p.sp && !unitExists d p.sp p.eng) .range).or <|
    (check (rows != 0 && (last > hi || (isStore p.sp && last > spaceBytes p.sp))) .range).or <|
    (check (isStore p.sp && !ownsUnit d p.sp p.eng k) .denied)

/-- Window offset of an MCAST repetition, in units (R193). -/
def mcastOfs (d : Dev) (x : Desc) (r : Rep) : Int :=
  if fld x.w2 63 60 = 15 && !(litMembers (litter d x.litter)).isEmpty then bAddr (biscuit r 2) else rowUnit x false r.num 0

/-- The biscuits of a litter's members: `SPACE` 0x5, all alike, and windows within their spaces (R178, R192, R193). -/
def mcastCheck (d : Dev) (x : Desc) (r : Rep) : Option Sc :=
  let l := litter d x.litter
  let bs := (r.biscuits.filter (fun z => z.1 ≥ 2)).map (·.2)
  let b0 := bs.headD 0
  let o := mcastOfs d x r
  (check (bs.any (fun b => bSpace b != 5 || bEng b != 0 || bAddr b != bAddr b0 || bLen b != bLen b0)) .format).or <|
  (check (!bs.isEmpty && (litBase l + bAddr b0 + bLen b0) * 64 > spaceBytes (litSpace l)) .range).or <|
  (check (!bs.isEmpty && (o < bAddr b0 || o + ((x.rows - 1) * x.dstPitch + x.rowLen : Nat) > (bAddr b0 + bLen b0 : Nat))) .range)

/-- The check of a repetition's biscuits; one that moves no byte uses none (R178, R179, log 94). A gather's source rows are checked as
their indices come. -/
def repCheck (d : Dev) (k : Nat) (x : Desc) (r : Rep) : Option Sc :=
  if x.rows = 0 then none
  else (placeCheck d k x r true (if x.kind = 3 then 0 else x.rows) (rowBytes x)).or <|
    if x.kind = 2 then mcastCheck d x r
    else if x.kind = 4 && x.w2 = 0 then none
    else placeCheck d k x r false x.rows (dstRowBytes x)

/-! ### Leashes (R203, R204, R241, R244) -/

/-- The leash of repetition m fires: its reads, entries and staged bytes go, and its biscuits pass to the dormant descriptor of
`FB_SLOT`; without one, the module has a fault. -/
def fireLeash (d : Dev) (n s m : Nat) : Dev :=
  match (sslot d n s).act with
  | none => d
  | some a =>
    match a.reps.find? (fun r => r.num == m) with
    | none => d
    | some r =>
      let d := cancelReads (modSe d n (fun x => { x with leashCnt := inc x.leashCnt })) n s (· == m)
      let d := trimWatches (modAct d n s (fun a => { a with reps := a.reps.filter (fun r => r.num != m) })) n s
      let fb := a.desc.fbSlot
      if a.desc.fbEn && fb != s && (sslot d n fb).act.any (fun f => f.waiting && f.kennel == a.kennel) then
        let d := modAct d n fb (fun f => { f with waiting := false, plan := repStart a m, next := 1, reps := [{ num := 0, biscuits := r.biscuits, lastArrival := d.eclk }] })
        let d := modAct d n s (fun a => { a with repDone := a.repDone + 1, fallbacks := a.fallbacks + 1 })
        if a.reps.head?.any (fun y => y.num == m) then nextPush (manyReps d n s) d n s d.eclk else d
      else taskFault d a.kennel .task

/-- A read of repetition m that meets an error fires its leash, or faults its task. -/
def readFailed (d : Dev) (n s m : Nat) : Dev :=
  match (sslot d n s).act with
  | none => d
  | some a => if a.desc.leash ≠ 0 then fireLeash d n s m else taskFault d a.kennel .task

/-- Repetition r has a read that issued before its leash's boundary and whose bytes have not come. -/
def leashLate (a : Active) (r : Rep) : Bool :=
  r.pieces.any (fun p => p.bytes.isNone && p.issued.any (· < repStart a r.num + a.desc.leash))

/-- The boundary of a leash has come with reads that are not staged (R203). -/
def leashExpiry (d : Dev) (n s : Nat) : Dev :=
  match (sslot d n s).act with
  | none => d
  | some a =>
    match a.reps.find? (fun r => a.desc.leash != 0 && repStart a r.num + a.desc.leash ≤ beatNow d && leashLate a r) with
    | some r => fireLeash d n s r.num
    | none => d

/-! ### Watch entries (R198, R200) -/

def blockWatched (d : Dev) (m k b : Nat) : Bool := (mdie d m).watches.any (isWatch k b)
def slotKennel (d : Dev) (n s : Nat) : Nat := match (sslot d n s).act with | some a => a.kennel | none => 0

/-- A prefetch that waits at M-die m can take its entry. -/
def waiterReady (d : Dev) (m : Nat) (z : Nat × Nat × Nat × Nat) : Bool :=
  let k := slotKennel d z.2.1 z.2.2.1
  z.1 == m && (blockWatched d m k z.2.2.2 || watchRoom d m k)

/-- Take an entry for a read at an address, or wait behind the prefetches that came before. -/
def takeEntry (d : Dev) (n s k addr : Nat) : Dev × Bool :=
  let m := homeOf d k addr
  let b := blockNo addr
  let me := (m, n, s, b)
  if blockWatched d m k b || (watchRoom d m k && !(d.watchQ.takeWhile (· != me)).any (waiterReady d m)) then
    (watchTake { d with watchQ := d.watchQ.filter (· != me) } m k b n s)
  else ({ d with watchQ := if d.watchQ.contains me then d.watchQ else d.watchQ ++ [me] }, false)

def countWait (d : Dev) (n : Nat) : Dev := modSe d n (fun x => { x with pfWait := inc x.pfWait })

/-! ### Reads (R177, R195 to R197, R202, R281, R283, R287) -/

/-- Blocks of 32 elements of a REDUCE repetition: the first, and how many. -/
def redBlock0 (x : Desc) (r : Rep) : Nat := (x.elem0 * 16 + r.num * redElems x) / 32
def redBlocks (x : Desc) : Nat := redElems x / 32

/-- Freeze bits of the repetition's blocks, read from the block map (R283). -/
def readFrozen (d : Dev) (k : Nat) (x : Desc) (r : Rep) (ecc : Ecc) : Dev × MemClass × List Nat :=
  if !(x.kind = 4 && x.freezeEn && x.rows ≠ 0) then (d, .ok, [])
  else
    let b0 := redBlock0 x r
    let (d, c, bs) := memReadAll d k (x.mapAddr * 64 + b0 / 4) (ceilDiv (b0 % 4 + redBlocks x) 4) ecc
    (d, c, ((List.range (redBlocks x)).map (b0 + ·)).filter (fun j => Nat.testBit ((bs.getD (j / 4 - b0 / 4) 0).toNat) (2 * (j % 4))))

/-- The repetition's biscuits have arrived: they are checked, and its reads begin; false where they do not. -/
def beginReads (d : Dev) (n s : Nat) (a : Active) (r : Rep) (ecc : Ecc) : Dev × Bool :=
  match repCheck d a.kennel a.desc r with
  | some c => (endDesc d n s c, false)
  | none =>
    match readFrozen d a.kennel a.desc r ecc with
    | (d, .ok, fz) => (modRep (modSlot d n s (fun x => { x with aheadStop := false })) n s r.num (fun r => { r with reading := true, frozen := fz }), true)
    | (d, .denied, _) => (endDesc d n s .denied, false)
    | (d, _, _) => (readFailed d n s r.num, false)

/-- The row that is being written: that of the oldest byte still staged or under way. -/
def rowNow (x : Desc) (r : Rep) : Nat := (match r.pieces with | p :: _ => p.off | [] => r.cursor) / rowBytes x

/-- Indices that a gather may read now: up to 64 ahead of the row that it is writing (R196). -/
def indicesDue (x : Desc) (r : Rep) : Nat := min x.rows (rowNow x r + 64) - r.indices.length

/-- Read a gather's next indices; a read of them from memory is served with the command that issues it (log 105). -/
def readIndices (d : Dev) (n s : Nat) (a : Active) (r : Rep) (ecc : Ecc) : Dev × Bool :=
  let x := a.desc
  let isp := fld x.w5 63 60
  let addr := fld x.w5 53 16 * 64 + 4 * r.indices.length
  let m := indicesDue x r
  let go (d : Dev) (bs : List Byte) : Dev × Bool :=
    (modAct (modRep d n s r.num (fun r => { r with indices := r.indices ++ elems m 4 bs })) n s (fun a => { a with started := true }), true)
  if m = 0 then (d, false)
  else if isStore isp then go d (Mem.read (store d isp (unitOf isp (fld x.w5 59 54))) addr (4 * m))
  else match memReadAll d a.kennel addr (4 * m) ecc with
    | (d, .ok, bs) => go d bs
    | (d, .denied, _) => (endDesc d n s .denied, false)
    | (d, _, _) => (readFailed d n s r.num, false)

/-- The table row of row i of the repetition; none for padding (R195). -/
def tableRow (x : Desc) (r : Rep) (i : Nat) : Option Nat :=
  if x.kind = 3 then (let t := r.indices.getD i 0; if t = 0xFFFFFFFF then none else some t) else some i

/-- A gather stops at row i: its index lies beyond the table, or its row beyond the buffer of the source biscuit (R178, R195, log 95). -/
def stopsAt (x : Desc) (r : Rep) (i : Nat) : Bool :=
  x.kind = 3 && (match tableRow x r i with
    | none => false
    | some t => t ≥ x.tableRows || (match (placeOf x r true).buf with
        | some (_, hi) => srcRow x r t + rowBytes x > hi || (isStore (placeOf x r true).sp && srcRow x r t + rowBytes x > spaceBytes (placeOf x r true).sp)
        | none => false))

/-- Where the rows of a source come from. -/
def rowsFrom (d : Dev) (x : Desc) (r : Rep) : PieceSrc :=
  let p := placeOf x r true
  let md := fld x.w1 15 4
  if isStore p.sp then .store else if p.sp = 6 && md ≠ d.epochRun.moduleNo then .peer md else .memory

/-- Run-ahead bytes outside the range of the first row are discarded as its read issues (R202). -/
def clipAhead (k : Nat) (src : PieceSrc) (row : Int) (len : Nat) (x : SSlot) : SSlot :=
  let lo := max (x.aheadAt : Int) row
  let hi := min (x.aheadAt + x.ahead.length : Int) (row + len)
  if src = .memory && x.aheadKennel = k && lo < hi then { x with ahead := (x.ahead.drop (lo - x.aheadAt).toNat).take (hi - lo).toNat, aheadAt := lo.toNat }
  else { x with ahead := [] }

/-- A read joins the repetition. -/
def addPiece (d : Dev) (n s m : Nat) (p : Piece) : Dev :=
  modAct (modRep d n s m (fun r => { r with pieces := r.pieces ++ [p], cursor := r.cursor + p.len })) n s (fun a => { a with started := true })

/-- A read of memory arrives at its M-die, with its deadline and its place in the order of arrival (R245). -/
def arrive (d : Dev) (a : Active) (m : Nat) (p : Piece) : Piece :=
  { p with issued := some (beatNow d), deadline := if a.desc.leash ≠ 0 then repStart a m + a.desc.leash else beatNow d + 64, order := d.arrived }

/-- The READ_REQ flit of a read of another module, of one piece of at most 64 KiB (log 105), and its place among the reads outstanding
(R268, R287). -/
def sendPeer (d : Dev) (n s : Nat) (a : Active) (m : Nat) (p : Piece) (md : Nat) : Dev :=
  let rid := leastFree d.reads.keys
  let route := Tbl.get 0 d.epochRun.routes md
  let len := ceilDiv p.len 256
  let f : Flit := { ftype := 6, tc := 3, ktag := a.kennel, tsf := put 64 52 md ||| put 64 40 d.epochRun.moduleNo ||| put 64 28 rid, pay := leBytes 5 (p.addr / 64) ++ [0] ++ leBytes 2 len ++ zeros 248 }
  let d := { d with reads := Tbl.set none d.reads rid (some { kennel := a.kennel, engine := n, slot := s, rep := m, off := p.off, len := len, beat := beatNow d }) }
  if route ≥ 16 then sendFlit d (route % 16) f else d

/-- `RID` has 12 bits: no more reads are outstanding (R287). -/
def ridFree (d : Dev) (x : Desc) (r : Rep) : Bool := match rowsFrom d x r with | .peer _ => d.reads.length < 4096 | _ => true

/-- The next read of the repetition, within its row and one block of 64 KiB, as staging allows: from a store at once; from memory
under a watch entry, or from the run-ahead's bytes; from another module by a request. False where none can issue. -/
def nextRead (d : Dev) (n s : Nat) (a : Active) (r : Rep) : Dev × Bool :=
  let x := a.desc
  let i := r.cursor / rowBytes x
  let o := r.cursor % rowBytes x
  let room := min (rowBytes x - o) (stageRoom d n / 64 * 64)
  if stopsAt x r i then (modRep d n s r.num (fun r => { r with stopRow := some i }), true)
  else match tableRow x r i with
  | none => if room = 0 then (d, false) else
      (addPiece d n s r.num { off := r.cursor, addr := 0, len := min room 65536, src := .store, issued := some (beatNow d), bytes := some (zeros (min room 65536)) }, true)
  | some t =>
    let row := srcRow x r t
    let src := rowsFrom d x r
    let d := if r.cursor = 0 then modSlot d n s (clipAhead a.kennel src row (rowBytes x)) else d
    match src with
    | .store =>
      let p := placeOf x r true
      let len := min room 65536
      if room = 0 then (d, false) else
        (addPiece d n s r.num { off := r.cursor, addr := (row + o).toNat, len := len, src := .store, issued := some (beatNow d),
                                bytes := some (Mem.read (store d p.sp (unitOf p.sp p.eng)) (row + o).toNat len) }, true)
    | .memory =>
      let y := sslot d n s
      let early := row + o == y.aheadAt && !y.ahead.isEmpty
      match inSpace (row + o) (rowBytes x - o) with
      | none => (endDesc d n s .denied, false)
      | some addr =>
        let most := min (65536 - addr % 65536) (if early then min y.ahead.length (rowBytes x - o)
          else if y.ahead.isEmpty then room else min room (y.aheadAt - addr))
        let p : Piece := { off := r.cursor, addr := addr, len := most, src := .memory }
        if most = 0 then (d, false)
        else if early then
          (addPiece { modSlot d n s (fun y => { y with ahead := y.ahead.drop most, aheadAt := y.aheadAt + most }) with arrived := d.arrived + 1 } n s r.num
            { arrive d a r.num p with bytes := some (y.ahead.take most) }, true)
        else match takeEntry d n s a.kennel addr with
          | (d, true) => (addPiece { d with arrived := d.arrived + 1 } n s r.num (arrive d a r.num p), true)
          | (d, false) => (addPiece (countWait d n) n s r.num p, true)
    | .peer md =>
      match inSpace (row + o) (rowBytes x - o) with
      | none => (endDesc d n s .denied, false)
      | some addr =>
        let p : Piece := { off := r.cursor, addr := addr, len := min room (65536 - addr % 65536), src := .peer md, issued := some (beatNow d) }
        if room = 0 || !ridFree d x r then (d, false)
        else (addPiece (sendPeer d n s a r.num p md) n s r.num p, true)

/-! ### Writes (R177, R193, R271, R283, R285) -/

/-- Place in the members' windows of a byte of the repetition's rows. -/
def mcastByte (d : Dev) (x : Desc) (r : Rep) (off : Nat) : Int :=
  (mcastOfs d x r + (off / rowBytes x * x.dstPitch : Nat)) * 64 + (off % rowBytes x : Nat)

/-- MCAST flits of staged bytes at place `ofs`, up to four units each (R285, Table 8-5). -/
def mcastFlits (fuel : Nat) (tn lit k ofs : Nat) (first last : Bool) (origin : Nat × Nat) (bs : List Byte) : List Flit :=
  match fuel with
  | 0 => []
  | f + 1 =>
    if bs.isEmpty then []
    else
      let b := bs.take 256
      let rest := bs.drop 256
      { ftype := 5, tc := 2, ktag := k, pay := b ++ zeros (256 - b.length), origin := some origin,
        tsf := put 64 52 tn ||| put 64 42 lit ||| putB 64 41 first ||| putB 64 40 (last && rest.isEmpty) ||| put 64 38 (b.length / 64 - 1) ||| put 64 0 (ofs % 2 ^ 38) }
      :: mcastFlits f tn lit k (ofs + 4) false last origin rest

/-- Mark of the flits of a repetition at its origin. -/
def ownFlit (n s m : Nat) : Nat × Nat := (16 + 32 * n + s, m)

/-- Bytes of an MCAST repetition go into every local window and into the tree (R193, R285). -/
def mcastWrite (d : Dev) (n s : Nat) (a : Active) (r : Rep) (off : Nat) (bs : List Byte) : Dev :=
  let x := a.desc
  let l := litter d x.litter
  let at' := mcastByte d x r off
  let d := each d (litMembers l) (fun d u => storeWrite d (litSpace l) u ((litBase l : Int) * 64 + at').toNat bs)
  if !litTreeEn l then d
  else
    let fs := mcastFlits 1025 (litTree l) x.litter a.kennel ((at' / 64) % 2 ^ 38).toNat (off == 0) (off + bs.length == repBytes x r) (ownFlit n s r.num) bs
    each d (portsOf (tree d (litTree l)).down) (fun d p => each d fs (fun d f => sendFlit d p f))

/-- The link layer has accepted every flit that the repetition sent into its tree (R193); it accepts a flit when the flit leaves for
the line (log 104). -/
def flitsAccepted (d : Dev) (n s : Nat) (x : Desc) (r : Rep) : Bool :=
  let l := litter d x.litter
  !litTreeEn l || (portsOf (tree d (litTree l)).down).all (fun p => !(port d p).link.q2.any (fun f => f.origin == some (ownFlit n s r.num)))

/-- Staged bytes go to a store, or into a litter's windows. -/
def writeOut (d : Dev) (n s : Nat) (a : Active) (r : Rep) (off : Nat) (bs : List Byte) : Dev :=
  if a.desc.kind = 2 then mcastWrite d n s a r off bs
  else
    let p := placeOf a.desc r false
    storeWrite d p.sp (unitOf p.sp p.eng) (dstByte a.desc r off).toNat bs

/-- Chunks of a REDUCE repetition: 64 elements, or 16 for XSUM (R271). -/
def chunkLen (x : Desc) : Nat := if x.opc = 2 then 16 else 64
def chunkCount (x : Desc) : Nat := redElems x / chunkLen x
def chunkBytes (x : Desc) : Nat := chunkLen x * inBytes x

/-- The chunk lies wholly in frozen blocks and is not sent (R283). -/
def chunkFrozen (x : Desc) (r : Rep) (c : Nat) : Bool :=
  let b0 := (x.elem0 * 16 + r.num * redElems x + c * chunkLen x) / 32
  (List.range (max 1 (chunkLen x / 32))).all (fun i => r.frozen.contains (b0 + i))

/-- The first chunk from c on that is sent. -/
def nextLive (x : Desc) (r : Rep) (fuel c : Nat) : Option Nat :=
  match fuel with
  | 0 => none
  | f + 1 => if c ≥ chunkCount x then none else if chunkFrozen x r c then nextLive x r f (c + 1) else some c

def nextChunk (x : Desc) (r : Rep) : Option Nat := nextLive x r (chunkCount x + 1) r.nextChunk

/-- Staged bytes of a REDUCE that no chunk left to send needs are let go. -/
def dropSpent (x : Desc) (r : Rep) : Rep :=
  let spent (p : Piece) : Bool := p.bytes.isSome && (match nextChunk x r with | some c => p.off + p.len ≤ c * chunkBytes x | none => true)
  { r with pieces := r.pieces.filter (fun p => !spent p) }

/-- What the writing repetition has staged at its front is written, where its destination is no memory. -/
def flush (fuel : Nat) (d : Dev) (n s : Nat) : Dev :=
  match fuel, (sslot d n s).act with
  | f + 1, some a =>
    match writer a with
    | none => d
    | some r =>
      if a.desc.kind = 4 then modRep d n s r.num (dropSpent a.desc)
      else if destMem a.desc r then d
      else match r.pieces with
        | [] => d
        | p :: rest => match p.bytes with
          | some bs => flush f (modRep (writeOut d n s a r p.off bs) n s r.num (fun r => { r with pieces := rest })) n s
          | none => d
  | _, _ => d

/-- A slot writes what it can and lets go of the watch entries that it no longer needs. -/
def goOn (d : Dev) (n s : Nat) : Dev :=
  let pieces := match (sslot d n s).act with | some a => (a.reps.map (fun r => r.pieces.length)).sum | none => 0
  trimWatches (flush (pieces + 1) d n s) n s

/-! ### The engine's choice of a slot (R168) -/

/-- The slot has a read to issue and staging for it. -/
def readReady (d : Dev) (n : Nat) (a : Active) : Bool :=
  match reader a with
  | none => false
  | some r => !r.reading || (64 ≤ stageRoom d n && ridFree d a.desc r && (a.desc.kind != 3 || r.cursor / rowBytes a.desc < r.indices.length || indicesDue a.desc r != 0))

/-- The root's repetition has every unfrozen chunk of its range. -/
def rootDone (x : Desc) (r : Rep) : Bool := (List.range (chunkCount x)).all (fun c => chunkFrozen x r c || r.doneChunks.contains c)

/-- The slot of a root's own REDUCE that receives the tree's result (R281). -/
def atRoot (d : Dev) (x : Desc) : Bool := x.kind == 4 && x.cidx == 0 && (tree d x.tree).root

/-- A root has block map lines to write (R284). -/
def mapDue (d : Dev) (x : Desc) (r : Rep) : Bool :=
  atRoot d x && x.poisonEn && x.rows != 0 && r.reading && !r.mapped && (nextChunk x r).isNone && rootDone x r && r.results.isEmpty

/-- Results that a root can write: whole lines, or what is left at the end (R220, R284). -/
def resultDue (x : Desc) (r : Rep) : Option WPiece :=
  match r.results with
  | w :: _ => if (w.addr + w.bytes.length) % 64 = 0 || r.results.length > 1 || rootDone x r then some w else none
  | [] => none

/-- The slot has a write to memory to issue. -/
def writeReady (d : Dev) (a : Active) : Bool :=
  match writer a with
  | none => false
  | some r => (a.desc.kind != 4 && destMem a.desc r && r.pieces.head?.any (fun p => p.bytes.isSome)) || (resultDue a.desc r).isSome || mapDue d a.desc r

def slotReady (d : Dev) (n s : Nat) : Bool := (sslot d n s).act.any (fun a => readReady d n a || writeReady d a)

/-- The slot that the engine serves next: the lowest-numbered ready one above the one it served last, after 31 from 0. -/
def nextSlot (d : Dev) (n : Nat) : Option Nat :=
  ((List.range 32).map (fun i => ((se d n).last + 1 + i) % 32)).find? (slotReady d n)

def served (d : Dev) (n s : Nat) : Dev := modSe d n (fun x => { x with last := s })

/-- Checks, then reads one after the other as staging allows. -/
def readOn (fuel : Nat) (d : Dev) (n s : Nat) (ecc : Ecc) : Dev :=
  match fuel, (sslot d n s).act with
  | f + 1, some a =>
    match reader a with
    | none => d
    | some r =>
      if !r.reading then
        match beginReads d n s a r ecc with
        | (d, true) => readOn f d n s (if a.desc.kind = 4 then .clean else ecc)
        | (d, false) => d
      else if a.desc.kind = 3 && r.indices.length ≤ r.cursor / rowBytes a.desc then
        match readIndices d n s a r ecc with
        | (d, true) => readOn f d n s .clean
        | (d, false) => d
      else match nextRead d n s a r with
        | (d, true) => readOn f (goOn d n s) n s ecc
        | (d, false) => d
  | _, _ => d

/-- Once every biscuit has arrived, the repetition checks them and issues its reads, as the engine serves the slot and staging
allows: one command issues all that staging has room for (log 96). `ecc` is what the codes find on what it reads of an index array or a block map. -/
def repReads (d : Dev) (n s : Nat) (ecc : Ecc) : Dev :=
  match (sslot d n s).act with
  | none => d
  | some a => if nextSlot d n = some s && readReady d n a then readOn (4 * a.desc.rows * a.desc.rowLen + 4) (served d n s) n s ecc else d

/-! ### Reads at the M-die (R199, R219, R245) -/

/-- One read goes before another: the earlier deadline, then the order of arrival. -/
def goesFirst (p q : Piece) : Bool := p.deadline < q.deadline || (p.deadline == q.deadline && p.order < q.order)

/-- Reads of a descriptor that wait at an M-die, with their repetitions. -/
def slotReads (a : Active) : List (Nat × Piece) := a.reps.flatMap (fun r => (r.pieces.filter atMdie).map (fun p => (r.num, p)))

/-- Reads that wait at M-die m. -/
def mdieReads (d : Dev) (m : Nat) : List Piece :=
  d.ses.flatMap (fun e => e.2.slots.flatMap (fun q => match q.2.act with
    | some a => ((slotReads a).map (·.2)).filter (fun p => homeOf d a.kennel p.addr == m)
    | none => []))

/-- The slot's read that goes first. -/
def firstRead (a : Active) : Option (Nat × Piece) :=
  (slotReads a).foldl (fun b z => match b with
    | none => some z
    | some y => if goesFirst z.2 y.2 then some z else some y) none

/-- The bytes of a read are staged; one made again is counted (R199). -/
def stage (d : Dev) (n s m : Nat) (p : Piece) (bs : List Byte) : Dev :=
  let d := if p.again then modSe d n (fun x => { x with pfRefetch := inc x.pfRefetch }) else d
  goOn (modRep d n s m (fun r => { r with pieces := r.pieces.map (fun q => if q.off = p.off then { q with bytes := some bs, again := false } else q) })) n s

/-- The slot's first read is served at its home M-die, unless another read goes before it there. -/
def seMemRead (d : Dev) (n s : Nat) (ecc : Ecc) : Dev :=
  match (sslot d n s).act with
  | none => d
  | some a =>
    match firstRead a with
    | none => d
    | some (m, p) =>
      if (mdieReads d (homeOf d a.kennel p.addr)).any (fun q => goesFirst q p) then d
      else match memRead d a.kennel p.addr p.len ecc with
        | (d, .ok, bs) => stage d n s m p bs
        | (d, .denied, _) => endDesc d n s .denied
        | (d, _, _) => readFailed d n s m

/-! ### Run-ahead (R201, R202) -/

/-- The run-ahead goes no further. -/
def stopAhead (d : Dev) (n s : Nat) : Dev := modSlot d n s (fun x => { x with aheadStop := true })

/-- The page lets the run-ahead go on: mapped readable, of the same kennel, in a tier or under migration. -/
def aheadPage (d : Dev) (k addr : Nat) : Bool :=
  let st := (page d k (addr / pageBytes)).st
  !tableBad d k addr && canRead d k addr && st != .zero && st != .lost

/-- First byte after the source of a repetition. -/
def sourceEnd (x : Desc) (r : Rep) : Int := srcRow x r (if x.kind = 3 then x.tableRows else x.rows)

/-- Fetch up to 4 KiB beyond the repetition's source into free staging, under a watch entry (R201, log 106). -/
def runAhead (d : Dev) (n s : Nat) (ecc : Ecc) : Dev :=
  let y := sslot d n s
  match y.act with
  | none => d
  | some a =>
    match a.reps.getLast? with
    | none => d
    | some r =>
      let from' := sourceEnd a.desc r
      let next := from' + y.ahead.length
      let left := a.desc.runahead * 4096 - y.ahead.length
      if left = 0 || y.aheadStop || !readsIssued a.desc r || (placeOf a.desc r true).sp ≠ 4 || !(y.ahead.isEmpty || from' == y.aheadAt) || stageRoom d n = 0 then d
      else match inSpace next 1 with
        | none => stopAhead (modSe d n (fun e => { e with pfStop := inc e.pfStop })) n s
        | some addr =>
          if !aheadPage d a.kennel addr then stopAhead (modSe d n (fun e => { e with pfStop := inc e.pfStop })) n s
          else
            let len := min (min 4096 left) (min (stageRoom d n) (65536 - addr % 65536))
            let new := !d.watchQ.contains (homeOf d a.kennel addr, n, s, blockNo addr)
            match takeEntry d n s a.kennel addr with
            | (d, false) => if new then countWait d n else d
            | (d, true) => match memAccess false d a.kennel addr len ecc with
              | (d, .ok, bs) => modSlot d n s (fun y => { y with aheadKennel := a.kennel, aheadAt := if y.ahead.isEmpty then addr else y.aheadAt, ahead := y.ahead ++ bs })
              | (d, _, _) => trimWatches (stopAhead d n s) n s

/-- The prefetch that has waited longest for an entry that is free now takes it and issues (R200). -/
def watchGrant (d : Dev) (m : Nat) : Dev :=
  match d.watchQ.find? (waiterReady d m) with
  | none => d
  | some (m', n, s, b) =>
    match (sslot d n s).act with
    | none => { d with watchQ := d.watchQ.filter (· != (m', n, s, b)) }
    | some a =>
      let mine (p : Piece) : Bool := p.src == .memory && unwatched p && blockNo p.addr == b
      if a.reps.any (fun r => r.pieces.any mine) then
        let d := (watchTake { d with watchQ := d.watchQ.filter (· != (m', n, s, b)) } m a.kennel b n s).1
        modAct { d with arrived := d.arrived + 1 } n s (fun a => { a with reps := a.reps.map (fun r => { r with pieces := r.pieces.map (fun p => if mine p then arrive d a r.num p else p) }) })
      else runAhead d n s .clean

/-! ### REDUCE (R271, R272, R277, R281 to R284) -/

/-- n staged bytes of a repetition from byte `lo` of its rows, where all of them are. -/
def stagedRange (r : Rep) (lo n : Nat) : Option (List Byte) :=
  let bs := r.pieces.flatMap (fun p => ((p.bytes.getD []).drop (lo - p.off)).take (min (p.off + p.len) (lo + n) - max p.off lo))
  if bs.length = n then some bs else none

/-- Elements of a chunk from its bytes, widened to FP32 where BF16 (R271, R281). -/
def chunkOf (x : Desc) (bs : List Byte) : Chunk :=
  let ws := (elems (chunkLen x) (inBytes x) bs).map (fun v => if x.inFmt = 1 then widen bf16 v else BitVec.ofNat 32 v)
  if x.opc = 2 then .strict (ws.map (fun v => Strict.addFp {} (decW v))) else .words ws

/-- First element of a chunk, ÷ 16, as `ELEM` gives it. -/
def chunkElem (x : Desc) (r : Rep) (c : Nat) : Nat := x.elem0 + (r.num * redElems x + c * chunkLen x) / 16

/-- A REDUCE slot sends its next chunk into its own adder, for one local credit (R272, R277, R283). A chunk refused as late keeps the
repetition from completing (log 107). -/
def localContribution (d : Dev) (n s : Nat) : Dev :=
  match (sslot d n s).act with
  | none => d
  | some a =>
    let x := a.desc
    let t := tree d x.tree
    match writer a with
    | none => d
    | some r =>
      match if x.kind = 4 && r.reading then nextChunk x r else none with
      | none => d
      | some c =>
        match stagedRange r (c * chunkBytes x) (chunkBytes x) with
        | none => d
        | some bs =>
          if !t.en || t.kennel ≠ a.kennel then endDesc d n s .denied
          else if Tbl.get 0 t.localCredit x.cidx = 0 then d
          else
            let d := modTree d x.tree (fun t => { t with localCredit := Tbl.modify 0 t.localCredit x.cidx (· - 1) })
            let d := modRep d n s r.num (fun r => { r with nextChunk := c + 1 })
            match contribute d x.tree 16 x.cidx x.step x.coll (chunkElem x r c) (chunkOf x bs) with
            | (d, .rejected) => taskFault d a.kennel .task
            | (d, .late) => goOn (modRep d n s r.num (fun r => { r with refused := true })) n s
            | (d, .ok) => goOn d n s

/-- A value as the root writes it (R284, R61, R63); with the poison mark of R65. -/
def resultBits (opc outFmt : Nat) (v : Word) : List Byte × Bool :=
  let sp := opc < 5 && specialW v
  if outFmt = 1 && opc < 5 then
    let h := toBf16 .rne v
    (leBytes 2 h, (bf16.decode h).special)
  else (leBytes 4 v.toNat, sp)

def chunkResults (opc outFmt : Nat) (c : Chunk) : List (List Byte × Bool) :=
  match c with
  | .words ws => ws.map (resultBits opc outFmt)
  | .strict ss => ss.map (fun a =>
      if outFmt = 1 then let h := bf16.encode a.value; (leBytes 2 h, (bf16.decode h).special)
      else let w := fp32.encode a.value; (leBytes 4 w, (fp32.decode w).special))

/-- The slot, the repetition and the chunk of a root that await an entry's result. -/
def rootSlot (d : Dev) (e : AEntry) : Option (Nat × Nat × Rep × Nat) :=
  firstSome d.ses (fun z => firstSome z.2.slots (fun q => match q.2.act with
    | some a =>
      let x := a.desc
      if x.kind == 4 && x.tree == e.tree && x.cidx == 0 && a.kennel == e.kennel && x.coll == e.coll && x.step % 4096 == e.step then
        firstSome a.reps (fun r =>
          let c := (e.elem - chunkElem x r 0) * 16 / chunkLen x
          if chunkElem x r 0 ≤ e.elem && c < chunkCount x && !r.doneChunks.contains c then some (z.1, q.1, r, c) else none)
      else none
    | none => none))

/-- Place in the root's destination of element e of a repetition (R284). -/
def resultByte (x : Desc) (r : Rep) (e : Nat) : Int :=
  let perRow := rowBytes x / inBytes x
  dstRow x r (e / perRow) + (e % perRow * outBytes x : Nat)

/-- Bytes join the run before them where they follow it without a gap. -/
def joinRun (l : List WPiece) (a : Nat) (bs : List Byte) : List WPiece :=
  match l with
  | [] => [⟨a, bs⟩]
  | w :: r => match r with
    | [] => if w.addr + w.bytes.length = a then [⟨w.addr, w.bytes ++ bs⟩] else [w, ⟨a, bs⟩]
    | _ => w :: joinRun r a bs

/-- Deliver a completed entry at the root: the results of its unfrozen elements at their places, which in a store are written at once
and in memory wait for the M-die (R284). -/
def deliverEntry (d : Dev) (e : AEntry) : Dev :=
  match rootSlot d e, e.acc with
  | some (n, s, r, c), some v =>
    match (sslot d n s).act with
    | none => d
    | some a =>
      let x := a.desc
      let e0 := c * chunkLen x
      let block (i : Nat) : Nat := (x.elem0 * 16 + r.num * redElems x + i) / 32
      let live := ((chunkResults x.opc x.outFmt v).mapIdx (fun i z => (e0 + i, z))).filter (fun z => !r.frozen.contains (block z.1))
      let spec := (live.filter (fun z => z.2.2)).map (fun z => block z.1)
      let p := placeOf x r false
      if live.any (fun z => resultByte x r z.1 < 0) then endDesc d n s .denied
      else
        let d := if p.sp = 4 then d else each d live (fun d z => storeWrite d p.sp (unitOf p.sp p.eng) (resultByte x r z.1).toNat z.2.1)
        modRep d n s r.num (fun r => { r with
          doneChunks := r.doneChunks ++ [c], poison := r.poison ++ spec.filter (fun b => !r.poison.contains b)
          results := if p.sp = 4 then live.foldl (fun l z => joinRun l (resultByte x r z.1).toNat z.2.1) r.results else r.results })
  | _, _ => d

/-- Deliver what the roots have completed in this command. -/
def deliverRoots (d : Dev) : Dev := each { d with delivered := [] } d.delivered deliverEntry

/-- A byte of the block map with a bit set or cleared. -/
def setBitIn (b : Byte) (i : Nat) (v : Bool) : Byte := if v then b ||| BitVec.ofNat 8 (2 ^ i) else b &&& ~~~(BitVec.ofNat 8 (2 ^ i))

/-- Map lines with the bits of the repetition's blocks: freeze bits as it read them, poison bits by R65, and 0 where frozen (R284). -/
def mapBytes (x : Desc) (r : Rep) (lo : Nat) (bs : List Byte) : List Byte :=
  ((List.range (redBlocks x)).map (redBlock0 x r + ·)).foldl (fun l j =>
    let i := x.mapAddr * 64 + j / 4 - lo
    let b := l.getD i 0
    let b := if x.freezeEn then setBitIn b (2 * (j % 4)) (r.frozen.contains j) else b
    let cold := Nat.testBit b.toNat (2 * (j % 4))
    l.set i (setBitIn b (2 * (j % 4) + 1) (r.poison.contains j && !cold))) bs

/-- What became of a write at the M-die, for its slot. -/
def wroteOut (n s k : Nat) (z : Dev × Wrote) (next : Dev → Dev) : Dev :=
  match z with
  | (d, .denied) => endDesc d n s .denied
  | (d, .lost) => taskFault d k .task
  | (d, _) => next d

/-- The root reads the map lines that cover its repetition and writes them (R284). -/
def writeMap (d : Dev) (n s : Nat) (a : Active) (r : Rep) (ecc : Ecc) : Dev :=
  let x := a.desc
  let first := x.mapAddr * 64 + redBlock0 x r / 4
  let last := x.mapAddr * 64 + (redBlock0 x r + redBlocks x - 1) / 4
  let lo := first / 64 * 64
  match memReadAll d a.kennel lo ((last / 64 + 1) * 64 - lo) ecc with
  | (d, .ok, bs) => wroteOut n s a.kennel (memWriteAll d a.kennel lo (mapBytes x r lo bs) (.stream n s) .clean)
      (fun d => modRep d n s r.num (fun r => { r with mapped := true }))
  | (d, .denied, _) => endDesc d n s .denied
  | (d, _, _) => readFailed d n s r.num

/-- The slot's next write reaches its home M-die: staged bytes of the writing repetition, or a root's results or map lines (R219). `ecc`
is what the codes find on lines that the write merges into, or that the map holds. -/
def seMemWrite (d : Dev) (n s : Nat) (ecc : Ecc) : Dev :=
  match (sslot d n s).act with
  | none => d
  | some a =>
    if !(nextSlot d n = some s && writeReady d a) then d
    else
      let d := served d n s
      match writer a with
      | none => d
      | some r =>
        match resultDue a.desc r with
        | some w => wroteOut n s a.kennel (memWriteAll d a.kennel w.addr w.bytes (.stream n s) ecc)
            (fun d => modRep d n s r.num (fun r => { r with results := r.results.drop 1 }))
        | none =>
          if mapDue d a.desc r then writeMap d n s a r ecc
          else match r.pieces with
            | p :: _ => match inSpace (dstByte a.desc r p.off) p.len with
              | none => endDesc d n s .denied
              | some addr => wroteOut n s a.kennel (memWriteAll d a.kennel addr (p.bytes.getD []) (.stream n s) ecc)
                  (fun d => trimWatches (modRep d n s r.num (fun r => { r with pieces := r.pieces.drop 1 })) n s)
            | [] => d

/-! ### Completion (R177, R179, R180, R193, R283, R284) -/

/-- Everything of the repetition but its pushes is done, and visible in its destination (R190). -/
def repComplete (d : Dev) (n s : Nat) (x : Desc) (r : Rep) : Bool :=
  drained x r && writesDone d n s &&
    (if x.kind = 2 then flitsAccepted d n s x r
     else if x.kind = 4 then !r.refused && (nextChunk x r).isNone && (!atRoot d x || (rootDone x r && r.results.isEmpty && !mapDue d x r))
     else true)

/-- Pushes of a completed repetition, in order (R177, R193). -/
def pushList (d : Dev) (x : Desc) (r : Rep) : List (Nat × DWord) :=
  (if x.pushEn then [(x.pushQ, biscuit r 1)] else [])
    ++ (if x.kind = 2 then (litMembers (litter d x.litter)).mapIdx (fun i _ => (litFull (litter d x.litter) + i, biscuit r (2 + i))) else [])
    ++ (if x.retEn then [(x.retQ, biscuit r 0)] else [])

/-- Beats of an overrun, rounded up (R133, R332). -/
def overrunBeats (d : Dev) (o : Nat) : Nat := ceilDiv o (beatPeriod d * 3 / 2)

/-- The completion point, with the last destination write in ECLK `at'`: the overrun is reported and the pushes begin behind those of the
repetitions before (R177, R179, R180, R332). A gather that stops ends with SC_RANGE after the rows before (R195). -/
def repCompletion (d : Dev) (n s at' : Nat) : Dev :=
  match (sslot d n s).act with
  | none => d
  | some a =>
    match writer a with
    | none => d
    | some r =>
      if !repComplete d n s a.desc r then d
      else if r.stopRow.isSome then endDesc d n s .range
      else
        let t := if a.desc.rows = 0 then r.lastArrival + 1 else max at' (r.lastArrival + 1)
        let late := t - beatEclk d (repEnd a r.num)
        let d := modSe d n (fun x => if late > 0 then { x with overrunCnt := inc x.overrunCnt } else x)
        let d := modSlot d n s (fun x => { x with lag := overrunBeats d late })
        let d := modAct (modRep d n s r.num (fun y => { y with pushes := some (pushList d a.desc r), complAt := t })) n s (fun a => { a with overrun := late })
        goOn (if a.reps.head?.any (fun y => y.num == r.num) then nextPush (manyReps d n s) d n s t else d) n s

/-! ### Abort (R205) -/

/-- The rest, from byte `off` on, of the row that a repetition is writing: bytes staged, and where the source is local what is still to
be read. -/
def rowRest (d : Dev) (a : Active) (r : Rep) (off : Nat) : List Byte :=
  let x := a.desc
  let n := rowBytes x - off % rowBytes x
  let at' (t : Nat) : Int := srcRow x r t + (off % rowBytes x : Nat)
  match tableRow x r (off / rowBytes x), rowsFrom d x r with
  | none, _ => zeros n
  | some t, .store => Mem.read (store d (placeOf x r true).sp (unitOf (placeOf x r true).sp (placeOf x r true).eng)) (at' t).toNat n
  | some t, .memory => if canRead d a.kennel (at' t).toNat then (match peek d a.kennel (at' t).toNat n with | (.ok, bs) => bs | _ => []) else []
  | some _, .peer _ => ((r.pieces.takeWhile (fun p => p.bytes.isSome)).flatMap (fun p => p.bytes.getD [])).take n

/-- A row already being written is completed (log 97). -/
def finishRow (d : Dev) (n s : Nat) : Dev :=
  match (sslot d n s).act with
  | none => d
  | some a =>
    match writer a with
    | none => d
    | some r =>
      let off := match r.pieces with | p :: _ => p.off | [] => r.cursor
      if a.desc.kind = 4 || off % rowBytes a.desc = 0 then d
      else
        let bs := rowRest d a r off
        if destMem a.desc r then (match inSpace (dstByte a.desc r off) bs.length with
          | some addr => (memWriteAll d a.kennel addr bs .firmware .clean).1
          | none => d)
        else writeOut d n s a r off bs

/-- Every slot of a kennel stops and empties; generation counters keep their values, and writes that have reached an M-die stay
(R205, R238). -/
def stopStreams (d : Dev) (k : Nat) : Dev :=
  let held := d.ses.flatMap (fun z => (z.2.slots.filter (fun q => slotHeld k q.2)).map (fun q => (z.1, q.1)))
  each d held (fun d z =>
    let d := cancelReads (finishRow d z.1 z.2) z.1 z.2 (fun _ => true)
    let d := { d with waits := d.waits.map (fun w => if w.by' = Writer.stream z.1 z.2 then { w with by' := .firmware } else w) }
    trimWatches (modSlot (dropUnits d (· == UnitId.se z.1 z.2)) z.1 z.2 (fun x => { x with act := none, shd := none, ahead := [], aheadStop := false })) z.1 z.2)

end Sys2Proof.Machine
end

