-- ==== Sys2Proof/Machine/McastOps.lean ====
section
/-! DEFINITION. What the links bring for litters and for reads of another module (R194, R209, R268, R285 to R287). -/

namespace Sys2Proof.Machine

/-! ### Multicast arrivals (R194, R285, R286) -/

def takeUps (d : Dev) (p : Nat) : List TakeUp := Tbl.get [] d.takeUps p
def setTakeUps (d : Dev) (p : Nat) (l : List TakeUp) : Dev := { d with takeUps := Tbl.set [] d.takeUps p l }

/-- Write the data of a take-up whose pops are complete; after the LAST flit, its pushes begin. -/
def runTakeUp (d : Dev) (p : Nat) (t : TakeUp) : Dev × TakeUp :=
  let l := litter d t.litter
  if !t.asked || t.popsLeft > 0 then (d, t)
  else
    let wrong := t.biscuits.any (fun z => bAddr z.2 != t.ofs)
    let past := t.biscuits.any (fun z => bSpace z.2 != 5 || bEng z.2 != 0 || (litBase l + bAddr z.2 + bLen z.2) * 64 > spaceBytes (litSpace l))
    let d := if t.bad then d else if wrong then taskFault d t.kennel .task else if past then rejectFlit d p t.kennel else d
    let bad := t.bad || wrong || past
    let d := if bad then d
      else each d t.data (fun d z => each d (litMembers l) (fun d u => storeWrite d (litSpace l) u ((litBase l + z.1) * 64) z.2.1))
    let last := t.data.any (fun z => z.2.2.1)
    let d := if last && !bad then each d t.biscuits (fun d z => requestPush d (.zl p) (litFull l + z.1) t.kennel z.2 d.eclk) else d
    (d, { t with data := [], bad := bad, pushing := if last then 1 else 0 })

/-- The take-ups of a port proceed one at a time: the first one requests its pops (R188, R194, log 17). -/
def askTakeUp (d : Dev) (p : Nat) : Dev :=
  match takeUps d p with
  | [] => d
  | t :: r =>
    if t.asked then d
    else
      let l := litter d t.litter
      let d := setTakeUps d p ({ t with asked := true, popsLeft := (litMembers l).length } :: r)
      each d ((litMembers l).mapIdx (fun i _ => i)) (fun d i => requestPop d (.zl p) i (litFree l + i) t.kennel d.eclk)

/-- The first take-up of a port goes on; a finished one leaves. -/
def pumpTakeUp (d : Dev) (p : Nat) : Dev :=
  match takeUps d p with
  | [] => d
  | t :: r =>
    let (d, t) := runTakeUp d p t
    askTakeUp (setTakeUps d p (if t.pushing = 1 then r else t :: r)) p

/-- A biscuit arrives for the take-up of a port. -/
def zlArrive (d : Dev) (p role : Nat) (b : DWord) : Dev :=
  match takeUps d p with
  | [] => d
  | t :: r => pumpTakeUp (setTakeUps d p ({ t with biscuits := t.biscuits ++ [(role, b)], popsLeft := t.popsLeft - 1 } :: r)) p

/-- Data of a flit joins the youngest take-up of its litter. -/
def addData (ts : List TakeUp) (ln : Nat) (x : Nat × List Byte × Bool × Nat) : List TakeUp :=
  ts.mapIdx (fun i t => if t.litter = ln && !(ts.drop (i + 1)).any (fun u => u.litter == ln) then { t with data := t.data ++ [x] } else t)

/-- An admitted MCAST flit: forwarded down the tree, and written to the local litter (R194, R285, R286). -/
def mcastFlit (d : Dev) (p : Nat) (f : Flit) : Dev :=
  let t := tree d (fld f.tsf 63 52)
  if !t.en || t.kennel ≠ f.ktag || !t.mcast || t.root || t.upPort ≠ p then rejectFlit d p f.ktag
  else
    let buffer := (port d p).link.freed.getD 2 0
    let d := each d (portsOf t.down) (fun d q => sendFlit d q { f with origin := some (p, buffer) })
    if t.localN ≠ 1 then d
    else
      let ln := fld f.tsf 51 42
      let l := litter d ln
      let ofs := fld f.tsf 37 0
      let first := bit f.tsf 41
      let last := bit f.tsf 40
      if !litEn l || litKennel l ≠ f.ktag then rejectFlit d p f.ktag
      else if (litMembers l).isEmpty then d
      else
        let bs := f.pay.take (64 * (fld f.tsf 39 38 + 1))
        let d := if first then setTakeUps d p (takeUps d p ++ [{ litter := ln, kennel := f.ktag, ofs := ofs }]) else d
        pumpTakeUp (setTakeUps d p (addData (takeUps d p) ln (ofs, bs, last, buffer))) p

/-! ### Peer reads (R268, R287) -/

/-- The longest read request that a port carries: 1 MiB, or 64 KiB at ZL2 (R265, R287). -/
def peerMax (d : Dev) (p : Nat) : Nat := if (port d p).version = 1 then 65536 else 1048576

/-- `LEN` of a READ_REQ flit in 256-byte units (R287). -/
def reqLen (f : Flit) : Nat := leNat ((f.pay.drop 6).take 2)

/-- A read request that a port does not carry at its version (R265). -/
def tooLongFor (d : Dev) (p : Nat) (f : Flit) : Bool := f.ftype == 6 && reqLen f * 256 > peerMax d p

/-- Forward a routed flit toward its module, or reject it (R268). -/
def routeFlit (d : Dev) (p : Nat) (f : Flit) : Dev :=
  let e := Tbl.get 0 d.epochRun.routes (fld f.tsf 63 52)
  let hop := fld f.tsf 27 24
  if e < 16 || tooLongFor d (e % 16) f then rejectFlit d p f.ktag
  else sendFlit d (e % 16) { f with tsf := (f.tsf &&& ~~~(mask 64 27 24)) ||| put 64 24 (hop + 1) }

/-- RSTAT of a class (R287). -/
def rstat (c : MemClass) : Nat := match c with | .ok => 0 | .ue => 1 | .decode => 2 | .poison => 3 | .lost => 4 | .denied => 5

/-- Responses of 256 bytes each; a failed one stands for every later byte (R287). -/
def readResponses (fuel : Nat) (d : Dev) (k dst rid addr ofs left : Nat) (ecc : Ecc) : Dev :=
  match fuel with
  | 0 => d
  | fl + 1 =>
    if left = 0 then d
    else
      let (d, c, bs) := memReadAll d k addr 256 ecc
      let f : Flit := { ftype := 7, tc := 2, ktag := k, pay := (if c = .ok then bs else zeros 256), tsf := put 64 52 dst ||| put 64 40 d.epochRun.moduleNo ||| put 64 28 rid ||| put 64 8 ofs ||| put 64 0 (rstat c) }
      let e := Tbl.get 0 d.epochRun.routes dst
      let d := if e ≥ 16 then sendFlit d (e % 16) f else d
      if c = .ok then readResponses fl d k dst rid (addr + 256) (ofs + 1) (left - 1) .clean else d

/-- An admitted READ_REQ flit: forwarded, or served (R209, R268, R287). -/
def readReq (d : Dev) (p : Nat) (f : Flit) (ecc : Ecc) : Dev :=
  if tooLongFor d p f || fld f.tsf 27 24 = 15 then rejectFlit d p f.ktag
  else if fld f.tsf 63 52 ≠ d.epochRun.moduleNo then routeFlit d p f
  else
    let addr := leNat (f.pay.take 5) % 2 ^ 38 * 64
    let len := reqLen f
    if len = 0 || len > 4096 || leNat (f.pay.take 6) ≥ 2 ^ 38 || (f.pay.drop 8).any (· != 0) then rejectFlit d p f.ktag
    else readResponses 4096 d f.ktag (fld f.tsf 51 40) (fld f.tsf 39 28) addr 0 len ecc

/-- The kennel's task has been aborted, and no GO has come since: its TC1 and TC2 flits are rejected (R288, R401). -/
def stoppedTask (d : Dev) (k : Nat) : Bool := match task d k with | some t => t.inRound | none => false

/-- An admitted READ_RSP flit: rejected, forwarded, or bytes or an error class for the waiting slot (R268, R287, R288). -/
def readRsp (d : Dev) (p : Nat) (f : Flit) : Dev :=
  if fld f.tsf 27 24 = 15 || stoppedTask d f.ktag then rejectFlit d p f.ktag
  else if fld f.tsf 63 52 ≠ d.epochRun.moduleNo then routeFlit d p f
  else
    let rid := fld f.tsf 39 28
    match Tbl.get none d.reads rid with
    | none => rejectFlit d p f.ktag
    | some r =>
      if r.kennel ≠ f.ktag then rejectFlit d p f.ktag
      else match fld f.tsf 7 0 with
        | 0 =>
          let sofar := r.bytes ++ f.pay
          let done := r.got + 1 ≥ r.len
          let d := { d with reads := Tbl.set none d.reads rid (if done then none else some { r with got := r.got + 1, bytes := sofar }) }
          if !(r.live && done) then d
          else match (sslot d r.engine r.slot).act with
            | none => d
            | some a => match (a.reps.find? (fun x => x.num == r.rep)).bind (fun x => x.pieces.find? (fun q => q.off == r.off)) with
              | some q => stage d r.engine r.slot r.rep q (sofar.take q.len)
              | none => d
        | c =>
          let d := { d with reads := Tbl.set none d.reads rid none }
          if !r.live then d
          else if c = 5 then endDesc d r.engine r.slot .denied else readFailed d r.engine r.slot r.rep

/-- A peer read unanswered for 256 beats faults its task (R287). -/
def peerTimeout (d : Dev) (rid : Nat) : Dev :=
  match Tbl.get none d.reads rid with
  | some r => if r.beat + 256 ≤ beatNow d then taskFault { d with reads := Tbl.set none d.reads rid none } r.kennel .task else d
  | none => d

end Sys2Proof.Machine
end

