-- ==== Sys2Proof/Machine/OpeOps.lean ====
section
/-! DEFINITION. The outer-product engine: operands, windows, chains, weight loads and drains (R72 to R106, R125 to
R127). -/

namespace Sys2Proof.Machine

/-- Array depth (R73). -/
def depthD : Nat := 258

def pair (d : Dev) (e : Nat) : Pair := Tbl.get {} d.pairs e
def modPair (d : Dev) (e : Nat) (f : Pair → Pair) : Dev := { d with pairs := Tbl.modify {} d.pairs e f }
def modOpe (d : Dev) (e : Nat) (f : Ope → Ope) : Dev := modPair d e (fun x => { x with ope := f x.ope })
def modSeq (d : Dev) (e : Nat) (f : Seq → Seq) : Dev := modPair d e (fun x => { x with seq := f x.seq })
def modVe (d : Dev) (e : Nat) (f : Ve → Ve) : Dev := modPair d e (fun x => { x with ve := f x.ve })

def scalar (x : Pair) (i : Nat) : Word := Tbl.get 0 x.scalars i
def setScalar (x : Pair) (i : Nat) (v : Word) : Pair := { x with scalars := Tbl.set 0 x.scalars i v }

/-- What a take-up in ECLK t reads of a scalar register: a write in the same ECLK or later is not seen (R137, log 88). -/
def scalarAt (x : Pair) (i t : Nat) : Word :=
  match x.history.find? (fun z => z.1 == i && t < z.2.1) with
  | some z => z.2.2
  | none => scalar x i

/-- The scalar registers `rs` are about to be written, and a take-up reads the new values from ECLK t on; entries that no
take-up can need any more are dropped. -/
def noteScalars (eclk : Nat) (x : Pair) (rs : List Nat) (t : Nat) : Pair :=
  let keep := x.history.filter (fun z => decide ((if x.seq.run then x.seq.takeAt else eclk) < z.2.1))
  { x with history := keep ++ rs.map (fun i => (i, t, scalar x i)) }

def tile (d : Dev) (e : Nat) : Mem := Tbl.get [] d.tiles e

/-! ### Repair (R98 to R100) -/

/-- The repair record of a pair; `PRESENT` is its bit of the presence map (R98). -/
def repairRecord (d : Dev) (e : Nat) : DWord := Tbl.get 0 d.fuses.repair e ||| putB 64 40 (present d e)

/-- Physical rows or columns that carry no products: the listed ones, then the highest of the rest (R99). -/
def bypassed (v0 v1 : Bool) (i0 i1 : Nat) : List Nat :=
  let bad := (if v0 then [i0] else []) ++ (if v1 && !(v0 && i1 == i0) then [i1] else [])
  let spare := ((List.range depthD).filter (fun p => !bad.contains p)).drop 256
  (List.range depthD).filter (fun p => bad.contains p || spare.contains p)

def bypassedRows (r : DWord) : List Nat := bypassed (bit r 9) (bit r 19) (fld r 8 0) (fld r 18 10)
def bypassedCols (r : DWord) : List Nat := bypassed (bit r 29) (bit r 39) (fld r 28 20) (fld r 38 30)

/-- Logical line of a physical one, none when bypassed: the skew table of a feeder (R100). -/
def logicalLine (byp : List Nat) (p : Nat) : Option Nat :=
  if byp.contains p then none else some (((List.range p).filter (fun q => !byp.contains q)).length)

def repaired (r : DWord) : Bool := bit r 9 || bit r 19 || bit r 29 || bit r 39

/-! ### Rate classes and operands -/

/-- Rate class of an operand format (Table 2-3): 1 16-bit, 2 8-bit, 3 6-bit and 4-bit, 4 INT8; none is no operand format. -/
def fmtClass (c : Nat) : Option Nat :=
  if c = 1 ∨ c = 2 then some 1 else if c = 3 ∨ c = 4 then some 2 else if c = 5 ∨ c = 6 ∨ c = 7 then some 3
  else if c = 8 then some 4 else none

/-- Reduction steps per ECLK (Table 3-3). -/
def rho (c : Nat) : Nat := match fmtClass c with | some 1 => 1 | some 3 => 4 | some _ => 2 | none => 1

/-- Step cycles of a slice: ⌈K / ρ⌉ in OP mode, tokens in stationary mode (R76, R92). -/
def stepCycles (x : SDesc) : Nat := if x.stat then x.m else ceilDiv x.k (rho x.fmtA)

/-- Promotion interval P (R77). -/
def promoP (x : SDesc) : Nat := match x.promo with | 0 => 8 | 1 => 4 | _ => 16

/-- Windows of a slice in OP mode (R53). -/
def windows (x : SDesc) : Nat := if x.stat then 0 else ceilDiv x.k (promoP x)

def isIntOp (x : SDesc) : Bool := !x.stat && x.fmtA == 8 && x.fmtB == 8

/-- A slice begins with a marker (R82). -/
def hasMarker (x : SDesc) : Bool := x.swap || !x.acc || (x.stat && x.wSwap)

/-- Where an operand's vectors lie (Table 4-6, R114). -/
structure Operand where
  addr : Nat
  pitch : Nat
  sAddr : Nat
  sPitch : Nat
  order : Bool
  fmt : Nat
deriving DecidableEq, Repr

def operand (w : DWord) (order : Bool) (fmt : Nat) : Operand :=
  ⟨fld w 17 0, fld w 27 18, fld w 47 28, fld w 54 48, order, fmt⟩
def opA (x : SDesc) : Operand := operand x.w2 x.aOrder x.fmtA
def opB (x : SDesc) : Operand := operand x.w3 x.bOrder x.fmtB

/-- Element code of vector index i at step k (R114). -/
def operandCode (m : Mem) (o : Operand) (i k : Nat) : Nat :=
  let row := if o.order then i else k
  let col := if o.order then k else i
  Mem.elem m (o.addr * 64 + row * o.pitch * 64) (fmtBits o.fmt) col

/-- Scale byte of vector index i at step k (R115). -/
def operandScale (m : Mem) (o : Operand) (i k : Nat) : Nat :=
  (Mem.byte m (o.sAddr * 16 + i * o.sPitch * 16 + k / 32)).toNat

/-- The exact value of an operand element with its scale (R44, R51). -/
def operandVal (m : Mem) (o : Operand) (i k : Nat) : Fp :=
  let v := decodeElem o.fmt (operandCode m o i k)
  if isMx o.fmt then scaled (operandScale m o i k) v else v

/-! ### Banks -/

def bankOf (o : Ope) (b : Bool) : Tbl Entry := if b then o.bank1 else o.bank0
def setBank (o : Ope) (b : Bool) (t : Tbl Entry) : Ope := if b then { o with bank1 := t } else { o with bank0 := t }
def cellKey (r j : Nat) : Nat := 256 * r + j
/-- A bank entry written with valid parity (R103). -/
def entryOf (v : Word) : Entry := ⟨v, parity v⟩

/-- The output elements that a slice touches (R79, R129). -/
def cells (x : SDesc) : List (Nat × Nat) := (List.range x.m).flatMap (fun r => (List.range x.n).map (fun j => (r, j)))

/-! ### OP mode (R52, R53, R55, R56, R67, R68) -/

/-- Contribution of an MXINT8 step (R55). A scale byte 0xFF, for which R55 gives none, enters the formula as 255: the sum may
overflow by it, and the NaN flag wins at the promotion (DESIGN CHOICE, log 83). -/
def intContribution (m : Mem) (x : SDesc) (t : Int) (r j k : Nat) : Int :=
  let c := sext 8 (operandCode m (opA x) r k) * sext 8 (operandCode m (opB x) j k)
  let e : Int := (operandScale m (opA x) r k - 127 : Int) + (operandScale m (opB x) j k - 127 : Int) - t
  if e ≥ 0 then c * 2 ^ e.toNat
  else (if c < 0 then -(rneShift c.natAbs (-e) : Int) else rneShift c.natAbs (-e))

/-- One step of a cell's partial; a step with a scale byte 0xFF sets the NaN flag and adds its contribution too (DESIGN
CHOICE, log 83). -/
def partStep (m : Mem) (x : SDesc) (t : Int) (r j : Nat) (p : Part) (k : Nat) : Part :=
  if isIntOp x then
    let s := p.sum + intContribution m x t r j k
    { p with
      sum := s,
      nan := p.nan || operandScale m (opA x) r k == 0xFF || operandScale m (opB x) j k == 0xFF,
      left := match p.left with
        | some q => some q
        | none => if s ≥ 2 ^ 23 then some false else if s < -(2 ^ 23) then some true else none }
  else { p with a22 := a22.encode (Fp.add (a22.decode p.a22) (Fp.mul (operandVal m (opA x) r k) (operandVal m (opB x) j k))) }

/-- The steps below `k` of window w of a cell, in ascending order. -/
def windowPart (m : Mem) (x : SDesc) (t : Int) (w k r j : Nat) : Part :=
  let p := promoP x
  ((List.range (min p (k - w * p))).map (w * p + ·)).foldl (partStep m x t r j) {}

/-- The partials of every cell of a window after its steps below `k`, where they are not at their reset value. -/
def windowPartsTo (m : Mem) (x : SDesc) (t : Int) (w k : Nat) : Tbl Part :=
  (cells x).foldl (fun acc z => Tbl.set {} acc (cellKey z.1 z.2) (windowPart m x t w k z.1 z.2)) []
def windowParts (m : Mem) (x : SDesc) (t : Int) (w : Nat) : Tbl Part := windowPartsTo m x t w x.k

/-- Whether an attempt is the final one (R95). -/
def finalAttempt (f : Flight) : Bool := f.replays == 4 || f.tRef == 255

/-- What a cell promotes: the partial, the canonical NaN, or in a final attempt an infinity (R53, R56, R68). In an attempt
that is replayed the bank is cleared again. -/
def promoteEntry (f : Flight) (p : Part) (v : Word) : Word :=
  if isIntOp f.t.d then
    if p.nan then nanW
    else match p.left with
      | some q =>
        if finalAttempt f then encW (Fp.add (decW v) (.inf (if p.sum = 0 then q else decide (p.sum < 0)))) else v
      | none => encW (Fp.add (decW v) (Fp.ofInt p.sum (f.tRef - 12)))
  else encW (Fp.add (decW v) (a22.decode p.a22))

/-- Promote the window under way into the bank and begin the next one (R53, R80). -/
def promoteWindow (m : Mem) (o : Ope) (f : Flight) : Ope × Flight :=
  let x := f.t.d
  if f.win ≥ windows x then (o, f)
  else
    let bank := (cells x).foldl (fun b z =>
      let k := cellKey z.1 z.2
      Tbl.set {} b k (entryOf (promoteEntry f (Tbl.get {} f.part k) (Tbl.get {} b k).v))) (bankOf o f.bank)
    let w := f.win + 1
    let part := if w < windows x then windowParts m x f.tRef w else []
    (setBank o f.bank bank, { f with win := w, part := part, over' := f.over' || part.any (fun z => z.2.left.isSome) })

def promoteAll (fuel : Nat) (m : Mem) (o : Ope) (f : Flight) : Ope × Flight :=
  match fuel with
  | 0 => (o, f)
  | n + 1 => if f.win < windows f.t.d then (let z := promoteWindow m o f; promoteAll n m z.1 z.2) else (o, f)

/-- Begin an attempt: the partials of its first window. -/
def beginAttempt (m : Mem) (f : Flight) (t : Int) : Flight :=
  let part := if windows f.t.d = 0 then [] else windowParts m f.t.d t 0
  { f with tRef := t, win := 0, part := part, over' := part.any (fun z => z.2.left.isSome) }

/-! ### Stationary mode (R54, R88 to R92) -/

/-- The value of a resident weight, as the loading slice's format and scales gave it (R88). -/
def weightVal (s : WSet) (k j : Nat) : Fp :=
  match s.fmt with
  | none => .fin false 0 0
  | some f =>
    let v := decodeElem f (Tbl.get 0 s.elems (256 * k + j))
    if isMx f then scaled (Tbl.get 0x7F s.scales (32 * j + k / 32)) v else v

/-- The chain of token t and column j after the weight rows below `k` (R54, R88). -/
def chainTo (m : Mem) (x : SDesc) (s : WSet) (t j k : Nat) : Word :=
  (List.range k).foldl (fun c k => encW (Fp.add (decW c) (Fp.mul (operandVal m (opA x) t k) (weightVal s k j)))) 0
def chain (m : Mem) (x : SDesc) (s : WSet) (t j : Nat) : Word := chainTo m x s t j s.k

/-- The chains of the first `n` tokens are added into their bank entries (R54, R89). -/
def streamTokens (m : Mem) (x : SDesc) (o : Ope) (n : Nat) : Ope :=
  setBank o o.acc (((cells x).filter (fun z => z.1 < n)).foldl (fun b z =>
    let k := cellKey z.1 z.2
    Tbl.set {} b k (entryOf (fadd (Tbl.get {} b k).v (chain m x o.wAct z.1 z.2)))) (bankOf o o.acc))

/-! ### Operand and chain registers (Table 3-1) -/

/-- The operand register of vector index i after the step cycle that carries steps `ks`. -/
def operandReg (m : Mem) (o : Operand) (i : Nat) (ks : List Nat) : OperandReg :=
  ⟨BitVec.ofNat 24 (ks.foldr (fun k v => operandCode m o i k + 2 ^ fmtBits o.fmt * v) 0),
    if isMx o.fmt then BitVec.ofNat 8 (operandScale m o i (ks.headD 0)) else 0⟩

/-- Steps `lo` to `lo + n - 1` that lie below `k`. -/
def stepsFrom (lo n k : Nat) : List Nat := (List.range (min n (k - lo))).map (lo + ·)

def setRegs {α : Type} [DecidableEq α] (z : α) (t : Tbl α) (n : Nat) (f : Nat → α) : Tbl α :=
  (List.range n).foldl (fun t i => Tbl.set z t i (f i)) t

/-- The registers of a row, of a column and of a column's chain after `n` step cycles or tokens of a slice. A cell forwards
what it holds, so every cell of a line comes to hold the same operand, and a bypassed cell what the cell before it held
(R72, R79, R89, log 89). -/
def passOperands (m : Mem) (x : SDesc) (o : Ope) (n : Nat) : Ope :=
  let p := rho x.fmtA
  if n = 0 then o
  else if x.stat then
    let rows := ceilDiv o.wAct.k p
    { o with
      west := setRegs {} o.west rows (fun r => operandReg m (opA x) (n - 1) (stepsFrom (p * r) p o.wAct.k))
      chain := setRegs [] o.chain x.n (fun j => (List.range rows).map (fun r => chainTo m x o.wAct (n - 1) j (min o.wAct.k (p * r + p)))) }
  else
    let ks := stepsFrom (p * (n - 1)) p x.k
    { o with
      west := setRegs {} o.west x.m (fun r => operandReg m (opA x) r ks)
      north := setRegs {} o.north x.n (fun j => operandReg m (opB x) j ks) }

/-- The weight tile that a slice loads (R88, R90): rows below its `K` and columns below its `N`; the rest is +0 under a
scale of 1. -/
def loadTile (m : Mem) (x : SDesc) : WSet :=
  let o := opB x
  { fmt := some x.fmtB, k := x.k,
    elems := (List.range x.k).foldl (fun t k => (List.range x.n).foldl (fun t j => Tbl.set 0 t (256 * k + j) (operandCode m o j k)) t) [],
    scales := if isMx x.fmtB then
        (List.range x.n).foldl (fun t j => (List.range (ceilDiv x.k 32)).foldl (fun t b =>
          Tbl.set 0x7F t (32 * j + b) (operandScale m o j (32 * b))) t) []
      else [] }

/-- The effect of a marker as it passes the cells (R82). A clearing marker clears every computing cell of its bank, those beyond
the slice's M and N too (DESIGN CHOICE, log 85); a stationary slice with M = 0 clears nothing, for R92 has it write no bank
entry (DESIGN CHOICE, log 84). -/
def marker (x : SDesc) (o : Ope) : Ope :=
  let o := if x.stat && x.wSwap then { o with wAct := o.wShd, wShd := o.wAct, shadowPend := false } else o
  let o := if x.swap then { o with acc := !o.acc } else o
  if x.acc || (x.stat && x.m == 0) then o else setBank o o.acc []

/-! ### Drains (R83, R84, R103, R125 to R127) -/

def c1 : Word := 0x3F800000#32
def cHalf : Word := 0x3F000000#32
def cGelu : Word := 0x3F4C422A#32
def kGelu1 : Word := 0x3D372713#32
def kGelu2 : Word := 0x3E095D4F#32

/-- The catalogue of Table 4-12: whether a function reads the auxiliary tile; none is no function (R126). -/
def drainReads (fn : Nat) : Option Bool :=
  if fn ≤ 6 then some false else if fn = 7 then some true else if 0x10 ≤ fn ∧ fn ≤ 0x14 then some true else none

/-- f(x, a, s) of R126 for a finite x; every multiply and add is rounded on its own. -/
def drainFormula (fn : Nat) (x a s : Word) : Word :=
  let gt (v : Word) : Bool := fcmp 4 v 0
  let sig (v : Word) : Word := fadd cHalf (fmul cHalf (tanhW (fmul cHalf v)))
  match fn with
  | 0x00 => x
  | 0x01 => fmul s x
  | 0x02 => fmax x 0
  | 0x03 => if gt x then x else fmul s x
  | 0x04 =>
    let u := fmul cGelu (fadd x (fmul kGelu1 (fmul (fmul x x) x)))
    fmul (fmul cHalf x) (fadd c1 (tanhW u))
  | 0x05 => fmul x (sig x)
  | 0x06 => tanhW x
  | 0x07 => fmul x a
  | 0x10 => if gt a then x else fmul x 0
  | 0x11 => if gt a then x else fmul s x
  | 0x12 =>
    let q := fmul a a
    let t := tanhW (fmul cGelu (fadd a (fmul kGelu1 (fmul q a))))
    let g := fadd (fmul cHalf (fadd c1 t))
      (fmul (fmul (fmul cHalf a) (fsub c1 (fmul t t))) (fmul cGelu (fadd c1 (fmul kGelu2 q))))
    fmul x g
  | 0x13 =>
    let o := sig a
    fmul x (fadd o (fmul (fmul a o) (fsub c1 o)))
  | _ => fmul x (fsub c1 (fmul a a))

/-- A NaN or an infinity in x passes IDENT and makes every other function the canonical NaN (R127). -/
def drainFunction (fn : Nat) (x a s : Word) : Word :=
  if fn = 0 then x else if specialW x then nanW else drainFormula fn x a s

/-- A bias or auxiliary element of code 0, 1 or 2, widened exactly (R125). -/
def auxElem (m : Mem) (addr pitch fmt r j : Nat) : Word :=
  let c := Mem.elem m (addr * 64 + r * pitch * 64) (fmtBits fmt) j
  match fmt with
  | 0 => BitVec.ofNat 32 c
  | 1 => widen bf16 c
  | _ => widen fp16 c

/-- An FP32 value in format code 0, 1 or 2, by RNE. -/
def narrow (fmt : Nat) (x : Word) : Nat :=
  match fmt with
  | 0 => x.toNat
  | 1 => toBf16 .rne x
  | _ => toFp16 .rne x

/-- Write element j of a row. -/
def storeElem (d : Dev) (sp u a w j v : Nat) : Dev := setStore d sp u (Mem.setElem (store d sp u) a w j v)

/-- The values of a drained row before conversion; the stash is written on the way (R125). -/
def drainRow (d : Dev) (e : Nat) (x : SDesc) (s : Word) (bank : Tbl Entry) (r : Nat) : Dev × List Word :=
  (List.range x.n).foldl (fun acc j =>
    let (d, ys) := acc
    let m := tile d e
    let c := Tbl.get {} bank (cellKey r j)
    let v := if parity c.v = c.p then c.v else nanW
    let v := if x.biasEn then fadd v (auxElem m x.biasAddr 0 x.biasFmt 0 j) else v
    let d := if x.auxMode = 2 then
        storeElem d 1 e (x.auxAddr * 64 + r * x.auxPitch * 64) (fmtBits x.auxFmt) j (narrow x.auxFmt v) else d
    let a := if x.auxMode = 1 then auxElem m x.auxAddr x.auxPitch x.auxFmt r j else 0
    (d, ys ++ [drainFunction x.drainFn v a s])) (d, [])

/-- Space and unit of a drain's destination (Table 4-7). -/
def drainStore (e : Nat) (x : SDesc) : Nat × Nat :=
  match x.dstSpace with | 0 => (1, e) | 1 => (2, e) | _ => (3, e / 12)

/-- Blocks of 32 columns of a row of `n` values from block b on. -/
def mxBlocks (fuel b : Nat) (ys : List Word) : List (Nat × List Word) :=
  match fuel with
  | 0 => []
  | f + 1 => if ys.isEmpty then [] else (b, ys.take 32) :: mxBlocks f (b + 1) (ys.drop 32)

/-- Convert a row to `DRAIN_FMT` and write it (R84, R117): an MX row in blocks, the last filled with +0. -/
def writeRow (d : Dev) (e : Nat) (x : SDesc) (r : Nat) (ys : List Word) : Dev :=
  let (sp, u) := drainStore e x
  let a := x.dstAddr * 64 + r * x.dstPitch * 64
  let w := fmtBits x.drainFmt
  if isMx x.drainFmt then
    each d (mxBlocks 8 0 ys) (fun d z =>
      let vs := z.2.map decW ++ List.replicate (32 - z.2.length) (.fin false 0 0)
      let (sc, cs) := quantBlock (fun _ => .rne) x.drainFmt vs
      let d := each d ((cs.take z.2.length).mapIdx (fun i c => (z.1 * 32 + i, c))) (fun d y => storeElem d sp u a w y.1 y.2)
      storeWrite d sp u (x.dstSAddr * 16 + 8 * r + z.1) [BitVec.ofNat 8 sc])
  else each d (ys.mapIdx (fun j y => (j, narrow x.drainFmt y))) (fun d z => storeElem d sp u a w z.1 z.2)

/-- Every row below M, in order (R84). Where the destination or the stash overlaps the auxiliary tile or the bias, a row reads
what the rows below it have written (DESIGN CHOICE, log 87). -/
def drainRows (d : Dev) (e : Nat) (x : SDesc) (s : Word) (bank : Tbl Entry) : Dev :=
  each d (List.range x.m) (fun d r => let z := drainRow d e x s bank r; writeRow z.1 e x r z.2)

/-- Parity errors that a drain finds: entries whose parity bit does not match (R103). -/
def badEntries (bank : Tbl Entry) : Bool := bank.any (fun z => parity z.2.v != z.2.p)

/-- Upsets of a bank: the parity bit of an entry no longer matches its bits (log 20). -/
def upsetBank (bank : Tbl Entry) (keys : List Nat) : Tbl Entry :=
  keys.foldl (fun b k => Tbl.modify {} b (k % 65536) (fun x => { x with p := !x.p })) bank

/-! ### Status (R104) -/

/-- The present ECLK lies in one of the intervals. -/
def within' (d : Dev) (l : List (Nat × Nat)) : Bool := l.any (fun z => z.1 ≤ d.eclk && d.eclk < z.2)

/-- Add an interval, and forget those that are over. -/
def addSpan (d : Dev) (l : List (Nat × Nat)) (a b : Nat) : List (Nat × Nat) := l.filter (fun z => d.eclk < z.2) ++ [(a, b)]

def opeStatus (d : Dev) (e : Nat) : Word :=
  let o := (pair d e).ope
  put 32 9 o.lastReplays ||| putB 32 8 o.ovfFinal ||| putB 32 7 o.parityErr ||| putB 32 6 (o.shadowPend || within' d [(o.loadFrom, o.loadTo)])
    ||| putB 32 5 (within' d o.draining) ||| putB 32 4 o.acc ||| putB 32 3 o.mode ||| putB 32 2 (within' d o.busy)
    ||| putB 32 1 (repaired (repairRecord d e)) ||| putB 32 0 (present d e)

end Sys2Proof.Machine
end

