-- ==== Sys2Proof/Machine/SeqOps.lean ====
section
/-! DEFINITION. The slice sequencer (R107 to R133). Cycles are formed from the spec's rules and may lie ahead of the
ECLK at which the module stands. -/

namespace Sys2Proof.Machine

def tileBytes : Nat := 16777216

/-- The first ECLK from c on in which the throttle lets a sequencer or a VE issue (R458). -/
def gate (level c : Nat) : Nat := if c % 8 < 8 - level then c else c + (8 - c % 8)

/-- The ECLK of the n-th issue after the one at c. -/
def gateNth (level c n : Nat) : Nat :=
  let w := 8 - level
  let s := c / 8 * w + c % 8 + n
  s / w * 8 + s % w

/-- Issue cycles before ECLK c. -/
def openBefore (level c : Nat) : Nat := c / 8 * (8 - level) + min (c % 8) (8 - level)

/-- ECLK by which a completion point passes its planned end; 0 when on time or without one (R131, R133). -/
def overrunOf (d : Dev) (c : Nat) (e : Option Nat) : Nat :=
  match e with
  | some b => c - beatEclk d b
  | none => 0

def pairKennel (d : Dev) (e : Nat) : Nat := Tbl.get 0 d.pairOwner e

/-! ### Descriptors and their checks -/

def fetchDesc (m : Mem) (addr : Nat) : SDesc :=
  let w (i : Nat) : DWord := BitVec.ofNat 64 (Mem.readNat m (addr * 64 + 8 * i) 8)
  ⟨w 0, w 1, w 2, w 3, w 4, w 5, w 6, w 7⟩

def descFits (addr : Nat) : Bool := addr * 64 + 64 ≤ tileBytes

/-- Words 2 to 7 all zero. -/
def tailZero (x : SDesc) : Bool := x.w2 == 0 && x.w3 == 0 && x.w4 == 0 && x.w5 == 0 && x.w6 == 0 && x.w7 == 0

def linkCheck (x : SDesc) : Option Sc := check (fld x.w0 59 0 != 0 || fld x.w1 63 18 != 0 || !tailZero x) .format
def haltCheck (x : SDesc) : Option Sc :=
  (check (fld x.w0 51 11 != 0 || x.w1 != 0 || !tailZero x) .format).or (check (x.beats == 0) .range)

/-- The mode word's checks (R78). `set` is the weight set that the slice's tokens use; `pend` says that the shadow set holds
a tile not yet swapped in. -/
def modeCheck (x : SDesc) (setFmt : Option Nat) (pend : Bool) : Option Sc :=
  let pairs := (fmtClass x.fmtA).isSome && fmtClass x.fmtA == fmtClass x.fmtB
  (check (fld x.w1 63 48 != 0 || fld x.w1 17 8 != 0) .format).or <|
  (check ((fmtClass x.fmtA).isNone || (fmtClass x.fmtB).isNone || x.drainFmt > 8 || x.promo == 3) .format).or <|
  (check (!x.stat && !pairs) .format).or <|
  (check (!x.stat && (x.wSwap || x.wLoad)) .format).or <|
  (check (drainReads x.drainFn).isNone .format).or <|
  (check (isIntOp x && x.acc) .format).or <|
  (check (x.stat && x.m == 0 && x.drain) .format).or <|
  (check (x.stat && x.m > 0 && (match setFmt with | some f => fmtClass f != fmtClass x.fmtA | none => false)) .format).or <|
  (check (x.wLoad && !x.wSwap && pend) .state)

/-- First byte beyond what an operand's vectors touch (R118): n vectors of k steps. -/
def operandEnd (o : Operand) (n k : Nat) : Nat :=
  let rows := if o.order then n else k
  let cols := if o.order then k else n
  o.addr * 64 + (rows - 1) * o.pitch * 64 + ceilDiv (cols * fmtBits o.fmt) 8
def scaleEnd (o : Operand) (n k : Nat) : Nat := o.sAddr * 16 + (n - 1) * o.sPitch * 16 + ceilDiv k 32

/-- Steps of operand a that a slice touches, and whether it reads operand a and operand b (R118). -/
def stepsA (x : SDesc) (setK : Nat) : Nat := if x.stat then setK else x.k
def usesA (x : SDesc) (setK : Nat) : Bool := stepsA x setK > 0 && x.m > 0
def usesB (x : SDesc) : Bool := x.k > 0 && (!x.stat || x.wLoad)
def usesBias (x : SDesc) : Bool := x.drain && x.biasEn
def usesAux (x : SDesc) : Bool := x.drain && (x.auxMode == 1 || x.auxMode == 2)

/-- The first group of R118: SC_FORMAT. -/
def formatCheck (x : SDesc) : Option Sc :=
  let rsvd := [fld x.w0 50 48, fld x.w0 13 11, fld x.w2 63 55, fld x.w3 63 55, fld x.w4 7 0, fld x.w5 63 38, fld x.w6 63 57, x.w7.toNat]
  let reads := drainReads x.drainFn == some true
  firstSome [rsvd.any (· != 0), x.dstSpace == 3, x.auxMode == 3, usesBias x && x.biasFmt > 2, usesAux x && x.auxFmt > 2,
    x.k % 32 != 0 && ((!x.stat && isMx x.fmtA) || (x.stat && x.wLoad && isMx x.fmtB)),
    x.drain && reads && x.auxMode != 1, x.drain && !reads && x.auxMode == 1, x.pushEn && !x.waitEn] (fun b => check b .format)

/-- Extents of a SLICE out of range (R118). -/
def extentsBad (x : SDesc) : Bool :=
  let n := x.n == 0 || x.n > 256
  if x.stat then x.m > 256 || n || x.k > 256 * rho x.fmtB else x.m == 0 || x.m > 256 || n || x.k > 32768

/-- An operand with n vectors of k steps leaves the tile store (R118). -/
def operandBad (o : Operand) (n k : Nat) : Bool := operandEnd o n k > tileBytes || (isMx o.fmt && scaleEnd o n k > tileBytes)

/-- A drained slice's destination leaves its space (R118). -/
def dstBad (x : SDesc) : Bool :=
  let space := spaceBytes (x.dstSpace + 1)
  x.dstAddr * 64 + (x.m - 1) * x.dstPitch * 64 + ceilDiv (x.n * fmtBits x.drainFmt) 8 > space
    || (isMx x.drainFmt && x.dstSAddr * 16 + 8 * (x.m - 1) + ceilDiv x.n 32 > space)

/-- The second group of R118: SC_RANGE. -/
def rangeCheck (x : SDesc) (setK : Nat) : Option Sc :=
  let a := opA x
  let b := opB x
  let ka := stepsA x setK
  firstSome [extentsBad x,
    usesA x setK && a.pitch == 0, usesB x && b.pitch == 0, x.drain && x.dstPitch == 0, usesAux x && x.auxPitch == 0,
    isMx a.fmt && a.sPitch * 16 < ceilDiv x.k 32, isMx b.fmt && b.sPitch * 16 < ceilDiv x.k 32,
    usesA x setK && operandBad a x.m ka, usesB x && operandBad b x.n x.k, x.drain && dstBad x,
    usesBias x && x.biasAddr * 64 + ceilDiv (x.n * fmtBits x.biasFmt) 8 > tileBytes,
    usesAux x && x.auxAddr * 64 + (x.m - 1) * x.auxPitch * 64 + ceilDiv (x.n * fmtBits x.auxFmt) 8 > tileBytes] (fun b => check b .range)

/-- The checks of R118 on a SLICE; `setK` is the `K` recorded for the set that a stationary slice's tokens use. -/
def fieldCheck (x : SDesc) (setK : Nat) : Option Sc := (formatCheck x).or (rangeCheck x setK)

/-- Format and `K` that the set a slice's tokens use records, a load under way included (R88). -/
def tokenSet (o : Ope) (q : Seq) (x : SDesc) : Option Nat × Nat :=
  if x.wSwap then
    match q.flight.find? (·.loadDue) with
    | some f => (some f.t.d.fmtB, f.t.d.k)
    | none => (o.wShd.fmt, o.wShd.k)
  else (o.wAct.fmt, o.wAct.k)

/-- Every check of R78 and R118 on a SLICE, in their order. -/
def sliceCheck (o : Ope) (q : Seq) (x : SDesc) : Option Sc :=
  let s := tokenSet o q x
  (modeCheck x s.1 (o.shadowPend || q.flight.any (·.loadDue))).or (fieldCheck x s.2)

/-! ### Records, pushes and the end of a list -/

/-- Write a completion record and count it (R121, R124). -/
def seqRecord (d : Dev) (e : Nat) (at' pc tag : Nat) (sc : Sc) (ovr : Nat) (f : Option Flight) : Dev :=
  let q := (pair d e).seq
  let r := timeAt d at' % 2 ^ 32 * 2 ^ 96 + min ovr (2 ^ 24 - 1) * 2 ^ 72 + pc % 2 ^ 20 * 2 ^ 52 + sc.code * 2 ^ 44
    + (match f with | some f => f.replays % 8 * 2 ^ 41 + f.ovfFinal.toNat * 2 ^ 40 + f.parityErr.toNat * 2 ^ 39 | none => 0) + tag
  let d := storeWrite d 1 e (fld q.cfg 35 18 * 64 + q.doneCnt.toNat % 2 ^ fld q.cfg 55 52 * 16) (leBytes 16 r)
  modSeq d e (fun q => { q with doneCnt := inc q.doneCnt, lastDone := max q.lastDone at', lastRec := max q.lastRec at', overrunCnt := (if ovr > 0 then inc q.overrunCnt else q.overrunCnt) })

/-- Biscuits held: of slices in the array, and of pushes not yet accepted (R122). -/
def seqHeld (q : Seq) : Nat :=
  (q.flight.filter (fun f => f.t.biscuit.isSome)).length + q.pushQ.length + q.pushing.isSome.toNat

/-- A biscuit was released at ECLK `at'`: a pop that the limit held is requested in the next ECLK (R122). -/
def seqRelease (d : Dev) (e at' : Nat) : Dev :=
  let q := (pair d e).seq
  match q.cur with
  | some t =>
    if t.popHeld && seqHeld q < 4 then
      requestPop (modSeq d e (fun q => { q with cur := some { t with popHeld := false } })) (.seq e) 0 t.d.waitQ (pairKennel d e) (at' + 1)
    else d
  | none => d

/-- Send the oldest waiting push, one at a time in list order (R121). -/
def seqNextPush (d : Dev) (e : Nat) : Dev :=
  let q := (pair d e).seq
  match q.pushing, q.pushQ with
  | none, (pc, hq, b, t) :: r =>
    requestPush (modSeq d e (fun q => { q with pushing := some pc, pushQ := r })) (.seq e) hq (pairKennel d e) b (max t q.lastDone)
  | _, _ => d

/-- A refused descriptor ends its list: its record follows every earlier one, and `RUN` clears once every earlier slice has
completed; firmware ends the task with the code (R120). -/
def seqFinishRefusal (d : Dev) (e : Nat) : Dev :=
  let q := (pair d e).seq
  match q.cur with
  | some t =>
    match t.refused with
    | some sc =>
      let d := if q.flight.isEmpty && !t.recorded then
          modSeq (seqRecord d e (max t.time q.lastDone) t.pc t.d.tag sc 0 none) e (fun q => { q with cur := some { t with recorded := true } })
        else d
      if q.flight.isEmpty && q.pushQ.isEmpty && q.pushing.isNone then
        taskEnding (modSeq d e (fun q => { q with run := false, cur := none })) (pairKennel d e) sc
      else d
    | none => d
  | none => d

/-- Refuse a descriptor (R120). -/
def seqRefuse (d : Dev) (e : Nat) (t : Upcoming) (sc : Sc) : Dev :=
  let d := modSeq d e (fun q => { q with refused := true, refuseSc := sc.code, pc := t.pc, cur := some { t with refused := some sc, popHeld := false } })
  seqFinishRefusal d e

/-- The ECLK at which a sequencer is stopped: now, or the latest issue that the commands have shown (log 48). -/
def seqNow (d : Dev) (q : Seq) : Nat := (q.flight.map (·.first)).foldl max d.eclk

/-- Step cycles or tokens of a slice that have entered the array by ECLK `now`. -/
def stepsIssued (level now : Nat) (f : Flight) : Nat :=
  min (stepCycles f.t.d) (max (openBefore level (now + 1) - openBefore level f.stepAt) (ceilDiv (f.win * promoP f.t.d) (rho f.t.d.fmtA)))

/-- A slice of which `n` step cycles or tokens have entered the array runs out: its whole windows are promoted, a partial
stays in the cells, and tokens that were not issued add nothing (R110). -/
def runOutFlight (m : Mem) (o : Ope) (f : Flight) (n : Nat) : Ope :=
  let x := f.t.d
  if n ≥ stepCycles x then (promoteAll (windows x) m o f).1
  else if x.stat then passOperands m x (streamTokens m x (setBank o f.bank f.before) n) n
  else
    let k := n * rho x.fmtA
    let z := promoteAll (k / promoP x - f.win) m o f
    { passOperands m x z.1 n with part := windowPartsTo m x f.tRef (k / promoP x) k }

/-- Stop a sequencer as a write of `ABORT` does (R110): what has entered the array runs out, drains and loads that have not
begun are cancelled, and the biscuits are discarded. -/
def seqStop (d : Dev) (e : Nat) : Dev :=
  let q := (pair d e).seq
  let now := seqNow d q
  let m := tile d e
  let d := modOpe d e (fun o =>
    let o := q.flight.foldl (fun o f => runOutFlight m o f (stepsIssued d.throttle now f)) o
    { o with busy := o.busy.map (fun z => (z.1, min z.2 (now + 2 * depthD))) })
  dropUnits (modSeq d e (fun q => { q with run := false, cur := none, flight := [], pushQ := [], pushing := none })) (· == UnitId.seq e)

/-! ### START and ABORT -/

/-- RW fields of `SEQ_CONFIG`. -/
def seqRw : DWord := mask 64 55 52 ||| mask 64 35 0

/-- A write of 1 to `START` (R109). -/
def seqStart (d : Dev) (e : Nat) (v : DWord) : Dev :=
  if !present d e then d
  else
    let d := modSeq d e (fun q => { q with cfg := accWrite seqRw 0 q.cfg v })
    let q := (pair d e).seq
    let lg := fld q.cfg 55 52
    if q.run || lg < 4 || lg > 12 || fld q.cfg 35 18 * 64 + 16 * 2 ^ lg > tileBytes then
      modSeq d e (fun q => { q with cfgErr := true })
    else
      let t := d.eclk + 2 * depthD
      let d := modOpe d e (fun o => { o with bank0 := [], bank1 := [], acc := false, wAct := {}, wShd := {}, shadowPend := false, part := [], loadFrom := 0, loadTo := 0 })
      modSeq d e (fun q => { q with
        run := true, pc := 0, doneCnt := 0, addr := fld q.cfg 17 0, pcNext := 0, takeAt := t, lastLink := false, linkCost := 0
        cur := none, flight := [], prevMode := none, prevCL := t - 1, minIssue := 0, swapAt := none, load0 := none
        drain0 := 0, drain1 := 0, pathFree := 0, pushQ := [], pushing := none
        gid := 0, gStart := q.beat0.toNat, gEnd := none, lastDone := 0, lastRec := 0, lag := 0 })

/-- A write of 1 to `ABORT` (R110). -/
def seqAbort (d : Dev) (e : Nat) (v : DWord) : Dev :=
  if !present d e then d
  else
    let d := modSeq d e (fun q => { q with cfg := accWrite seqRw 0 q.cfg v })
    if (pair d e).seq.run then seqStop d e else d

/-! ### Take-up (R119, R131) -/

/-- `BEATS` of the closer that the descriptor fetch reaches within `n` descriptors from an address (R107, R131). -/
def scanCloser (n : Nat) (m : Mem) (addr : Nat) : Option Nat :=
  match n with
  | 0 => none
  | k + 1 =>
    if !descFits addr then none
    else
      let x := fetchDesc m addr
      if x.kind = 2 then scanCloser k m x.link
      else if x.kind ≠ 1 ∧ x.kind ≠ 3 then none
      else if x.beats ≠ 0 then some x.beats
      else if x.kind = 3 then none
      else scanCloser k m (addr + 1)

/-- Fix the planned end of the open group for every slice of it (R131). -/
def fixGroup (q : Seq) (stop : Nat) : Seq :=
  { q with gEnd := some stop, flight := q.flight.map (fun f => if f.t.gid = q.gid then { f with t := { f.t with planEnd := some stop } } else f) }

/-- The plan of a descriptor taken up from `addr`: the open group, its end once the fetch has reached the closer, and the
next group after a closer. -/
def planOf (q : Seq) (m : Mem) (x : SDesc) (t : Upcoming) : Seq × Upcoming :=
  let b := if x.beats ≠ 0 then some x.beats else scanCloser 4 m (q.addr + 1)
  let q := match q.gEnd, b with
    | none, some n => fixGroup q (q.gStart + n)
    | _, _ => q
  let t := { t with gid := q.gid, gStart := q.gStart, planEnd := q.gEnd }
  if x.beats ≠ 0 then ({ q with gid := q.gid + 1, gStart := q.gEnd.getD (q.gStart + x.beats), gEnd := none }, t) else (q, t)

/-- Take up a SLICE or HALT that passes its checks. -/
def takeAccepted (d : Dev) (e : Nat) (x : SDesc) : Dev :=
  let p := pair d e
  let q := p.seq
  let t : Upcoming := { d := x, pc := q.pcNext, sval := scalarAt p x.sReg q.takeAt, time := q.takeAt, fetch := q.linkCost }
  let z := planOf q (tile d e) x t
  let held := x.kind = 1 && x.waitEn && seqHeld q ≥ 4
  let d := modSeq d e (fun _ => { z.1 with
    pc := q.pcNext, pcNext := q.pcNext + 1, addr := q.addr + 1, lastLink := false, linkCost := 0, cur := some { z.2 with popHeld := held } })
  if x.kind = 1 && x.waitEn && !held then requestPop d (.seq e) 0 x.waitQ (pairKennel d e) q.takeAt else d

/-- Take up the next descriptor: a LINK moves the list on, each further LINK of a run costing one ECLK (R107, R118). The record
of a descriptor beyond the tile store, whose words cannot be read, has a `TAG` of 0 (DESIGN CHOICE, log 91). -/
def seqTakeUp (d : Dev) (e : Nat) : Dev :=
  let p := pair d e
  let q := p.seq
  if !present d e || !q.run || q.cur.isSome then d
  else
    let t : Upcoming := { d := {}, pc := q.pcNext, time := q.takeAt }
    if !descFits q.addr then seqRefuse d e t .range
    else
      let x := fetchDesc (tile d e) q.addr
      let t := { t with d := x }
      match x.kind with
      | 1 => match sliceCheck p.ope q x with
        | some c => seqRefuse d e t c
        | none => takeAccepted d e x
      | 2 => match linkCheck x with
        | some c => seqRefuse d e t c
        | none => modSeq d e (fun q => { q with
            pc := q.pcNext, pcNext := q.pcNext + 1, addr := x.link, takeAt := q.takeAt + q.lastLink.toNat
            linkCost := q.linkCost + q.lastLink.toNat, lastLink := true })
      | 3 => match haltCheck x with
        | some c => seqRefuse d e t c
        | none => takeAccepted d e x
      | _ => seqRefuse d e t .format

/-- The popped biscuit arrives (R119). -/
def seqArrive (d : Dev) (e : Nat) (b : DWord) (at' : Nat) : Dev :=
  modSeq d e (fun q => { q with cur := q.cur.map (fun t => { t with biscuit := some (b, at') }) })

/-- A refused pop is the refusal of its descriptor (R120, R185). -/
def seqPopDenied (d : Dev) (e : Nat) : Dev :=
  match (pair d e).seq.cur with
  | some t => seqRefuse d e t .denied
  | none => d

/-! ### Issue (R86, R87, R91, R93, R96, R119) -/

/-- The bank into which a slice promotes. -/
def targetBank (o : Ope) (x : SDesc) : Bool := if x.swap then !o.acc else o.acc

/-- A slice writes its bank by accumulation, by clearing or by a marker (R86). -/
def writesBank (x : SDesc) : Bool := x.swap || !x.acc || stepCycles x > 0

/-- What still holds a slice back that no cycle number expresses: a biscuit under way, an unreached planned start, an
attempt not yet settled, a load or a drain not yet begun. -/
def issueBlocked (d : Dev) (o : Ope) (q : Seq) (t : Upcoming) : Bool :=
  let x := t.d
  x.kind != 1 || t.refused.isSome || (x.waitEn && t.biscuit.isNone) || (x.align && beatNow d < t.gStart)
    || q.flight.any (fun f => !f.settled)
    || ((x.wSwap || x.wLoad) && q.flight.any (·.loadDue))
    || (writesBank x && q.flight.any (fun f => f.drainDue && f.bank == targetBank o x))

/-- The first cycle that the array rules allow (R86, R87, R91, R93, R96). -/
def arrayBound (o : Ope) (q : Seq) (x : SDesc) : Nat :=
  let modeChange := match q.prevMode with | some b => b != x.stat | none => false
  let drained := if targetBank o x then q.drain1 else q.drain0
  max (max (q.prevCL + 1) q.minIssue) <|
  max (if modeChange then q.prevCL + 2 * depthD else 0) <|
  max (if writesBank x && drained > 0 then drained + 1 else 0)
    (match q.load0 with | some l => if x.wSwap then l + 1 else 0 | none => 0)

/-- First issue cycle of a slice (R119). -/
def firstIssue (d : Dev) (o : Ope) (q : Seq) (t : Upcoming) : Nat :=
  gate d.throttle <| max (arrayBound o q t.d) <| max t.time <|
    max (match t.biscuit with | some b => b.2 | none => 0) (if t.d.align then beatEclk d t.gStart else 0)

/-- c_L of a slice whose first issue cycle is `c` (R81, R130). -/
def lastIssue (level : Nat) (x : SDesc) (c : Nat) : Nat := gateNth level c ((hasMarker x).toNat + stepCycles x - 1)

/-- Earlier slices' windows run out before a later slice's marker reaches their cells (R80, R82). -/
def runOut (m : Mem) (o : Ope) (fs : List Flight) : Ope × List Flight :=
  fs.foldl (fun z f => let y := promoteAll (windows f.t.d) m z.1 f; (y.1, z.2 ++ [y.2])) (o, [])

/-- Issue of the slice taken up. -/
def seqIssue (d : Dev) (e : Nat) : Dev :=
  let p := pair d e
  let q := p.seq
  match q.cur with
  | none => d
  | some t =>
    if !q.run || issueBlocked d p.ope q t then d
    else
      let x := t.d
      let m := tile d e
      let c := firstIssue d p.ope q t
      let l := lastIssue d.throttle x c
      let (o, fs) := runOut m p.ope q.flight
      let o := marker x o
      let before := if x.stat then bankOf o o.acc else []
      let o := if x.stat then streamTokens m x o x.m else o
      let o := { passOperands m x o (stepCycles x) with mode := x.stat, busy := addSpan d o.busy c (l + 2 * depthD) }
      let s := gateNth d.throttle c (hasMarker x).toNat
      let f : Flight := { t := t, first := c, cL := l, stepAt := s, bank := o.acc, before := before, settled := !isIntOp x, loadDue := x.wLoad, drainDue := x.drain, complAt := l + 2 * depthD - 1 }
      let f := if x.stat then f else beginAttempt m f x.intT
      modPair d e (fun p => { p with ope := o, seq := { q with
        cur := none, flight := fs ++ [f], takeAt := c, prevMode := some x.stat, prevCL := l
        minIssue := if isIntOp x then l + 2 * depthD else q.minIssue
        swapAt := if x.stat && x.wSwap then some c else q.swapAt
        load0 := if x.stat && x.wSwap then none else q.load0 } })

/-- The first slice in the array that satisfies a test, changed; none when there is none. -/
def modFlight (fs : List Flight) (t : Flight → Bool) (g : Flight → Flight) : List Flight :=
  match fs with
  | [] => []
  | f :: r => if t f then g f :: r else f :: modFlight r t g

/-- Promotion of window `w` of the slice with index `pc`, once every earlier slice's windows are promoted (R53, R80). -/
def promotion (d : Dev) (e pc w : Nat) : Dev :=
  let p := pair d e
  match p.seq.flight.find? (fun f => f.win < windows f.t.d) with
  | some f =>
    if f.t.pc = pc ∧ f.win = w then
      let z := promoteWindow (tile d e) p.ope f
      modPair d e (fun p => { p with ope := z.1, seq := { p.seq with flight := modFlight p.seq.flight (fun f => f.win < windows f.t.d) (fun _ => z.2) } })
    else d
  | none => d

/-- The weight load of the oldest slice that has one due (R88, R90). -/
def weightLoad (d : Dev) (e : Nat) : Dev :=
  let p := pair d e
  match p.seq.flight.find? (·.loadDue) with
  | none => d
  | some f =>
    let l := match p.seq.swapAt with | some s => max f.first (s + depthD) | none => f.first
    modPair d e (fun p => { p with
      ope := { p.ope with wShd := loadTile (tile d e) f.t.d, shadowPend := true, loadFrom := l, loadTo := l + depthD }
      seq := { p.seq with load0 := some l, flight := modFlight p.seq.flight (·.loadDue) (fun f => { f with loadDue := false }) } })

/-- The check cycle of the MXINT8 slice in the array (R94, R95, R97). The clearing marker of a replay is issued in the check
cycle even where the throttle withholds that cycle; its steps are gated (DESIGN CHOICE, log 86). -/
def checkCycle (d : Dev) (e : Nat) : Dev :=
  let p := pair d e
  match p.seq.flight.find? (fun f => !f.settled) with
  | none => d
  | some f =>
    if f.win < windows f.t.d then d
    else if f.over' && !finalAttempt f then
      let c := f.cL + 2 * depthD
      let s := gate d.throttle (c + 1)
      let l := gateNth d.throttle s (stepCycles f.t.d - 1)
      let g := beginAttempt (tile d e) { f with replays := f.replays + 1, cL := l, stepAt := s, complAt := l + 2 * depthD - 1 } (f.tRef + 1)
      modPair d e (fun p => { p with
        ope := { setBank p.ope f.bank [] with lastReplays := f.replays + 1, replayCnt := inc p.ope.replayCnt, busy := addSpan d p.ope.busy c (l + 2 * depthD) }
        seq := { p.seq with prevCL := l, minIssue := l + 2 * depthD, flight := modFlight p.seq.flight (fun f => !f.settled) (fun _ => g) } })
    else
      modPair d e (fun p => { p with
        ope := { p.ope with lastReplays := f.replays, ovfFinal := p.ope.ovfFinal || f.over', ovfCnt := if f.over' then inc p.ope.ovfCnt else p.ope.ovfCnt }
        seq := { p.seq with flight := modFlight p.seq.flight (fun f => !f.settled) (fun f => { f with settled := true, ovfFinal := f.over' }) } })

/-- The oldest due drain, with the bank entries that an upset has struck (R83 to R86, R103). -/
def drainSlice (d : Dev) (e : Nat) (upsets : List Nat) : Dev :=
  let p := pair d e
  match p.seq.flight.find? (·.drainDue) with
  | none => d
  | some f =>
    if !f.settled || f.win < windows f.t.d then d
    else
      let ds := max (f.cL + 2 * depthD) p.seq.pathFree
      let bank := upsetBank (bankOf p.ope f.bank) upsets
      let bad := badEntries bank
      let d := modPair d e (fun p => { p with
        ope := { setBank p.ope f.bank bank with draining := addSpan d p.ope.draining ds (ds + 276), parityErr := p.ope.parityErr || bad, parityCnt := if bad then inc p.ope.parityCnt else p.ope.parityCnt }
        seq := { p.seq with
          pathFree := ds + 256, drain0 := if f.bank then p.seq.drain0 else ds, drain1 := if f.bank then ds else p.seq.drain1
          flight := modFlight p.seq.flight (·.drainDue) (fun f => { f with drainDue := false, complAt := ds + 275, parityErr := bad }) } })
      let d := drainRows d e f.t.d f.t.sval bank
      if bad then taskFault d (pairKennel d e) .task else d

/-- The completion point of the oldest slice: record, count, push or drop (R121, R122, R133, R332). -/
def sliceCompletion (d : Dev) (e : Nat) : Dev :=
  let q := (pair d e).seq
  match q.flight with
  | [] => d
  | f :: r =>
    if !f.settled || f.win < windows f.t.d || f.loadDue || f.drainDue then d
    else
      let ovr := overrunOf d f.complAt f.t.planEnd
      let d := modSeq d e (fun q => { q with flight := r, lag := overrunBeats d ovr })
      let d := seqRecord d e f.complAt f.t.pc f.t.d.tag .ok ovr (some f)
      let d := match f.t.biscuit with
        | some b =>
          if f.t.d.pushEn then seqNextPush (modSeq d e (fun q => { q with pushQ := q.pushQ ++ [(f.t.pc, f.t.d.pushQ, b.1, f.complAt + 1)] })) e
          else seqRelease d e (max f.complAt q.lastRec)
        | none => d
      seqFinishRefusal d e

/-- A push of the sequencer was accepted at ECLK `at'` (R121, R122). -/
def seqPushed (d : Dev) (e at' : Nat) : Dev :=
  let d := modSeq d e (fun q => { q with pushing := none, lastDone := max q.lastDone at' })
  seqFinishRefusal (seqNextPush (seqRelease d e at') e) e

/-- A push that R185 refuses: the record stands, later slices stop, and firmware ends the task (R120). -/
def seqPushDenied (d : Dev) (e : Nat) : Dev :=
  let q := (pair d e).seq
  let d := modSeq d e (fun q => { q with refused := true, refuseSc := Sc.denied.code, pc := q.pushing.getD q.pc })
  taskEnding (if q.run then seqStop d e else d) (pairKennel d e) .denied

/-- The completion point of a HALT (R123). -/
def haltDescriptor (d : Dev) (e : Nat) : Dev :=
  let q := (pair d e).seq
  match q.cur with
  | none => d
  | some t =>
    if t.d.kind != 3 || t.refused.isSome || !q.flight.isEmpty || !q.pushQ.isEmpty || q.pushing.isSome then d
    else
      let c := max t.time q.lastDone
      let ovr := overrunOf d c t.planEnd
      let d := seqRecord d e c t.pc t.d.tag .ok ovr none
      modSeq d e (fun q => { q with halted := true, run := false, cur := none, lag := overrunBeats d ovr })

/-! ### Status and lag -/

/-- The popped biscuit has not arrived (R119). -/
def biscuitDue (d : Dev) (t : Upcoming) : Bool := t.d.waitEn && (match t.biscuit with | some b => decide (d.eclk < b.2) | none => true)

/-- Why issue is held (Table 4-2). Where several reasons hold it, the first of 5, 2, 1, 3, 4, 6 is read (DESIGN CHOICE,
log 90). -/
def seqHold (d : Dev) (e : Nat) : Nat :=
  let p := pair d e
  let q := p.seq
  if !q.run then 0
  else match q.cur with
    | none => if q.linkCost > 0 && d.eclk < q.takeAt then 5 else 0
    | some t =>
      if t.d.kind != 1 || t.refused.isSome then 0
      else if t.fetch > 0 && d.eclk < t.time then 5
      else if t.popHeld then 2
      else if biscuitDue d t then 1
      else if issueBlocked d p.ope q { t with d := { t.d with w0 := t.d.w0 &&& ~~~(1#64 <<< 51) } } || d.eclk < arrayBound p.ope q t.d then 3
      else if t.d.align && beatNow d < t.gStart then 4
      else if gate d.throttle d.eclk ≠ d.eclk then 6 else 0

/-- `SEQ_STATUS` (Table 4-2). -/
def seqStatus (d : Dev) (e : Nat) : DWord :=
  let q := (pair d e).seq
  put 64 20 (q.pc % 2 ^ 20) ||| put 64 12 q.refuseSc ||| putB 64 11 q.refused ||| putB 64 10 q.halted ||| putB 64 9 q.cfgErr
    ||| put 64 6 (seqHold d e) ||| putB 64 0 q.run

/-- Unit lag of a sequencer at the boundary of beat b (R332). -/
def seqLagAt (q : Seq) (b : Nat) : Nat :=
  if !q.run then q.lag
  else
    let stop := match q.flight with
      | f :: _ => f.t.planEnd
      | [] => match q.cur with | some t => if t.refused.isSome then none else t.planEnd | none => none
    match stop with
    | some e => if e < b then max q.lag (b - e) else q.lag
    | none => q.lag

end Sys2Proof.Machine
end

