-- ==== Sys2Proof/Machine/VeOps.lean ====
section
/-! DEFINITION. The vector engine: instruction words, checks, issue, program flow and completion (R134 to R166). The data
effect of each instruction stands with its meaning. -/

namespace Sys2Proof.Machine

def laneCount : Nat := 512
def cacheBytes : Nat := 2097152

/-! ### Instruction words (R139, Tables 5-2 and 5-3) -/

def vOp (w : DWord) : Nat := fld w 63 56
def vVD (w : DWord) : Nat := fld w 55 51
def vVA (w : DWord) : Nat := fld w 50 46
def vBsrc (w : DWord) : Nat := fld w 45 44
def vG (w : DWord) : Nat := fld w 43 41
def vVC (w : DWord) : Nat := fld w 40 36
def vMod (w : DWord) : Nat := fld w 35 32
def vB (w : DWord) : Nat := fld w 31 0
def vSD (w : DWord) : Nat := fld w 55 50
def vSA (w : DWord) : Nat := fld w 49 44
def vVS (w : DWord) : Nat := fld w 43 39
def vImm (w : DWord) : Nat := fld w 31 0
/-- `SR` of CVT and QNT (R147). -/
def vSr (w : DWord) : Bool := bit w 31

/-- How an instruction uses operand B. -/
inductive BUse where
  /-- Not used. -/
  | no
  /-- Operand B by `BSRC`. -/
  | operand
  /-- A second guard register (GLOG). -/
  | guard
  /-- A scalar index and an offset (R144). -/
  | mem
  /-- The rounding controls of R147. -/
  | cvt
  /-- The element of R155. -/
  | xadd
deriving DecidableEq, Repr

/-- A row of Table 5-4: the fields in use, the admitted modifiers, latency (0 for a dash) and occupancy. -/
structure VInfo where
  scalar : Bool := false
  d : Bool := false
  a : Bool := false
  g : Bool := false
  c : Bool := false
  v : Bool := false
  b : BUse := .no
  /-- The destination, or the first source, is a guard register. -/
  dg : Bool := false
  ag : Bool := false
  modLo : Nat := 0
  modHi : Nat := 0
  imm : Nat := 0
  /-- `SD` and `SA` name pairs. -/
  pd : Bool := false
  pa : Bool := false
  lat : Nat := 0
  occ : Nat := 1
deriving DecidableEq, Repr

def vBin (lat : Nat) : VInfo := { d := true, a := true, g := true, b := .operand, lat := lat }
def vUn (lat occ : Nat) : VInfo := { d := true, a := true, g := true, lat := lat, occ := occ }

/-- Table 5-4, vector form. -/
def vecInfo (op : Nat) : Option VInfo :=
  match op with
  | 0x00 => some {}
  | 0x01 => some (vBin 4)
  | 0x02 => some (vBin 4)
  | 0x03 => some (vBin 4)
  | 0x04 => some { vBin 5 with c := true }
  | 0x05 => some { vBin 5 with c := true }
  | 0x06 => some (vBin 2)
  | 0x07 => some (vBin 2)
  | 0x08 => some { vBin 2 with dg := true, modHi := 5 }
  | 0x09 => some (vBin 1)
  | 0x0A => some { vBin 1 with a := false, modHi := 3 }
  | 0x10 => some (vBin 1)
  | 0x11 => some (vBin 1)
  | 0x12 => some (vBin 1)
  | 0x13 => some (vBin 1)
  | 0x14 => some { vBin 2 with dg := true, modHi := 5 }
  | 0x18 => some { vUn 3 1 with b := .cvt, modLo := 1, modHi := 2 }
  | 0x19 => some { vUn 8 2 with b := .cvt, c := true, modLo := 3, modHi := 8 }
  | 0x1A => some (vUn 3 1)
  | 0x1B => some (vUn 3 1)
  | 0x20 => some { d := true, g := true, b := .mem, modHi := 2, lat := 6 }
  | 0x21 => some { a := true, g := true, b := .mem, modHi := 8 }
  | 0x22 => some { a := true, g := true, b := .mem }
  | 0x23 => some { d := true, g := true, b := .mem, dg := true, lat := 4 }
  | 0x24 => some { a := true, b := .mem, ag := true }
  | 0x28 => some { vUn 1 1 with b := .guard, dg := true, ag := true, modHi := 3 }
  | 0x30 => some { vUn 20 18 with modHi := 1 }
  | 0x31 => some { vUn 20 18 with modHi := 1 }
  | 0x32 => some { vUn 2 0 with modLo := 1, modHi := 9 }
  | 0x33 => some { vUn 2 0 with modLo := 1, modHi := 9 }
  | 0x34 => some { vUn 2 0 with modLo := 1, modHi := 9 }
  | 0x38 => some (vUn 16 4)
  | 0x39 => some (vUn 16 4)
  | 0x3A => some (vUn 12 3)
  | 0x3B => some (vUn 12 3)
  | 0x3C => some (vUn 22 6)
  | 0x40 => some { lat := 1 }
  | 0x41 => some { a := true, g := true, b := .xadd, modHi := 1, lat := 18, occ := 16 }
  | 0x42 => some { d := true, g := true, modHi := 1, lat := 6, occ := 2 }
  | 0x43 => some { b := .mem, occ := 24 }
  | 0x44 => some { b := .mem, lat := 18, occ := 24 }
  | _ => none

/-- Table 5-4, scalar form: `imm` has a one for each bit of `IMM` in use. -/
def scaInfo (op : Nat) : Option VInfo :=
  match op with
  | 0x50 => some { scalar := true, d := true, imm := 0xFFFFFFFF, lat := 1 }
  | 0x51 => some { scalar := true, d := true, a := true, imm := 0xFFFFFFFF, lat := 1 }
  | 0x52 => some { scalar := true, d := true, a := true, pd := true, pa := true, imm := 0xFFFFFFFF, lat := 1 }
  | 0x53 => some { scalar := true, d := true, v := true, imm := 0x1FF, lat := 3 }
  | 0x54 => some { scalar := true, d := true, modHi := 1, imm := 0x1F, lat := 6 }
  | 0x55 => some { scalar := true, d := true, a := true, dg := true, lat := 1 }
  | 0x58 => some { scalar := true, modHi := 1, imm := 0xFFFFFFFF }
  | 0x59 => some { scalar := true, a := true, pa := true, imm := 0xFF, lat := 1 }
  | 0x5A => some { scalar := true, d := true, pd := true, imm := 0x7FFF, lat := 8 }
  | 0x5B => some { scalar := true, a := true, pa := true, imm := 0x7FFF }
  | 0x5C => some { scalar := true, imm := 0x1FF }
  -- `IMM`[8] of a HALT, which R161 gives no meaning, counts as reserved (DESIGN CHOICE, log 92).
  | 0x5D => some { scalar := true, imm := 0xFF }
  | _ => none

/-- The row of the word's opcode; a LOOP with `MOD` 1 uses `SA` and only the upper bits of `IMM` (R159). -/
def vInfo (w : DWord) : Option VInfo :=
  if vOp w = 0x58 ∧ vMod w = 1 then some { scalar := true, a := true, modHi := 1, imm := 0xFFC00000 }
  else (vecInfo (vOp w)).or (scaInfo (vOp w))

/-- Format checks of operand B (R139, R140, R142, R144, R147, R155). -/
def bFormat (i : VInfo) (w : DWord) : Bool :=
  match i.b with
  | .no => vBsrc w == 0 && vB w == 0
  | .operand => vBsrc w != 3 && (vBsrc w != 0 || fld w 31 5 == 0) && (vBsrc w != 1 || fld w 31 6 == 0)
  | .guard => vBsrc w == 0 && fld w 31 3 == 0
  | .mem => vBsrc w == 2 && fld w 15 6 == 0
  | .cvt => vBsrc w == 2 && fld w 30 6 == 0 && (if vSr w then fld w 0 0 == 0 else fld w 5 0 == 0)
  | .xadd => vBsrc w == 2 && fld w 31 5 == 0

/-- Format checks of an instruction word in vector form. -/
def vecFormat (i : VInfo) (w : DWord) : Bool :=
  [i.d || vVD w == 0, i.a || vVA w == 0, i.g || vG w == 0, i.c || vVC w == 0, bFormat i w,
    !i.dg || (vVD w < 8 && vVD w != 0), !i.ag || vVA w < 8].all id

/-- Format checks of an instruction word in scalar form. -/
def scaFormat (i : VInfo) (w : DWord) : Bool :=
  [i.d || vSD w == 0, i.a || vSA w == 0, i.v || vVS w == 0, fld w 38 36 == 0, vImm w &&& i.imm == vImm w,
    !i.dg || (vSD w < 8 && vSD w != 0), !i.pd || vSD w % 2 == 0, !i.pa || vSA w % 2 == 0].all id

def modOk (i : VInfo) (w : DWord) : Bool := i.modLo ≤ vMod w && vMod w ≤ i.modHi

/-- The checks on the word alone, format before range (R136, R139, R140, R142, R159, R161, R163). -/
def wordCheck (w : DWord) : Option Sc :=
  match vInfo w with
  | none => some .format
  | some i =>
    (check (!(modOk i w && (if i.scalar then scaFormat i w else vecFormat i w))) .format).or <|
    (check ((vOp w == 0x58 && fld w 31 22 == 0) || (vOp w == 0x5C && fld w 7 0 == 0)) .range)

/-- Latency and occupancy (Table 5-4). -/
def vLat (i : VInfo) (w : DWord) : Nat :=
  match vOp w with | 0x32 => 2 * vMod w + 2 | 0x33 => vMod w + 2 | 0x34 => vMod w + 2 | _ => i.lat
def vOcc (i : VInfo) (w : DWord) : Nat :=
  match vOp w with | 0x32 => 2 * vMod w | 0x33 => vMod w | 0x34 => vMod w | _ => i.occ

/-! ### Registers read and written (R141) -/

/-- A program-visible register. -/
inductive VReg where
  | v (i : Nat)
  | g (i : Nat)
  | s (i : Nat)
  | x
  | ctx
deriving DecidableEq, Repr

/-- Registers that operand B reads. -/
def bReads (i : VInfo) (w : DWord) : List VReg :=
  match i.b with
  | .operand => if vBsrc w = 0 then [VReg.v (vB w)] else if vBsrc w = 1 then [VReg.s (vB w)] else []
  | .guard => [VReg.g (vB w)]
  | .mem => [VReg.s (fld w 5 0)]
  | .cvt => if vSr w then [VReg.s (fld w 5 0), VReg.s (fld w 5 0 + 1), VReg.ctx] else []
  | _ => []

def vecReads (i : VInfo) (w : DWord) : List VReg :=
  let parts : List (List VReg) := [
    if i.g then [VReg.g (vG w)] else [],
    if i.a then (if i.ag then [VReg.g (vVA w)] else [VReg.v (vVA w)]) else [],
    if i.c && vOp w != 0x19 then [VReg.v (vVC w)] else [],
    bReads i w,
    if 0x41 ≤ vOp w && vOp w ≤ 0x44 then [VReg.x] else []]
  parts.flatten

def scaReads (i : VInfo) (w : DWord) : List VReg :=
  let parts : List (List VReg) := [
    if i.a then (if i.pa then [VReg.s (vSA w), VReg.s (vSA w + 1)] else [VReg.s (vSA w)]) else [],
    if i.v then [VReg.v (vVS w)] else [],
    if vOp w == 0x54 then [VReg.x] else []]
  parts.flatten

def vecWrites (i : VInfo) (w : DWord) : List VReg :=
  let parts : List (List VReg) := [
    if i.d then (if i.dg then [VReg.g (vVD w)] else [VReg.v (vVD w)]) else [],
    if vOp w == 0x19 then [VReg.v (vVC w)] else [],
    if vOp w == 0x40 || vOp w == 0x41 || vOp w == 0x44 then [VReg.x] else []]
  parts.flatten

def scaWrites (i : VInfo) (w : DWord) : List VReg :=
  let parts : List (List VReg) := [
    if i.d then (if i.dg then [VReg.g (vSD w)] else if i.pd then [VReg.s (vSD w), VReg.s (vSD w + 1)] else [VReg.s (vSD w)]) else [],
    if vOp w == 0x59 then [VReg.ctx] else []]
  parts.flatten

def vReads (i : VInfo) (w : DWord) : List VReg := if i.scalar then scaReads i w else vecReads i w
def vWrites (i : VInfo) (w : DWord) : List VReg := if i.scalar then scaWrites i w else vecWrites i w

/-- ECLK in which a register's result is available. -/
def readyOf (x : Ve) (r : VReg) : Nat :=
  match r with
  | .v i => Tbl.get 0 x.vReady i
  | .g i => if i = 0 then 0 else Tbl.get 0 x.gReady i
  | .s i => Tbl.get 0 x.sReady i
  | .x => x.xReady
  | .ctx => x.cReady

def setReady (x : Ve) (r : VReg) (t : Nat) : Ve :=
  match r with
  | .v i => { x with vReady := Tbl.set 0 x.vReady i t }
  | .g i => { x with gReady := Tbl.set 0 x.gReady i t }
  | .s i => { x with sReady := Tbl.set 0 x.sReady i t }
  | .x => { x with xReady := t }
  | .ctx => { x with cReady := t }

/-- A register of the pair that a POPQ waits to write. -/
def inPopPair (x : Ve) (r : VReg) : Bool :=
  match x.popTo, r with
  | some z, .s i => i == z.1 || i == z.1 + 1
  | _, _ => false

/-! ### Lanes, guards and scalars -/

/-- The lanes of a register from a sparse form. -/
def expandLanes (n i : Nat) (t : Tbl Word) : List Word :=
  match n with
  | 0 => []
  | k + 1 => match t with
    | (j, v) :: r => if j = i then v :: expandLanes k (i + 1) r else 0 :: expandLanes k (i + 1) t
    | [] => 0 :: expandLanes k (i + 1) []

def packLanes (i : Nat) (vs : List Word) : Tbl Word :=
  match vs with
  | [] => []
  | v :: r => if v = 0 then packLanes (i + 1) r else (i, v) :: packLanes (i + 1) r

def lanes (x : Ve) (r : Nat) : List Word := expandLanes laneCount 0 (Tbl.get [] x.v r)
def setLanes (x : Ve) (r : Nat) (vs : List Word) : Ve := { x with v := Tbl.set [] x.v r (packLanes 0 vs) }

/-- G0 reads as all ones (R136). -/
def guardReg (x : Ve) (i : Nat) : BitVec 512 := if i = 0 then BitVec.allOnes 512 else Tbl.get 0 x.g i
def setGuard (x : Ve) (i : Nat) (m v : BitVec 512) : Ve :=
  { x with g := Tbl.set 0 x.g i ((guardReg x i &&& ~~~m) ||| (v &&& m)) }

/-- A lane whose bit in the guard is 0 keeps its contents (R140). -/
def mergeLanes (m : BitVec 512) (old new : List Word) : List Word :=
  (List.zip old new).mapIdx (fun i z => if m.getLsbD i then z.2 else z.1)

/-- Write a vector destination under the guard of the word. -/
def writeLanes (x : Ve) (w : DWord) (vs : List Word) : Ve :=
  setLanes x (vVD w) (mergeLanes (guardReg x (vG w)) (lanes x (vVD w)) vs)

def maskOf (bs : List Bool) : BitVec 512 :=
  BitVec.ofNat 512 (bs.foldr (fun b acc => 2 * acc + b.toNat) 0)

/-- Write a guard destination under the guard of the word. -/
def writeGuard (x : Ve) (w : DWord) (v : BitVec 512) : Ve := setGuard x (vVD w) (guardReg x (vG w)) v

/-- Operand B, lane by lane (Table 5-2). -/
def bOperand (p : Pair) (w : DWord) : List Word :=
  match vBsrc w with
  | 0 => lanes p.ve (vB w)
  | 1 => List.replicate laneCount (scalar p (vB w))
  | _ => List.replicate laneCount (BitVec.ofNat 32 (vB w))

/-- The 64-bit value of a scalar pair (R139). -/
def scalarPair (p : Pair) (i : Nat) : DWord := scalar p (i + 1) ++ scalar p i
def setScalarPair (p : Pair) (i : Nat) (v : DWord) : Pair :=
  setScalar (setScalar p i (v.setWidth 32)) (i + 1) ((v >>> 32).setWidth 32)

/-! ### Effects -/

/-- What the effect of an instruction answers: a refusal, which changes nothing, or the new device and the index of the next
instruction. -/
inductive VRes where
  | refuse (sc : Sc) (xlimit : Bool)
  | ok (d : Dev) (next : Nat)

/-- The effect of an instruction with word `w` that issues at index `pc` in ECLK `c` on pair `e`. -/
abbrev VEffect := Dev → Nat → DWord → Nat → Nat → VRes

/-- An effect on the pair's registers alone. -/
def onPair (f : Pair → DWord → Pair) : VEffect := fun d e w pc _ => .ok (modPair d e (fun p => f p w)) (pc + 1)
/-- An effect that writes vector lanes. -/
def onLanes (f : Pair → DWord → List Word) : VEffect := onPair (fun p w => { p with ve := writeLanes p.ve w (f p w) })
/-- Lane by lane on VA and B. -/
def binLanes (f : Word → Word → Word) : VEffect := onLanes (fun p w => List.zipWith f (lanes p.ve (vVA w)) (bOperand p w))
/-- Lane by lane on VA. -/
def unLanes (f : Word → Word) : VEffect := onLanes (fun p w => (lanes p.ve (vVA w)).map f)

/-- Byte address of an access of `n` bytes in units of `u`; none when it leaves the operand cache (R144). -/
def accessAddr (p : Pair) (w : DWord) (u n : Nat) : Option Nat :=
  let a := ((scalar p (fld w 5 0)).toInt + sext 16 (fld w 31 16)) * u
  if 0 ≤ a ∧ a.toNat + n ≤ cacheBytes then some a.toNat else none

def cache (d : Dev) (e : Nat) : Mem := Tbl.get [] d.caches e

/-- An effect that accesses `n` bytes of the operand cache at its address; one that leaves it is refused (R144). -/
def onCache (u : Nat) (n : DWord → Nat) (f : Dev → Nat → DWord → Nat → Dev) : VEffect := fun d e w pc _ =>
  match accessAddr (pair d e) w u (n w) with
  | none => .refuse .range false
  | some a => .ok (f d e w a) (pc + 1)

/-! ### Issue (R141, R163) -/

def veFetchFits (x : Ve) : Bool := x.base * 64 + 8 * x.pcNext + 8 ≤ tileBytes
def veFetch (d : Dev) (e : Nat) : DWord :=
  let x := (pair d e).ve
  BitVec.ofNat 64 (Mem.readNat (tile d e) (x.base * 64 + 8 * x.pcNext) 8)

/-- Refuse the instruction at index `pc`: `RUN` clears and firmware ends the task with the code (R163). -/
def veRefuse (d : Dev) (e pc : Nat) (sc : Sc) (xl : Bool) : Dev :=
  let d := modVe d e (fun x => { x with
    refused := true, refuseSc := sc.code, pc := pc, xlimit := x.xlimit || xl, run := false })
  taskEnding d (pairKennel d e) sc

/-- What holds the next instruction back whatever it is: a push under way, a HALT that has issued, a planned start not yet
reached (R160, R161). -/
def veHeld (d : Dev) (x : Ve) : Bool :=
  x.pushing || x.closers.any (·.halt) || (match x.startMin with | some b => beatNow d < b | none => false)

/-- What still holds issue that no cycle number expresses: what holds every instruction, and a biscuit under way for a reader of
its pair or for a later POPQ (R141, R160, R161). -/
def veBlocked (d : Dev) (x : Ve) (i : VInfo) (w : DWord) : Bool :=
  veHeld d x || (vReads i w ++ vWrites i w).any (inPopPair x) || (x.popTo.isSome && vOp w == 0x5A)

/-- Issue cycle of an instruction (R141, R160, R161, R458). -/
def veIssueAt (d : Dev) (x : Ve) (i : VInfo) (w : DWord) : Nat :=
  let regs := ((vReads i w ++ vWrites i w).map (readyOf x)).foldl max 0
  gate d.throttle (max x.issueMin (max regs (max (if vOp w = 0x5B then x.visible else 0)
    (match x.startMin with | some b => beatEclk d b | none => 0))))

/-- Back-edges take no issue cycle (R159). -/
def backEdge (ls : List Loop) (next : Nat) : List Loop × Nat :=
  match ls with
  | [] => ([], next)
  | l :: r => if next = l.stop then (if l.left > 1 then ({ l with left := l.left - 1 } :: r, l.first) else backEdge r next) else (l :: r, next)

def isStoreOp (op : Nat) : Bool := op == 0x21 || op == 0x22 || op == 0x24 || op == 0x43

/-- Bookkeeping of an issued instruction: count, `PC`, scoreboard, visibility and the next index. -/
def veIssued (x : Ve) (i : VInfo) (w : DWord) (pc c next : Nat) : Ve :=
  let lat := vLat i w
  let x := if vOp w = 0x5A then x else (vWrites i w).foldl (fun x r => setReady x r (c + lat)) x
  let z := backEdge x.loops next
  { x with
    issueCnt := inc x.issueCnt, pc := pc, pcNext := z.2, loops := z.1, startMin := if vOp w = 0x5C then x.startMin else none
    issueMin := max x.issueMin (c + max 1 (vOcc i w))
    visible := if isStoreOp (vOp w) then c + vOcc i w else x.visible
    done := max x.done (if isStoreOp (vOp w) then c + vOcc i w else c + lat)
    afterGroup := vOp w == 0x5C }

/-- Scalar registers that an instruction writes when its result is due; POPQ writes its pair when the biscuit arrives. -/
def scalarWrites (i : VInfo) (w : DWord) : List Nat :=
  if vOp w = 0x5A then [] else (vWrites i w).filterMap (fun r => match r with | .s n => some n | _ => none)

/-- One issue of the VE of pair `e`: the instruction at the program's place issues when it is the one named `op`. An
instruction that its checks refuse is refused, whatever it is. -/
def veIssue (d : Dev) (e op : Nat) (eff : VEffect) : Dev :=
  let x := (pair d e).ve
  let pc := x.pcNext
  if !present d e || !x.run then d
  else if !veFetchFits x then (if veHeld d x then d else veRefuse d e pc .range false)
  else
    let w := veFetch d e
    match vInfo w with
    | none => if veHeld d x then d else veRefuse d e pc .format false
    | some i =>
      if vOp w ≠ op || veBlocked d x i w then d
      else match wordCheck w with
        | some c => veRefuse d e pc c false
        | none =>
          let c := veIssueAt d x i w
          match eff d e w pc c with
          | .refuse sc xl => veRefuse d e pc sc xl
          | .ok d' next =>
            let h := (noteScalars d.eclk (pair d e) (scalarWrites i w) (c + vLat i w)).history
            modPair d' e (fun p => { p with ve := veIssued p.ve i w pc c next, history := h })

/-! ### Control (R164 to R166) -/

def veRw : DWord := mask 64 17 0

/-- A write of 1 to `START` (R165). -/
def veStart (d : Dev) (e : Nat) (v : DWord) : Dev :=
  if !present d e then d
  else
    let d := modVe d e (fun x => { x with cfg := accWrite veRw 0 x.cfg v })
    if (pair d e).ve.run then modVe d e (fun x => { x with cfgErr := true })
    else
      let d := dropUnits d (· == UnitId.ve e)
      let x := (pair d e).ve
      let y : Ve := {
        cfg := x.cfg, run := true, refuseSc := x.refuseSc, refused := x.refused, halted := x.halted, cfgErr := x.cfgErr
        xlimit := x.xlimit, beat0 := x.beat0, seed := x.seed, overrunCnt := x.overrunCnt, base := fld x.cfg 17 0
        issueMin := d.eclk + 32, done := d.eclk + 32, visible := d.eclk + 32, gStart := x.beat0.toNat }
      modVe d e (fun _ => y)

/-- Stop a VE as a write of `ABORT` does (R166): instructions that have issued complete, a POPQ among them when its biscuit
arrives, and no push is made. -/
def veStop (d : Dev) (e : Nat) : Dev :=
  { modVe d e (fun x => { x with run := false, pushing := false }) with pushReqs := d.pushReqs.filter (fun r => r.unit != .ve e) }

/-- A write of 1 to `ABORT` (R166). -/
def veAbort (d : Dev) (e : Nat) (v : DWord) : Dev :=
  if !present d e then d
  else
    let d := modVe d e (fun x => { x with cfg := accWrite veRw 0 x.cfg v })
    if (pair d e).ve.run then veStop d e else d

/-- A write of `TASK_SEED` (Table 5-8). -/
def seedWrite (d : Dev) (e : Nat) (v : DWord) : Dev :=
  if !present d e then d
  else modVe d e (fun x => if x.run then { x with cfgErr := true } else { x with seed := v })

/-! ### Queues and groups -/

/-- The biscuit of a POPQ arrives: its pair is written in that ECLK (R160). -/
def veArrive (d : Dev) (e : Nat) (b : DWord) (at' : Nat) : Dev :=
  match (pair d e).ve.popTo with
  | none => d
  | some z => modPair d e (fun p =>
      let p := setScalarPair (noteScalars d.eclk p [z.1, z.1 + 1] (at' + 1)) z.1 b
      let x := setReady (setReady p.ve (.s z.1) at') (.s (z.1 + 1)) at'
      { p with ve := { x with popTo := none, done := max x.done at', closers := x.closers.map (fun c => if c.popWait then { c with popWait := false, ready := max c.ready at' } else c) } })

/-- A pop that R185 refuses is the refusal of its POPQ. -/
def vePopDenied (d : Dev) (e : Nat) : Dev :=
  match (pair d e).ve.popTo with
  | none => d
  | some z => veRefuse (modVe d e (fun x => { x with popTo := none, issueCnt := x.issueCnt - 1, closers := x.closers.filter (fun c => !c.popWait) })) e z.2 .denied false

/-- The push of a PUSHQ was accepted (R160). -/
def vePushed (d : Dev) (e at' : Nat) : Dev :=
  modVe d e (fun x => { x with pushing := false, issueMin := max x.issueMin (at' + 1), done := max x.done at' })

/-- A push that R185 refuses is the refusal of its PUSHQ. -/
def vePushDenied (d : Dev) (e : Nat) : Dev :=
  veRefuse (modVe d e (fun x => { x with pushing := false, issueCnt := x.issueCnt - 1 })) e (pair d e).ve.pc .denied false

/-- The completion point of the oldest GROUP or HALT (R162). -/
def veGroupCompletion (d : Dev) (e : Nat) : Dev :=
  match (pair d e).ve.closers with
  | [] => d
  | c :: r =>
    if c.popWait then d
    else
      let ovr := c.ready - beatEclk d c.stop
      modVe d e (fun x => { x with
        closers := r, overrunCnt := if ovr > 0 then inc x.overrunCnt else x.overrunCnt, lag := overrunBeats d ovr
        halted := x.halted || c.halt, run := x.run && !c.halt })

/-- Why issue is held (Table 5-7). Where several reasons hold it, the first of 1, 2, 5, 3, 4, 7 is read, so that 3 stands for a
pop alone and 4 for a PUSHQ that is otherwise ready (R160); the 32 ECLK of `START` read as 2, and 6 is never read (DESIGN
CHOICE, log 90). -/
def veHold (d : Dev) (e : Nat) : Nat :=
  let x := (pair d e).ve
  if !x.run || x.closers.any (·.halt) then 0
  else if x.pushing then 4
  else if !veFetchFits x then 0
  else
    let w := veFetch d e
    match vInfo w with
    | none => 0
    | some i =>
      if ((vReads i w ++ vWrites i w).map (readyOf x)).any (d.eclk < ·) then 1
      else if d.eclk < x.issueMin then 2
      else if (match x.startMin with | some b => decide (beatNow d < b) | none => false) then 5
      else if (vReads i w ++ vWrites i w).any (inPopPair x) || (x.popTo.isSome && vOp w == 0x5A) then 3
      else if vOp w = 0x5B && d.eclk < x.visible then 4
      else if gate d.throttle d.eclk ≠ d.eclk then 7 else 0

/-- `VE_STATUS` (Table 5-7). -/
def veStatus (d : Dev) (e : Nat) : DWord :=
  let x := (pair d e).ve
  put 64 20 (x.pc % 2 ^ 21) ||| put 64 12 x.refuseSc ||| putB 64 11 x.refused ||| putB 64 10 x.halted ||| putB 64 9 x.cfgErr
    ||| putB 64 8 x.xlimit ||| put 64 5 (veHold d e) ||| putB 64 0 x.run

/-- Unit lag of a VE at the boundary of beat b (R332). -/
def veLagAt (x : Ve) (b : Nat) : Nat :=
  match x.closers with
  | c :: _ => if c.stop < b then max x.lag (b - c.stop) else x.lag
  | [] => x.lag

end Sys2Proof.Machine
end

