-- ==== Sys2Proof/Machine/UnitOps.lean ====
section
/-! DEFINITION. The queues' traffic with the units: requests that reach a home, refusals, retries and arrivals
(R119, R185 to R188). -/

namespace Sys2Proof.Machine

/-- A pop that R185 refuses, at its unit. A port's take-up writes nothing more, as for a rejected flit (R194). -/
def popDenied (d : Dev) (u : UnitId) : Dev :=
  match u with
  | .fw => d
  | .seq e => seqPopDenied d e
  | .ve e => vePopDenied d e
  | .se n s => endDesc d n s .denied
  | .zl p =>
    match takeUps d p with
    | [] => d
    | t :: r => pumpTakeUp (rejectFlit (setTakeUps d p ({ t with bad := true, popsLeft := t.popsLeft - 1 } :: r)) p t.kennel) p

/-- A push that R185 refuses, at its unit: the biscuit is not stored. -/
def pushDenied (d : Dev) (u : UnitId) (k : Nat) : Dev :=
  match u with
  | .fw => d
  | .seq e => seqPushDenied d e
  | .ve e => vePushDenied d e
  | .se n s => endDesc d n s .denied
  | .zl p => rejectFlit d p k

/-- A push accepted at ECLK `at'`, at its unit. -/
def pushed (d : Dev) (u : UnitId) (at' : Nat) : Dev :=
  match u with
  | .fw => d
  | .seq e => seqPushed d e at'
  | .ve e => vePushed d e at'
  | .se n s => sePushed d n s at'
  | .zl _ => d

/-- The oldest pop on its way from unit `u` reaches its home, once no request that R186 puts before it is on its way there. -/
def runPop (d : Dev) (u : UnitId) : Dev :=
  match takeFirst d.popReqs (fun r => r.unit == u) with
  | none => d
  | some (r, rest) =>
    if !popFirst d r then d
    else match qPop { d with popReqs := rest } r.q r.kennel u r.role r.at' with
    | (d, .denied) => popDenied d u
    | (d, _) => d

/-- A push of unit `u` reaches its home, once no request that R186 puts before it is on its way there; one that meets the full queue
is kept, to be retried 16 ECLK later (R186, R187). -/
def sendPush (d : Dev) (u : UnitId) (r : PushReq) (rest : List PushReq) : Dev :=
  if !pushFirst d r then d
  else match qPush { d with pushReqs := rest } r.q r.kennel r.biscuit r.at' with
  | (d, .accepted) => pushed d u r.at'
  | (d, .full) => { d with pushReqs := d.pushReqs ++ [{ r with at' := r.at' + 16, retry := true }] }
  | (d, .denied) => pushDenied d u r.kennel

def runPush (d : Dev) (u : UnitId) : Dev :=
  match takeFirst d.pushReqs (fun r => r.unit == u && !r.retry) with
  | none => d
  | some (r, rest) => sendPush d u r rest

def retryPush (d : Dev) (u : UnitId) : Dev :=
  match takeFirst d.pushReqs (fun r => r.unit == u && r.retry) with
  | none => d
  | some (r, rest) => sendPush d u r rest

/-- The oldest biscuit on its way to unit `u` arrives (R119). -/
def runArrival (d : Dev) (u : UnitId) : Dev :=
  match takeFirst d.arrivals (fun a => a.unit == u) with
  | none => d
  | some (a, rest) =>
    let d := { d with arrivals := rest }
    match u with
    | .fw => d
    | .seq e => seqArrive d e a.biscuit a.at'
    | .ve e => veArrive d e a.biscuit a.at'
    | .se n s => seArrive d n s a.role a.biscuit a.at'
    | .zl p => zlArrive d p a.role a.biscuit

end Sys2Proof.Machine
end

