-- ==== Sys2Proof/Machine/ManifestOps.lean ====
section
/-! DEFINITION. Table writes, and the manifest of a task: its sections, checks, tables, arms, placement and freeze
schedule (R191, R192, R270, R291 to R312, R361, R406). -/

namespace Sys2Proof.Machine

/-- Module number of the running epoch. -/
def selfModule (d : Dev) : Nat := d.epochRun.moduleNo

/-! ### Litter and tree writes (R192, R270, R386) -/

/-- Every armed descriptor. -/
def armed (d : Dev) : List Desc :=
  d.ses.flatMap (fun z => z.2.slots.flatMap (fun q =>
    (q.2.act.map (·.desc)).toList ++ (q.2.shd.map (·.1)).toList))

def litterBusy (d : Dev) (l : Nat) : Bool := (armed d).any (fun x => x.kind == 2 && x.litter == l)

/-- Set bits of `MEMBERS` that the space has no place for: in the die store only bits 12c are members. -/
def litStray (x : BitVec 128) : Bool :=
  litSel x == 2 && (List.range 48).any (fun i => Nat.testBit (litMask x) i && i % 12 != 0)

def litQueues (x : BitVec 128) : List Nat :=
  (List.range (litMembers x).length).flatMap (fun i => [litFree x + i, litFull x + i])

def litOutside (d : Dev) (x : BitVec 128) : Bool :=
  (litSel x != 2 && (litMembers x).any (fun u => !present d u))
    || ((litMembers x).isEmpty && !litTreeEn x)
    || (litQueues x).any (· > 32767) || litBase x * 64 ≥ spaceBytes (litSpace x)

def litForeign (d : Dev) (k : Nat) (x : BitVec 128) : Bool :=
  (litMembers x).any (fun u => if litSel x = 2 then Tbl.get 0 d.dieOwner u != k else Tbl.get 0 d.pairOwner u != k)
    || (litQueues x).any (fun q => (hq d q).en && (hq d q).kennel != k)

def litterUse (d : Dev) (k : Nat) : Nat := (d.litters.filter (fun z => litEn z.2 && litKennel z.2 == k)).length

/-- The checks of a write of litter entry `l` for kennel k, in the order of R347. -/
def litterCheck (d : Dev) (k l : Nat) (x : BitVec 128) : Option Sc :=
  let old := litter d l
  let on := litEn x
  firstSome [
    (fld x 6 0 != 0 || (on && (litSel x == 3 || litStray x)), Sc.format),
    ((litEn old && litKennel old != k) || (on && litKennel x != k), Sc.denied),
    (on && litOutside d x, Sc.range),
    (on && litForeign d k x, Sc.denied),
    (on && !litEn old && !within (litterUse d k) 1 (kennel d k).quota.litters, Sc.quota),
    (litterBusy d l, Sc.busy)] (fun z => check z.1 z.2)

def setLitter (d : Dev) (l : Nat) (x : BitVec 128) : Dev := { d with litters := Tbl.set 0 d.litters l x }

def treeUse (d : Dev) (k : Nat) : Nat := (d.trees.filter (fun z => z.2.en && z.2.kennel == k)).length

def treeBusy (d : Dev) (tn : Nat) : Bool :=
  ((tree d tn).en && openCount d tn != 0) || (armed d).any (fun x => x.kind == 4 && x.tree == tn)
    || d.litters.any (fun z => litEn z.2 && litTreeEn z.2 && litTree z.2 == tn)

/-- Entries of an adder that no other enabled tree's window takes (log 26). -/
def adderRoom (d : Dev) (tn p : Nat) : Nat :=
  512 - ((d.trees.filter (fun z => z.1 != tn && z.2.en && !z.2.mcast && z.2.adder == p)).map (fun z => z.2.win)).sum

def treeMalformed (t : Tree) : Bool :=
  fld t.entry 47 0 != 0
    || (if t.mcast then t.localN > 1
        else t.opc == 0 || t.opc > 6 || (t.root && t.localN == 0) || (!t.root && t.adder != t.upPort))
    || (!t.root && Nat.testBit t.down t.upPort)

def treeOutside (d : Dev) (tn : Nat) (t : Tree) : Bool :=
  !t.mcast && (t.win == 0 || t.leash == 0 || t.subtree == 0 || (t.opc == 2 && t.subtree > 2 ^ 24) || t.win > adderRoom d tn t.adder)

/-- The checks of a write of tree entry `tn` for kennel k, in the order of R270; then R263 and the quotas of R376, R387. -/
def treeCheck (d : Dev) (k tn : Nat) (x : BitVec 128) : Option Sc :=
  let old := tree d tn
  let t : Tree := { entry := x }
  let held := old.en && old.kennel != k
  if !t.en then
    firstSome [(fld x 47 0 != 0, Sc.format), (held, Sc.denied), (treeBusy d tn, Sc.busy)] (fun z => check z.1 z.2)
  else
    firstSome [
      (treeBusy d tn, Sc.busy), (treeMalformed t, Sc.format), (treeOutside d tn t, Sc.range),
      (held || t.kennel == 0 || t.kennel != k || (treePorts t).any (fun p => !portAllows d p k), Sc.denied),
      ((treePorts t).any (fun p => zl2Forbids d p t), Sc.unsupported),
      ((kennel d 0).cur.isNone && (!t.root || t.down != 0), Sc.state),
      ((!old.en && !within (treeUse d k) 1 (kennel d k).quota.trees)
        || (!t.mcast && t.opc == 2 && (kennel d k).quota.strict == 0), Sc.quota)] (fun z => check z.1 z.2)

/-- Write a tree entry that its checks allow. -/
def writeTree (d : Dev) (tn : Nat) (x : BitVec 128) : Dev :=
  if ({ entry := x } : Tree).en then enableTree d tn x
  else modTree (clearTree d tn) tn (fun t => { t with entry := x })

/-- Write `HQ_CONFIG` of a queue that its checks allow. -/
def writeHq (d : Dev) (q : Nat) (v : DWord) : Dev := modHq d q (fun x => { x with cfg := v })

/-! ### Sections -/

def Task.sec (t : Task) (kind : Nat) : Option Sec := t.secs.find? (fun s => s.kind == kind)
def Task.data (t : Task) (kind : Nat) : List Byte := match t.sec kind with | some s => s.data | none => []

/-- Items of a section whose layout the spec leaves out, up to the first empty one (log 8). -/
def itemsOf (fuel i kind : Nat) (bs : List Byte) : List (List DWord) :=
  match fuel with
  | 0 => []
  | f + 1 => match Config.sectionWords kind i bs with
    | [] => []
    | w => w :: itemsOf f (i + 1) kind bs
def Task.items (t : Task) (kind : Nat) : List (List DWord) := itemsOf (t.data kind).length 0 kind (t.data kind)

def nthW (w : List DWord) (i : Nat) : DWord := w.getD i 0
def nth (w : List DWord) (i : Nat) : Nat := (nthW w i).toNat

def Task.ringSize (t : Task) : Nat := fld t.p5 63 52 + 1
def Task.batchWait (t : Task) : Nat := fld t.p5 34 27

/-- Roster of the manifest by ring position; a ring of one needs none. -/
def manifestRoster (d : Dev) (t : Task) : List Nat :=
  match t.items 0x0C with
  | [] => if t.ringSize = 1 then [selfModule d] else []
  | l => l.map (fun w => nth w 0 % 4096)

/-- 16-byte and 64-byte records of a list of bytes. -/
def cut (fuel n : Nat) (bs : List Byte) : List (List Byte) :=
  match fuel with
  | 0 => []
  | f + 1 => if bs.isEmpty then [] else bs.take n :: cut f n (bs.drop n)

/-- An ownership record (Table 9-1). -/
def ownership (t : Task) : List (BitVec 128) :=
  (cut (t.data 0x07).length 16 (t.data 0x07)).map (fun b => BitVec.ofNat 128 (leNat b))
def recOwner (r : BitVec 128) : Nat := fld r 127 116
def recTree (r : BitVec 128) : Nat := fld r 115 104
def recColl (r : BitVec 128) : Nat := fld r 91 80
def recSeg (r : BitVec 128) : Nat := fld r 55 28
def recN (r : BitVec 128) : Nat := fld r 27 0

/-- Segments of a task without ownership records. -/
def Task.segCount (t : Task) : Nat := Config.segments (t.secs.flatMap (·.data))

/-- The segments of ring position i by default, floor(i × S / N) up to floor((i + 1) × S / N) (R293). -/
def defaultRange (s n i : Nat) : Nat × Nat := (i * s / n, (i + 1) * s / n - i * s / n)

/-- Owner, first segment and number of segments of every range: the ownership records, or the default ranges by ring position (R293,
R294). -/
def ownedRanges (t : Task) : List (Nat × Nat × Nat) :=
  if (t.secs.any (fun s => s.kind == 0x07)) then (ownership t).map (fun r => (recOwner r, recSeg r, recN r))
  else t.roster.mapIdx (fun i m => (m, defaultRange t.segCount t.roster.length i))

/-- First segment of a module's range. -/
def firstOwned (t : Task) (m : Nat) : Nat := ((ownedRanges t).filter (fun z => z.1 == m && z.2.2 != 0)).foldl (fun a z => min a z.2.1) (2 ^ 28)

/-- Owner of a segment. -/
def ownerOf (t : Task) (n : Nat) : Option Nat := ((ownedRanges t).find? (fun z => z.2.1 ≤ n && n < z.2.1 + z.2.2)).map (·.1)

/-- A parity group entry (Table 13-4). -/
structure Group where
  size : Nat
  pos0 : Nat
  interval : Nat
  ptree0 : Nat
  slen : Nat
  prologue : Nat
  commitArea : Nat
  parityArea : Nat
  stateList : Nat
  stateN : Nat
  remap : Nat
deriving DecidableEq, Repr

def groupOf (b : List Byte) : Group :=
  let f (o n : Nat) : Nat := leNat ((b.drop o).take n)
  { size := f 0 2, pos0 := f 2 2, interval := if f 4 2 = 0 then 200 else f 4 2, ptree0 := f 6 2, slen := f 8 4, prologue := f 12 4
    commitArea := f 16 8, parityArea := f 24 8, stateList := f 32 8, stateN := f 40 4, remap := f 44 8 }

/-- Entries of the parity group description: 64 bytes each, after a 64-byte header (R406). -/
def groupBytes (t : Task) : List (List Byte) := cut (t.data 0x0D).length 64 ((t.data 0x0D).drop 64)
def Task.groups (t : Task) : List Group := (groupBytes t).map groupOf

/-- The group of a ring position. -/
def Task.groupAt (t : Task) (pos : Nat) : Option Group := t.groups.find? (fun g => g.pos0 ≤ pos && pos < g.pos0 + g.size)

/-- Ring position of a module. -/
def Task.posOf (t : Task) (m : Nat) : Option Nat := (t.roster.zipIdx.find? (fun z => z.1 == m)).map (·.2)

def Task.hasParity (t : Task) : Bool := (t.sec 0x0D).isSome

/-! ### Checks of the manifest -/

/-- Table checks of R294. -/
def recordsBad (t : Task) (roster : List Nat) : Bool :=
  let rs := ownership t
  let covers (n : Nat) : Nat := (rs.filter (fun r => recSeg r ≤ n && n < recSeg r + recN r)).length
  let starts := rs.map recSeg
  let ends := rs.map (fun r => recSeg r + recN r)
  let top := ends.foldl max 0
  rs.any (fun r => recN r == 0 || recN r > 65536 || recColl r + ceilDiv (recN r) 16 > 4096 || !roster.contains (recOwner r))
    || top > 2 ^ 28
    || (0 :: ends).any (fun n => n < top && covers n != 1) || starts.any (fun n => covers n != 1)
    || roster.any (fun m =>
        let mine := rs.filter (fun r => recOwner r == m)
        let lo := (mine.map recSeg).foldl min (2 ^ 28)
        let hi := (mine.map (fun r => recSeg r + recN r)).foldl max 0
        !mine.isEmpty && hi - lo != (mine.map recN).sum)

/-- Checks of R406. -/
def groupsBad (t : Task) : Bool :=
  t.hasParity && (t.groups.any (fun g => g.size == 0 || g.size > 16 || g.pos0 + g.size > t.ringSize || g.slen * 4096 * (g.size - 1) > 2 ^ 42)
    || (List.range t.ringSize).any (fun p => (t.groups.filter (fun g => g.pos0 ≤ p && p < g.pos0 + g.size)).length != 1))

/-- Where a slice list or VE program is placed: its first byte, and its completion ring (R361). -/
def placeBase (s : Sec) : Nat := fld s.place 17 0 * 64
def placeRing (s : Sec) : Nat × Nat := (fld s.place 35 18 * 64, 16 * 2 ^ fld s.place 55 52)

def secPlaceRsvd (s : Sec) : Bool :=
  if s.kind = 1 then s.place &&& ~~~seqRw != 0 else if s.kind = 2 then s.place &&& ~~~veRw != 0 else s.place != 0

/-- Ranges that the placed sections of a pair take in its tile store. -/
def placeRanges (s : Sec) : List (Nat × Nat) :=
  if s.kind = 1 then [(placeBase s, s.data.length), placeRing s] else [(placeBase s, s.data.length)]

def rangesMeet (a b : Nat × Nat) : Bool := a.1 < b.1 + b.2 && b.1 < a.1 + a.2

def placeOutside (d : Dev) (t : Task) (s : Sec) : Bool :=
  !present d s.index || (placeRanges s).any (fun r => r.1 + r.2 > tileBytes)
    || (s.kind == 1 && (fld s.place 55 52 < 4 || fld s.place 55 52 > 12))
    || t.secs.any (fun o => o != s && (o.kind == 1 || o.kind == 2) && o.index == s.index
        && (placeRanges o).any (fun a => (placeRanges s).any (rangesMeet a)))

/-- The checks of the placed sections (R361). -/
def sectionCheck (d : Dev) (k : Nat) (t : Task) : Option Sc :=
  firstSome (t.secs.filter (fun s => s.kind == 1 || s.kind == 2)) (fun s =>
    (check (placeOutside d t s) .range).or (check (Tbl.get 0 d.pairOwner s.index != k) .denied))

/-- A descriptor of eight words. -/
def descOf (w : List DWord) : Desc :=
  { w0 := nthW w 0, w1 := nthW w 1, w2 := nthW w 2, w3 := nthW w 3, w4 := nthW w 4, w5 := nthW w 5, w6 := nthW w 6, w7 := nthW w 7 }

def entryOfWords (w : List DWord) : BitVec 128 := nthW w 2 ++ nthW w 1

/-- Write the manifest's queue, tree and litter tables, entry by entry, and preload the queues; an entry that a check
refuses answers its status. At a start, entries that another kennel holds are left alone (log 27). -/
def loadQueue (d : Dev) (k : Nat) (w : List DWord) : Dev :=
  let q := nth w 0 % 32768
  if (hq d q).en && (hq d q).kennel ≠ k then d
  else each (writeHq d q (nthW w 1)) (w.drop 2) (fun d b => (qPush d q k b d.eclk).1)

def loadTree (d : Dev) (k : Nat) (w : List DWord) : Dev :=
  let tn := nth w 0 % 4096
  if (tree d tn).en && (tree d tn).kennel ≠ k then d else writeTree d tn (entryOfWords w)

def loadLitter (d : Dev) (k : Nat) (w : List DWord) : Dev :=
  let l := nth w 0 % 1024
  if litEn (litter d l) && litKennel (litter d l) ≠ k then d else setLitter d l (entryOfWords w)

def loadTables (d : Dev) (k : Nat) (t : Task) : Dev :=
  let d := each d (t.items 0x04) (fun d w => loadQueue d k w)
  let d := each d (t.items 0x06) (fun d w => loadTree d k w)
  each d (t.items 0x05) (fun d w => loadLitter d k w)

/-- Arm the slots of the manifest from start beat b (R362). -/
def loadArms (d : Dev) (k : Nat) (t : Task) (b : Nat) : Dev :=
  each d (t.items 0x03) (fun d w =>
    match arm d k (nth w 0 % 80) (nth w 1 % 32) (descOf (w.drop 3)) (b + nth w 2) with
    | some (d, _) => d
    | none => d)

/-- Check a list of writes one after the other on the tables as the earlier ones leave them. -/
def checkEach {α : Type} (d : Dev) (xs : List α) (chk : Dev → α → Option Sc) (f : Dev → α → Dev) : Option Sc × Dev :=
  xs.foldl (fun r x => match r.1 with
    | some c => (some c, r.2)
    | none => match chk r.2 x with
      | some c => (some c, r.2)
      | none => (none, f r.2 x)) (none, d)

/-- The status that ends creation on the manifest's tables and arms, or none (R361, R376). -/
def tablesCheck (d : Dev) (k : Nat) (t : Task) : Option Sc :=
  let (c1, d) := checkEach d (t.items 0x04) (fun d w => hqSetCheck d k (nth w 0 % 32768) (nthW w 1)) (fun d w => loadQueue d k w)
  let (c2, d) := checkEach d (t.items 0x06) (fun d w => treeCheck d k (nth w 0 % 4096) (entryOfWords w)) (fun d w => loadTree d k w)
  let (c3, d) := checkEach d (t.items 0x05) (fun d w => litterCheck d k (nth w 0 % 1024) (entryOfWords w)) (fun d w => loadLitter d k w)
  let (c4, _) := checkEach d (t.items 0x03)
    (fun d w => let n := nth w 0 % 80; let s := nth w 1 % 32
      (armCheck d k n s (descOf (w.drop 3))).or
        (check (!slotHeld k (sslot d n s) && !within (slotUse d k) 1 (kennel d k).quota.slots) .quota))
    (fun d w => match arm d k (nth w 0 % 80) (nth w 1 % 32) (descOf (w.drop 3)) (nth w 2) with | some (d, _) => d | none => d)
  c1.or (c2.or (c3.or c4))

/-- A section entry of 32 bytes, and whether its reserved bytes are zero (R361). -/
def secEntry (b : List Byte) : Nat × Nat × Nat × Nat × DWord × Bool :=
  (leNat (b.take 2), leNat ((b.drop 2).take 2), leNat ((b.drop 8).take 8), leNat ((b.drop 16).take 8),
   BitVec.ofNat 64 (leNat ((b.drop 24).take 8)), (b.drop 4).take 4 == zeros 4)

/-- What has been read of a manifest: the first error met, the header, the raw entries and the sections. -/
structure RawManifest where
  cls : MemClass
  hdr : List Byte
  ents : List (List Byte)
  secs : List Sec
deriving DecidableEq, Repr

/-- Firmware reads the manifest at an address of kennel k. -/
def readManifest (d : Dev) (k addr : Nat) (ecc : Ecc) : Dev × RawManifest :=
  let (d, c0, hdr) := memReadAll d k addr 64 ecc
  let n := if c0 = .ok then min (leNat (hdr.take 4)) 65536 else 0
  let (d, c1, ents) := memReadAll d k (addr + 64) (32 * n) .clean
  let es := cut n 32 ents
  es.foldl (fun (z : Dev × RawManifest) b =>
    let (kind, ix, a, len, place, _) := secEntry b
    let (d, c, bs) := memReadAll z.1 k a len .clean
    (d, { z.2 with cls := if z.2.cls = .ok then c else z.2.cls, secs := z.2.secs ++ [⟨kind, ix, a, bs, place⟩] }))
    (d, { cls := if c0 = .ok then c1 else c0, hdr := hdr, ents := es, secs := [] })

/-- The byte sequence of the manifest's CRC (R361). -/
def manifestCrc (hdr : List Byte) (es : List (List Byte)) (ss : List Sec) : Word :=
  crc32c (hdr.take 4 ++ zeros 4 ++ hdr.drop 8 ++ es.flatten ++ ss.flatMap (·.data))

def manifestFormat (hdr : List Byte) (es : List (List Byte)) (ss : List Sec) (t : Task) : Bool :=
  (hdr.drop 8).any (· != 0) || es.any (fun b => !(secEntry b).2.2.2.2.2) || ss.any (fun s => s.kind == 0 || s.kind > 0x0E || secPlaceRsvd s)
    || (ownership t).any (fun r => fld r 69 56 != 0) || (groupBytes t).any (fun b => (b.drop 52).any (· != 0))

/-- Every check of a manifest that has been read (R292, R294, R361, R406). `t` holds its sections. -/
def manifestCheck (d : Dev) (k : Nat) (t : Task) (roster : List Nat) : Option Sc :=
  firstSome [
    check (roster.length != t.ringSize) Sc.range,
    check (if (t.sec 0x07).isSome then recordsBad t roster else t.segCount > 2 ^ 28) Sc.range,
    check (groupsBad t) Sc.range,
    sectionCheck d k t,
    tablesCheck d k t] id

/-! ### Placement and plans (R361, R362) -/

/-- Copy the slice lists and VE programs into their tile stores. -/
def placeSections (d : Dev) (t : Task) : Dev :=
  each d (t.secs.filter (fun s => s.kind == 1 || s.kind == 2)) (fun d s => storeWrite d 1 s.index (placeBase s) s.data)

/-- Set the plan of every unit from beat b, `TASK_SEED`, and the step scalar pair (R312, R362). -/
def planUnits (d : Dev) (t : Task) (b step : Nat) : Dev :=
  each d (t.secs.filter (fun s => s.kind == 1 || s.kind == 2)) (fun d s =>
    if s.kind = 1 then modSeq d s.index (fun q => { q with beat0 := BitVec.ofNat 64 b })
    else modPair d s.index (fun p =>
      setScalarPair { p with ve := { p.ve with beat0 := BitVec.ofNat 64 b, seed := t.seed } } (Config.stepPair s.data % 63) (BitVec.ofNat 64 step)))

/-- Write `START` to every sequencer and VE that has a section (R362). -/
def startUnits (d : Dev) (t : Task) : Dev :=
  each d (t.secs.filter (fun s => s.kind == 1 || s.kind == 2)) (fun d s =>
    if s.kind = 1 then seqStart d s.index s.place else veStart d s.index s.place)

/-! ### Freeze schedule (R283, R305, R306) -/

/-- Block number of global block g within its collective, and the collective, under a record that covers it (R294). -/
def blockPlace (t : Task) (g : Nat) : Option (BitVec 128 × Nat × Nat) :=
  let n := g / 2 ^ 19
  ((ownership t).find? (fun r => recSeg r ≤ n && n < recSeg r + recN r)).map (fun r =>
    (r, recColl r + (n - recSeg r) / 16, (n - recSeg r) % 16 * 2 ^ 19 + g % 2 ^ 19))

/-- Addresses of the block maps that this module's REDUCE descriptors of a collective read (R283). -/
def mapsOf (d : Dev) (t : Task) (tn coll : Nat) : List Nat :=
  let arms := (t.items 0x03).map (fun w => descOf (w.drop 3)) ++ armed d
  ((arms.filter (fun x => x.kind == 4 && x.tree == tn && x.coll == coll && x.freezeEn)).map (fun x => x.mapAddr * 64)).foldl
    (fun l a => if l.contains a then l else l ++ [a]) []

/-- Write one bit of a byte of kennel memory; where it already has the value nothing is written, so that a page without a set bit
takes no storage (R305). A byte that cannot be read is a fault of the task (R241). -/
def writeMemBit (d : Dev) (k addr i : Nat) (v : Bool) : Dev :=
  match memReadAll d k addr 1 .clean with
  | (d, .ok, bs) =>
    let b := bs.headD 0
    if bit b i = v then d
    else match memWriteAll d k addr [setBitIn b i v] .firmware .clean with
      | (d, .done) => d
      | (d, .waiting) => d
      | (d, _) => taskFault d k .task
  | (d, _, _) => taskFault d k .task

/-- Address of the freeze plane's byte, and the bit in it, of block g of a range that starts at block g0: word w of 32 bits holds blocks
16w to 16w + 15 in its low half (R305). -/
def planeBit (base g0 g : Nat) : Nat × Nat := (base + (g - g0) / 16 * 4 + (g - g0) % 16 / 8, (g - g0) % 8)

/-- Set the freeze bit of block g in every map of this module that holds it, and in the owner's freeze plane (R305). -/
def setFreeze (d : Dev) (k : Nat) (g : Nat) (v : Bool) : Dev :=
  match task d k with
  | none => d
  | some t =>
    let d := match blockPlace t g with
      | some (r, coll, j) => each d (mapsOf d t (recTree r) coll) (fun d a => writeMemBit d k (a + j / 4) (2 * (j % 4)) v)
      | none => d
    if ownerOf t (g / 2 ^ 19) = some (selfModule d) then
      let z := planeBit (Config.planeAddr (t.data 0x09)) (firstOwned t (selfModule d) * 2 ^ 19) g
      writeMemBit d k z.1 z.2 v
    else d

/-- A freeze entry: step, first block, blocks, value. -/
def freezeEntries (t : Task) : List (List DWord) := t.freezes.map (·.words)

/-- Global blocks that a freeze entry names. -/
def freezeBlocks (w : List DWord) : List Nat := (List.range (nth w 2)).map (nth w 1 + ·)

/-- Write the entries of a step into the maps and the plane. -/
def freezeWrite (d : Dev) (k step : Nat) : Dev :=
  match task d k with
  | none => d
  | some t => each d ((freezeEntries t).filter (fun w => nth w 0 == step)) (fun d w => each d (freezeBlocks w) (fun d g => setFreeze d k g (bit (nthW w 3) 0)))

/-- Repetitions of an armed REDUCE that have read their maps, out of all of them. -/
def mapReads (a : Active) : Nat := a.next - (a.reps.filter (fun r => !r.reading)).length

/-- The window of R306 for step s is open: no REDUCE of an earlier step has a map still to read, and none of step s has read one. -/
def freezeWindow (d : Dev) (k s : Nat) : Bool :=
  d.ses.all (fun z => z.2.slots.all (fun q =>
    (match q.2.act with
      | some a => !(a.kennel == k && a.desc.kind == 4 && a.desc.freezeEn)
          || (if a.desc.step < s then mapReads a == a.desc.rep + 1 else a.desc.step != s || mapReads a == 0)
      | none => true)
    && (match q.2.shd with
      | some (x, _, j, _) => !(j == k && x.kind == 4 && x.freezeEn && x.step < s)
      | none => true)))

/-- Apply the entries of a step, within its window, on a task that runs (R306). -/
def freezeStep (d : Dev) (k step : Nat) : Dev :=
  match task d k with
  | none => d
  | some t => if t.st.active && !t.inRound && freezeWindow d k step then freezeWrite d k step else d

/-- Every entry in ascending order of its step. -/
def sortedSteps (l : List Nat) : List Nat := l.foldl (fun a s => if a.contains s then a else (a.filter (· < s)) ++ [s] ++ (a.filter (· > s))) []

/-- Clear the freeze bit of every block that the schedule names, under the ownership in force. -/
def freezeClear (d : Dev) (k : Nat) : Dev :=
  match task d k with
  | none => d
  | some t => each d (freezeEntries t) (fun d w => each d (freezeBlocks w) (fun d g => setFreeze d k g false))

/-- Freeze bits and plane at their values for a step (R416): the values that the entries up to it leave, and 0 for a block
that only later entries name. -/
def freezeUpTo (d : Dev) (k step : Nat) : Dev :=
  let d := freezeClear d k
  match task d k with
  | none => d
  | some t => each d ((sortedSteps ((freezeEntries t).map (fun w => nth w 0))).filter (· ≤ step)) (fun d s => freezeWrite d k s)

end Sys2Proof.Machine
end

