-- ==== Sys2Proof/Machine/TimeOps.lean ====
section
/-! DEFINITION. The time unit: samples, states, steps and barks (R314 to R333). Offsets are in 1/16 ns. -/

namespace Sys2Proof.Machine

def insertSorted (x : Int) (l : List Int) : List Int :=
  match l with
  | [] => [x]
  | y :: r => if x ≤ y then x :: y :: r else y :: insertSorted x r

/-- Median; of an even number of samples, the mean of the middle two (log 14). -/
def median (l : List Int) : Int :=
  let s := l.foldr insertSorted []
  let n := s.length
  if n = 0 then 0 else if n % 2 = 1 then s.getD (n / 2) 0 else (s.getD (n / 2 - 1) 0 + s.getD (n / 2) 0) / 2

/-- The last `n` samples with a new one. -/
def keepLast (n : Nat) (l : List Int) (x : Int) : List Int := (l ++ [x]).drop (l.length + 1 - n)

/-- 2^l seconds in ECLK. -/
def logEclk (l : Int) : Nat := if l ≥ 0 then 1500000000 * 2 ^ l.toNat else 1500000000 / 2 ^ (-l).toNat

def modTime (d : Dev) (f : TimeUnit → TimeUnit) : Dev := { d with time := f d.time }

/-- The time depth that a state carries (R316). -/
def depthFor (d : Dev) (s : TState) : Nat :=
  match s with
  | .locked => if timeSrc d = 2 then min 7 (d.time.parentDepth + 1) else 0
  | .holdover => d.time.tdepth
  | _ => 7

/-- Move the time unit to a state: `DEV_CHANGE` and `TIME_STATE` follow, and the 1PPS output is low in FREERUN and ACQUIRING (R321,
R366, R430). -/
def setTState (d : Dev) (s : TState) : Dev :=
  if d.time.tstate = s then d
  else
    let old := d.time.tstate
    let d := modTime d (fun t => { t with tstate := s, tdepth := depthFor d s, lockRun := 0, ppsOut := t.ppsOut && (s == .locked || s == .holdover),
                                          holdSince := if s = .holdover then d.eclk else t.holdSince })
    raise (setDevChange d) (evTimeState old s d.time.offset)

/-- The reference is lost (Table 10-1, Table 10-2). -/
def loseReference (d : Dev) : Dev :=
  let d := modTime d (fun t => { t with refOk := false, lockRun := 0 })
  match d.time.tstate with
  | .locked => setTState d .holdover
  | .acquiring => setTState d .freerun
  | _ => d

/-- A rejected input sample (R320); one of the input that steers ends the run of accepted ones (Table 10-1). -/
def rejectSample (d : Dev) (steers : Bool) : Dev :=
  modTime d (fun t => { t with rejectCnt := inc t.rejectCnt, inputRej := true, lockRun := if steers then 0 else t.lockRun })

/-- Every sample of every filter is discarded (R315). -/
def clearFilters (d : Dev) : Dev :=
  modTime d (fun t => { t with offs := [], delays := [], phases := [], barkX := [], barkD := [], lastPpsTime := none, lockRun := 0 })

def taskRunning (d : Dev) : Bool := anyTask d (fun t => t.st == .running)

/-- Step of `TIME_NOW` by the filtered offset, in whole nanoseconds (R315). -/
def stepTime (d : Dev) : Dev :=
  let ns := d.time.offset / 16
  clearFilters (modTime { d with timeOff := d.timeOff + ns } (fun t =>
    { t with stepped := true, stepCnt := inc t.stepCnt, offset := 0, ppsSince := t.ppsSince }))

/-- The offset limit of the lock condition: 100 ns under PTP, 1 ns otherwise (R317). -/
def lockLimit (d : Dev) : Nat := if timeSrc d = 0 then 1600 else 16

/-- The reference is valid as `TIME_SRC` asks: with 0b01, both the time of day and the phase (R316). -/
def referenceValid (d : Dev) : Bool :=
  match timeSrc d with
  | 0 => d.time.lastSync.isSome
  | 1 => d.time.lastSync.isSome && d.time.ppsOk
  | _ => d.time.lastBark.isSome && d.time.parentDepth ≤ 5

/-- An accepted sample may make the reference valid: FREERUN is left for ACQUIRING (Table 10-1). -/
def takeReference (d : Dev) : Dev :=
  let d := modTime d (fun t => { t with refOk := referenceValid d })
  if d.time.refOk && d.time.tstate = .freerun then setTState d .acquiring else d

/-- An accepted sample has given the filtered offset `off`: steer, step or lock (R315, R317). -/
def takeOffset (d : Dev) (off : Int) : Dev :=
  let d := takeReference (modTime d (fun t => { t with offset := off }))
  if d.time.tstate = .acquiring && off.natAbs > 16000 && !taskRunning d then stepTime d
  else
    let d := modTime d (fun t => { t with lockRun := if off.natAbs ≤ lockLimit d then t.lockRun + 1 else 0 })
    if d.time.lockRun ≥ 32 && d.time.refOk && (d.time.tstate = .acquiring || d.time.tstate = .holdover) then setTState d .locked
    else d

/-- Range of an offset against a centre: ±1 µs in LOCKED, ±1 ms in HOLDOVER (Table 10-2). -/
def offsetInRange (d : Dev) (x centre : Int) : Bool :=
  match d.time.tstate with
  | .locked => (x - centre).natAbs ≤ 16000
  | .holdover => (x - centre).natAbs ≤ 16000000
  | _ => true

/-- The master that the best master clock algorithm selects: the least of the given order (log 15). -/
def bestMaster (ms : List Master) : Option Master :=
  ms.foldl (fun b m => match b with
    | none => some m
    | some x => if m.prio < x.prio then some m else some x) none

/-- PTP Sync with its Follow_Up: t₁ of the master corrected by `correctionField`, t₂ of its arrival, both in 1/16 ns. -/
def ptpSync (d : Dev) (domain ident : Nat) (logInt : Int) (t1 t2 : Int) (followInTime : Bool) : Dev :=
  if domain ≠ ptpDomain d || timeSrc d = 2 then d
  else match bestMaster d.time.masters with
    | none => d
    | some m =>
      if m.ident ≠ ident then d
      else
        let x := t1 + median d.time.delays - t2
        if logInt < -7 || logInt > 0 || !followInTime || (!d.time.offs.isEmpty && !offsetInRange d x (median d.time.offs)) then rejectSample d (timeSrc d == 0)
        else
          let d := modTime d (fun t => { t with offs := keepLast 8 t.offs x, lastSync := some d.eclk, syncInt := logEclk logInt })
          if timeSrc d = 0 then takeOffset d (median d.time.offs)
          else
            let d := takeReference d
            if d.time.tstate = .acquiring && (median d.time.offs).natAbs > 16000 && !taskRunning d then
            stepTime (modTime d (fun t => { t with offset := median t.offs }))
          else d

/-- An Announce message (Table 10-2). -/
def ptpAnnounce (d : Dev) (domain ident prio stepsRemoved : Nat) (logInt : Int) : Dev :=
  if domain ≠ ptpDomain d then d
  else if stepsRemoved > 16 || logInt < -3 || logInt > 4 then rejectSample d false
  else modTime d (fun t => { t with masters := t.masters.filter (fun m => m.ident != ident) ++ [⟨ident, prio, logInt, d.eclk⟩] })

/-- A Delay_Resp: its path delay in 1/16 ns. -/
def ptpDelayResp (d : Dev) (domain : Nat) (delay : Int) : Dev :=
  if domain ≠ ptpDomain d || d.time.delayReq.isNone then d
  else
    let d := modTime d (fun t => { t with delayReq := none })
    if delay < 0 || delay > 1600000 || (d.time.tstate = .locked && !d.time.delays.isEmpty && (delay - median d.time.delays).natAbs > 16000) then rejectSample d false
    else modTime d (fun t => { t with delays := keepLast 8 t.delays delay })

/-- A rising edge of the 1PPS input at `TIME_NOW` t (1/16 ns), with the pin's low and high times in ns. -/
def ppsEdge (d : Dev) (t low high : Nat) : Dev :=
  let sec := 16000000000
  let r := t % sec
  let x : Int := if r < sec / 2 then -(r : Int) else (sec : Int) - r
  let gapOk := match d.time.lastPpsTime with
    | some t0 => t0 + 15999984000 ≤ t && t ≤ t0 + 16000016000
    | none => true
  if low < 100 || high < 100 || !gapOk || (d.time.tstate = .locked && x.natAbs > 16000) then rejectSample d (timeSrc d == 1)
  else
    let d := modTime d (fun u => { u with ppsOk := true, lastPps := some d.eclk, lastPpsTime := some t })
    if timeSrc d = 1 then
      let d := modTime d (fun u => { u with phases := keepLast 4 u.phases x })
      takeOffset d (median d.time.phases)
    else d

/-! ### Barks -/

/-- HEALTH of a bark (Table 10-5). -/
def health (d : Dev) (gone : Bool) : Nat :=
  if gone then 3 else match d.dstate with | .draining => 1 | .recovering => 2 | .safe => 3 | .faulted => 3 | .off => 3 | _ => 0

/-- The kennel that port p's next bark names: by ascending number among those that run a task and are enabled (R329). -/
def barkKennel (d : Dev) (p : Nat) : Nat :=
  (nextKennel (port d p).bark.nextKennel ((taskKeys d (fun t => t.st.active)).filter (fun k => portAllows d p k))).getD 0

/-- The bark of port p (R329, R330); `TXOFS` is filled in when it leaves. -/
def barkFlit (d : Dev) (p : Nat) (gone : Bool) : Flit :=
  let k := barkKennel d p
  let lag := match task d k with | some t => min t.lag 511 | none => 0
  let rx := ofsOf (port d p).bark.rx (beatNow d + 3)
  { ftype := 2, tc := 0, ktag := 0,
    tsf := put 64 52 (beatNow d % 4096) ||| put 64 50 (health d gone) ||| put 64 47 d.time.tdepth ||| put 64 41 k
      ||| put 64 32 (if k = 0 then 0 else lag) ||| put 64 16 0xFFFF ||| put 64 0 rx }

/-- Barks are sent in LOCKED and HOLDOVER (Table 10-1). -/
def barksSent (d : Dev) : Bool := d.time.tstate = .locked || d.time.tstate = .holdover

/-- Port p barks while it is UP, until its last bark has gone out; a module that has come back from SAFE barks again. -/
def barksOn (d : Dev) (p : Nat) : Bool := isUp d p && !((port d p).bark.gone && health d false == 3)

/-- Queue a bark on every UP port (R329), before any other TC0 flit. -/
def sendBarks (d : Dev) (gone : Bool) : Dev :=
  if !barksSent d then d
  else each d ((List.range 16).filter (fun p => barksOn d p && (kennel d 0).cur.isSome)) (fun d p =>
    let f := barkFlit d p gone
    modPort d p (fun x => { x with
      link := { x.link with q0 := f :: x.link.q0.filter (fun g => g.ftype != 2) }
      bark := { x.bark with nextKennel := barkKennel d p, gone := gone } }))

/-- A timing sample from the parent's bark, in 1/16 ns: x and δ (R325); none when a field is missing. `key` is the bark's beat
plus 4. -/
def barkSample (d : Dev) (p : Nat) (tsf : DWord) (key arr : Nat) : Option (Int × Int) :=
  let b := (port d p).bark
  let t1 := fld tsf 31 16
  let t4 := fld tsf 15 0
  let t3 := ofsOf b.tx (key - 1)
  let stale := match b.discardAt with | some t => !due d t (lclk 8192) | none => false
  if t1 = 0xFFFF || t4 = 0xFFFF || t3 = 0xFFFF || arr ≥ 0xFFFF || stale then none
  else some (((t4 : Int) - t3) - ((arr : Int) - t1), ((arr : Int) - t1) + ((t4 : Int) - t3))

/-- The parent's bark as a time input (R316, R320, R325). -/
def parentBark (d : Dev) (p : Nat) (tsf : DWord) (key arr : Nat) : Dev :=
  if timeSrc d ≠ 2 || timeParent d ≠ p then d
  else
    let depth := fld tsf 49 47
    let d := modTime d (fun t => { t with parentDepth := depth })
    if depth > 5 then (if d.time.refOk then loseReference d else d)
    else
    let d := if d.time.tstate = .locked then modTime d (fun t => { t with tdepth := min 7 (depth + 1) }) else d
    match barkSample d p tsf key arr with
      | none => d
      | some (x, dl) =>
        if (!d.time.barkD.isEmpty && (dl - median d.time.barkD).natAbs > 1024) || !offsetInRange d x 0 then rejectSample d true
        else
          let d := modTime d (fun t => { t with barkX := keepLast 16 t.barkX x, barkD := keepLast 16 t.barkD dl, lastBark := some (beatNow d) })
          takeOffset d (median d.time.barkX)

/-- An admitted BARK flit that arrived `arr` (1/8 ns) after the boundary of its beat (R330, R331, R333). -/
def takeBark (d : Dev) (p : Nat) (tsf : DWord) (arr : Nat) : Dev :=
  let beat := fld tsf 63 52
  let ahead := (beat + 4096 + 4 - beatNow d % 4096) % 4096
  if ahead > 5 then modTime d (fun t => { t with barkRejectCnt := inc t.barkRejectCnt })
  else
    let k := fld tsf 46 41
    let gone := fld tsf 51 50 == 3
    let d := modPort d p (fun x => { x with bark := { x.bark with
      alive := !gone, missed := 0, rx := noteOfs x.bark.rx (beatNow d + ahead) (min arr 0xFFFF),
      lags := if k = 0 then x.bark.lags else Tbl.set 0 x.bark.lags k (fld tsf 40 32) } })
    if gone then report d (.neighbour (port d p).peerMod) else parentBark d p tsf (beatNow d + ahead) arr

/-- A beat boundary passes on port p without an accepted bark; after `BARK_MISS` the neighbour has stopped (R331). -/
def missBark (d : Dev) (p : Nat) : Dev :=
  let b := (port d p).bark
  if !isUp d p || !b.alive then d
  else if b.missed + 1 ≥ barkMiss d then
    report (modPort d p (fun x => { x with bark := { x.bark with alive := false, missed := 0 } })) (.neighbour (port d p).peerMod)
  else modPort d p (fun x => { x with bark := { x.bark with missed := b.missed + 1 } })

/-! ### Configuration of the time unit (R323) -/

/-- The checks of a `TIME_CONFIG` and `TIME_ORIGIN` value. -/
def timeCfgCheck (c : DWord) : Option Sc :=
  let per := fld c 35 19
  if fld c 63 62 = 3 || fld c 18 0 ≠ 0 then some .format
  else if per % 2 = 1 || per < 250 || per > 64000 || fld c 48 41 = 0 || fld c 40 36 < 2 then some .range
  else none

/-- Write `TIME_CONFIG` and `TIME_ORIGIN`: a change of reference enters HOLDOVER from LOCKED (R323). -/
def applyTime (d : Dev) (c origin : DWord) : Dev :=
  let changed := fld c 63 62 ≠ timeSrc d || (fld c 63 62 = 2 && fld c 61 58 ≠ timeParent d)
  let d := modTime d (fun t => { t with config := c, origin := origin, ppsOut := t.ppsOut && bit c 49 })
  if changed then
    loseReference (modTime d (fun t => { t with phases := [], barkX := [], barkD := [], offs := [], lastBark := none, lastSync := none, parentDepth := 7 }))
  else d

end Sys2Proof.Machine
end

