-- ==== Sys2Proof/Machine/RecoveryOps.lean ====
section
/-! DEFINITION. Failure and recovery: endings, rounds, the RCV messages, parity commits, the replay prologue, and what
firmware does at once with the reports of a command (R336, R352 to R354, R394 to R418). -/

namespace Sys2Proof.Machine

/-! ### RCV messages (R397, R398) -/

/-- The `TSF` of Table 13-2. -/
def rcvTsf (k code md round arg : Nat) : DWord :=
  put 64 56 4 ||| put 64 50 k ||| put 64 46 code ||| put 64 34 md ||| put 64 22 (round % 4096) ||| put 64 0 (arg % 2 ^ 22)

def rcvFlit (tsf : DWord) : Flit := { ftype := 1, tc := 0, ktag := 0, tsf := tsf }

/-- Send an RCV on every UP port that enables the kennel, but for the one it came on. -/
def spread (d : Dev) (k : Nat) (tsf : DWord) (except : Nat) : Dev :=
  each d ((List.range 16).filter (fun p => p != except && isUp d p && portAllows d p k)) (fun d p => sendFlit d p (rcvFlit tsf))

/-- The message has been seen within the last 1,024 beats. -/
def rcvOld (d : Dev) (tsf : DWord) : Bool := d.rcvSeen.any (fun z => z.1 == tsf && beatNow d ≤ z.2 + 1024)

def noteRcv (d : Dev) (tsf : DWord) : Dev :=
  { d with rcvSeen := d.rcvSeen.filter (fun z => beatNow d ≤ z.2 + 1024 && z.1 != tsf) ++ [(tsf, beatNow d)] }

/-- Originate a message. -/
def flood (d : Dev) (k code md round arg : Nat) : Dev :=
  let t := rcvTsf k code md round arg
  spread (noteRcv d t) k t 16

/-- The fields of an accepted message. -/
structure Rcv where
  k : Nat
  code : Nat
  md : Nat
  round : Nat
  arg : Nat
deriving DecidableEq, Repr

def rcvOf (tsf : DWord) : Rcv := ⟨fld tsf 55 50, fld tsf 49 46, fld tsf 45 34, fld tsf 33 22, fld tsf 21 0⟩

/-- An admitted RCV flit: rejected, discarded as a duplicate, or flooded on; answers it where this module acts on it. -/
def rcvTake (d : Dev) (p : Nat) (f : Flit) : Dev × Option Rcv :=
  let x := rcvOf f.tsf
  if x.code = 0 || x.code > 10 || x.k = 0 then (modPort (countReject d p) p (fun y => { y with rejected := true }), none)
  else if rcvOld d f.tsf then (d, none)
  else
    let d := spread (noteRcv d f.tsf) x.k f.tsf p
    match task d x.k with
    | some t => (d, if t.roster.contains x.md || t.standbys.contains x.md then some x else none)
    | none => (d, none)

/-- The step whose low 22 bits are `low`, nearest to `near`. -/
def extend22 (near low : Nat) : Nat :=
  let up := (low + 2 ^ 22 - near % 2 ^ 22) % 2 ^ 22
  if up ≤ 2 ^ 21 then near + up else near + up - 2 ^ 22

/-! ### Stopping and ending (R353, R354, R400) -/

def roundNum (t : Task) : Nat := match t.rounds with | r :: _ => r.num | [] => 0

/-- Stop the sequencers, VEs and stream slots of a kennel (R110, R166, R205), and its multicast take-ups. -/
def stopUnits (d : Dev) (k : Nat) : Dev :=
  let d := each d ((List.range 48).filter (fun e => pairKennel d e == k)) (fun d e =>
    let d := if (pair d e).seq.run then seqStop d e else d
    if (pair d e).ve.run then veStop d e else d)
  let d := stopStreams d k
  let zl (u : UnitId) : Bool := match u with | .zl _ => true | _ => false
  let heads := (List.range 16).filter (fun p => match takeUps d p with | t :: _ => t.kennel == k && t.asked | [] => false)
  let d := { d with
    popReqs := d.popReqs.filter (fun r => !(zl r.unit && r.kennel == k)), pushReqs := d.pushReqs.filter (fun r => !(zl r.unit && r.kennel == k)), arrivals := d.arrivals.filter (fun a => !heads.any (fun p => a.unit == UnitId.zl p)) }
  each d (List.range 16) (fun d p => setTakeUps d p ((takeUps d p).filter (fun t => t.kennel != k)))

/-- Clear `EN` on every tree of a kennel (R288). -/
def closeTrees (d : Dev) (k : Nat) : Dev :=
  each d (d.trees.keys.filter (fun t => (tree d t).en && (tree d t).kennel == k)) disableTree

/-- Flush every queue of a kennel (R189). -/
def flushQueues (d : Dev) (k : Nat) : Dev :=
  each d (d.hqs.keys.filter (fun q => (hq d q).en && (hq d q).kennel == k)) qFlush

/-- A RED_X flit that a RED flit sent before it needs (R275). -/
def owedRedX (l : Link) (f : Flit) : Bool := match l.held with | some h => f.ftype == 4 && f.tsf == h.tsf && f.ktag == h.ktag | none => false

/-- Flits of a kennel that wait at a port are not sent, but for the rest of a contribution that has begun (R288, R404, log 101). -/
def purgeFlits (d : Dev) (k : Nat) : Dev :=
  let keep (q : List Flit) : List Flit := q.filter (fun f => f.ktag != k)
  each d (List.range 16) (fun d p => modPort d p (fun x => { x with link := { x.link with
    q1 := x.link.q1.filter (fun f => f.ktag != k || owedRedX x.link f), q2 := keep x.link.q2, q3 := keep x.link.q3 } }))

/-- Peer reads of a kennel of which some request still waits to be sent: it goes with the flits that are not sent. -/
def unsentReads (d : Dev) (k : Nat) : List Nat :=
  (d.reads.filter (fun z => match z.2 with | some r => r.kennel == k && (List.range 16).any (fun p =>
    (port d p).link.q3.any (fun f => f.ftype == 6 && f.ktag == k && fld f.tsf 51 40 == selfModule d && fld f.tsf 39 28 == z.1)) | none => false)).map (·.1)

/-- Stop what a kennel's task has under way on this module: units, trees, and flits not yet sent (R205, R288, R400). -/
def stopTraffic (d : Dev) (k : Nat) : Dev :=
  let d := closeTrees (stopUnits d k) k
  purgeFlits (each d (unsentReads d k) (fun d i => { d with reads := Tbl.erase d.reads i })) k

/-- End an active task on this module; for a reason other than SC_OK its units stop and it leaves its ring (R354, log 28). -/
def endLocal (d : Dev) (k : Nat) (sc : Sc) (cause : DWord) : Dev :=
  if !runsTask d k then d
  else
    let d := if sc = .ok then d else stopTraffic d k
    moveTask (modTask d k (fun t => { t with inRound := false, asking := none, batchReq := [], parity := none })) k .ended sc cause

/-- An ending of Table 13-1: every module of the ring ends the task with the status (R396). -/
def endTask (d : Dev) (k : Nat) (sc : Sc) : Dev :=
  match task d k with
  | none => d
  | some t => if t.st.active then flood (endLocal d k sc 0) k 8 (selfModule d) (roundNum t) sc.code else d

/-- `DATA1` of `DEV_STATE` (Table 15-5). -/
def devCause (kind arg : Nat) : DWord := put 64 24 kind ||| put 64 0 arg

/-- Entry into SAFE or FAULTED: the last barks say GONE, and every active task ends (R329, R352, R354). -/
def enterFailed (d : Dev) (st : DState) (cause : DWord) : Dev :=
  let d := sendBarks (setDState d st cause) true
  let d := { d with power := { d.power with selfRefresh := d.power.selfRefresh || st = .safe } }
  each d (taskKeys d (fun t => t.st.active)) (fun d k => endLocal d k .aborted cause)

def enterSafe (d : Dev) (cause : DWord) : Dev :=
  match d.dstate with
  | .config | .ready | .running | .recovering | .draining => enterFailed d .safe cause
  | _ => d

def enterFaulted (d : Dev) (cause : DWord) : Dev :=
  match d.dstate with
  | .off | .faulted => d
  | .boot => { enterFailed d .faulted cause with bootCause := some cause }
  | _ => enterFailed d .faulted cause

/-! ### Rounds (R400 to R405) -/

/-- Take a recovery round: `own` when this module met the fault, `nbr` the neighbour that has stopped barking. -/
def startRound (d : Dev) (k : Nat) (rd : Round) (own : Bool) (nbr : Option Nat) : Dev :=
  let me := selfModule d
  let d := if own then flood d k 1 me rd.num rd.abortStep else d
  let d := match nbr with | some m => flood d k 2 m rd.num me | none => d
  let d := stopTraffic d k
  let was := match task d k with | some t => t.st | none => .ended
  let d := modTask d k (fun t => { t with
    rounds := rd :: t.rounds.take 3
    inRound := true
    quietSent := false
    quiets := []
    asked := []
    asking := none
    batchReq := []
    parity := none
    nbrs := match nbr with | some m => [(me, m)] | none => []
    stallFrom := some (rd.abortStep, rd.beat) })
  let d := if was = .recovering then d else moveTask d k .recovering .ok 0
  flushQueues d k

/-- A task fault or a module fault met by this module (R394, R400, R403, R406). -/
def onFault (d : Dev) (k : Nat) (kind : FaultKind) (nbr : Option Nat) : Dev :=
  match task d k with
  | none => d
  | some t =>
    let rd : Round := { num := roundNum t + 1, abortStep := stepInProgress t, kind := kind, sender := selfModule d, beat := beatNow d }
    match t.st with
    | .starting => endTask d k .aborted
    | .running | .stopping => if t.hasParity then startRound d k rd true nbr else endTask d k .aborted
    | .recovering =>
      if !t.inRound then startRound d k rd true nbr
      else match nbr with
        | some m => flood (modTask d k (fun t => { t with nbrs := t.nbrs ++ [(selfModule d, m)] })) k 2 m (roundNum t) (selfModule d)
        | none => d
    | _ => d

/-- A neighbour has stopped barking: a module fault of every active task that it is a member of. -/
def onNeighbour (d : Dev) (m : Nat) : Dev :=
  each d (taskKeys d (fun t => t.st.active && m != selfModule d && t.roster.contains m && !t.lost.contains m)) (fun d k => onFault d k .moduleLost (some m))

/-- The report area of a kennel's task. -/
def reportArea (d : Dev) (k : Nat) : Option Sec := match task d k with | some t => t.sec 0x0E | none => none

/-- A footprint or a far use has passed its mark: firmware writes the table of measured ratios into the report area, where the task has
one with room for it, and raises the event (R233). -/
def onMemUse (d : Dev) (k : Nat) (high : Bool) (bytes : Nat) : Dev :=
  let bs := Config.ratioBytes (ratios d k)
  let (d, off) := match reportArea d k with
    | some s =>
      let o := Config.ratioOffset s.data
      (if o + bs.length ≤ s.data.length then (memWriteAll d k (s.addr + o) bs .firmware .clean).1 else d, o)
    | none => (d, 0)
  raise d (if high then evMemHigh k bytes off else evMemPlan k bytes off)

def onReport (d : Dev) (r : Report) : Dev :=
  match r with
  | .fault k kind => onFault d k kind none
  | .neighbour m => onNeighbour d m
  | .ending k sc => endTask d k sc
  | .memFatal c => enterFaulted d (devCause 7 c)
  | .memUse k high n => onMemUse d k high n

def onReports (fuel : Nat) (d : Dev) : Dev :=
  match fuel with
  | 0 => { d with reports := [] }
  | f + 1 => if d.reports.isEmpty then d else onReports f (each { d with reports := [] } d.reports onReport)

/-- The conditions of R401, once the units have stopped: what is owed has gone, and every TC1 and TC2 flit sent is acknowledged. -/
def quietReady (d : Dev) (k : Nat) : Bool :=
  (List.range 16).all (fun p =>
    let l := (port d p).link
    !(l.unacked.map (·.2) ++ l.q1 ++ l.q2).any (fun f => (f.tc == 1 || f.tc == 2) && f.ktag == k))
    && !d.reads.any (fun z => match z.2 with | some r => r.kennel == k | none => false)

def sendQuiet (d : Dev) (k : Nat) : Dev :=
  match task d k with
  | none => d
  | some t =>
    if t.inRound && !t.quietSent && quietReady d k then
      flood (modTask d k (fun t => { t with quietSent := true, quiets := t.quiets ++ [selfModule d] })) k 3 (selfModule d) (roundNum t) 0
    else d

def quietDue (d : Dev) : Bool := anyTask d (fun t => t.inRound && !t.quietSent)

/-! ### Commits (R407 to R411, R420) -/

def Task.myGroup (d : Dev) (t : Task) : Option Group :=
  match t.posOf (selfModule d) with | some p => t.groupAt p | none => none

/-- The state pages of a member, from the ranges of its `STATE_LIST`, each an entry of a first page and a count (log 8); none where the
list cannot be read. -/
def statePages (d : Dev) (k : Nat) (g : Group) : Dev × Option (List Nat) :=
  match memReadAll d k (g.stateList * 64) (16 * g.stateN) .clean with
  | (d, .ok, bs) => (d, some ((itemsOf g.stateN 0 0x100 bs).flatMap (fun w => (List.range (nth w 1)).map (nth w 0 + ·))))
  | (d, _, _) => (d, none)

/-- The blocks of a page's image from its plaintext, and the bytes of the image (R227, R231, R407). -/
def blocksFor (et : Nat) (bs : List Byte) : List Block := (cut 512 4096 bs).map (encodeBlock et)
def imageBytes (bl : List Block) : List Byte :=
  bl.flatMap (fun b => leBytes 2 b.map.toNat) ++ bl.flatMap (fun b => (b.bytes ++ zeros (64 * fld b.map 6 0)).take (64 * fld b.map 6 0))

/-- The commit stream of a member before its padding (R407), or none where a page cannot be read. -/
def commitStream (d : Dev) (k : Nat) (g : Group) : Dev × Option (List Byte) :=
  match statePages d k g with
  | (d, none) => (d, none)
  | (d, some pgs) => pgs.foldl (fun r pg => match r with
    | (d, none) => (d, none)
    | (d, some s) => match memReadAll d k (pg * pageBytes) pageBytes .clean with
      | (d, .ok, bs) => (d, some (s ++ imageBytes (blocksFor (page d k pg).etype bs)))
      | (d, _, _) => (d, none)) (d, some [])

/-- Firmware writes bytes of a kennel's memory; false where the write cannot be made. -/
def writeOk (d : Dev) (k addr : Nat) (bs : List Byte) : Dev × Bool :=
  match memWriteAll d k addr bs .firmware .clean with
  | (d, .done) => (d, true)
  | (d, .waiting) => (d, true)
  | (d, _) => (d, false)

/-- Blocks of an image from the front of a stream, and what follows them. -/
def splitBlocks (maps : List (BitVec 16)) (s : List Byte) : List Block × List Byte :=
  match maps with
  | [] => ([], s)
  | m :: r =>
    let n := 64 * fld m 6 0
    let (bl, rest) := splitBlocks r (s.drop n)
    ({ map := m, bytes := s.take n } :: bl, rest)

def mapsFrom (n : Nat) (s : List Byte) : List (BitVec 16) :=
  match n with
  | 0 => []
  | k + 1 => BitVec.ofNat 16 (leNat (s.take 2)) :: mapsFrom k (s.drop 2)

/-- Plaintext of the page image at the front of a stream, and the rest; none where a block does not decode. -/
def decodePage (s : List Byte) : Option (List Byte) × List Byte :=
  let (bl, rest) := splitBlocks (mapsFrom 512 s) (s.drop 1024)
  (bl.foldl (fun r b => match r, decodeBlock b with
    | some x, (.ok, y) => some (x ++ y)
    | _, _ => none) (some []), rest)

/-- Restore the state pages from a commit stream (R416); false where a page does not decode or cannot be written. -/
def restorePages (d : Dev) (k : Nat) (pgs : List Nat) (s : List Byte) : Dev × Bool :=
  match pgs with
  | [] => (d, true)
  | pg :: r => match decodePage s with
    | (some bs, rest) => match writeOk d k (pg * pageBytes) bs with
      | (d, true) => restorePages d k r rest
      | (d, false) => (d, false)
    | (none, _) => (d, false)

/-- B of R407. -/
def streamBound (g : Group) : Nat := (g.size - 1) * g.slen * 4096

/-- Steps of commits (R409). -/
def isCommitStep (t : Task) (g : Group) (c : Nat) : Bool := c + 1 ≥ t.step0 && (c + 1 - t.step0) % g.interval = 0

/-- The queue and the biscuit on which the next update waits (R410), and the task's firmware queue (R311): words that the report area
gives (log 102). -/
def reportWords (t : Task) : List DWord := (t.items 0x0E).headD []
def Task.fwQueue (t : Task) : Nat := nth (reportWords t) 0 % 32768

/-- Firmware lets the next update go on (R410). -/
def releaseUpdate (d : Dev) (k : Nat) : Dev :=
  match task d k with
  | none => d
  | some t => match reportWords t with
    | _ :: q :: b :: _ => (qPush d (q.toNat % 32768) k b d.eclk).1
    | _ => d

/-- SEALED for step c is accepted (R409, R410): the commit window closes. -/
def sealStep (d : Dev) (k c : Nat) : Dev :=
  let d := modTask d k (fun t => { t with
    lastCommit := some c, window := none, committed := t.committed.filter (fun z => z.2 != c) })
  if runsTask d k then raise (releaseUpdate d k) (evBatchRelease k c) else d

/-- The coordinator floods SEALED once it holds COMMITTED of step c from every member. -/
def checkSealed (d : Dev) (k c : Nat) : Dev :=
  match task d k with
  | none => d
  | some t =>
    if t.coordinator = selfModule d && t.roster.all (fun m => t.committed.contains (m, c)) then
      flood (sealStep d k c) k 10 (selfModule d) (roundNum t) c
    else d

/-! ### The exchange of parity stripes (R408, log 25) -/

def stripeBytes (g : Group) : Nat := g.slen * 4096
/-- Holder of stripe s of member i. -/
def holderOf (n i s : Nat) : Nat := (i + 1 + s) % n
/-- Stripe of member i that holder j's parity stripe covers, for i ≠ j. -/
def stripeFor (n j i : Nat) : Nat := (j + n - i - 1) % n
/-- Collective and `ELEM` of the chunk at byte o of a stripe: 64 elements of four bytes a chunk. -/
def stripeColl (o : Nat) : Nat := o / 2 ^ 30
def stripeElem (o : Nat) : Nat := o % 2 ^ 30 / 4
/-- Byte of a stripe that an element of a collective is. -/
def stripeByte (coll elem : Nat) : Nat := coll * 2 ^ 30 + elem * 4

/-- What member i contributes to holder j's tree at byte o: its stripe, and zeros at the holder. -/
def parityChunk (g : Group) (i j o : Nat) (stream : List Byte) : List Byte :=
  if i = j then zeros 256 else (stream.drop (stripeFor g.size j i * stripeBytes g + o)).take 256

/-- Commit ordinal of a commit step (R408, R409). -/
def commitOrdinal (t : Task) (g : Group) (c : Nat) : Nat := (c + 1 - t.step0) / g.interval

/-- Rank of this module in its group. -/
def rankOf (d : Dev) (t : Task) (g : Group) : Nat := (t.posOf (selfModule d)).getD 0 - g.pos0

/-- The body of the parity commit log: step, g, `SLEN`, rank, and the two digests (R420, log 25). -/
def commitBody (c : Nat) (g : Group) (rank : Nat) (stream stripe : List Byte) : List Byte :=
  leBytes 8 c ++ leBytes 2 g.size ++ leBytes 4 g.slen ++ leBytes 2 rank ++ (Config.sha384 stream ++ zeros 48).take 48
    ++ (if g.size = 1 then zeros 48 else (Config.sha384 stripe ++ zeros 48).take 48)

/-- A commit record of Table 13-5. -/
def commitRecord (kind seq : Nat) (body : List Byte) : List Byte :=
  let r := leBytes 4 0x43524B56 ++ leBytes 1 kind ++ zeros 3 ++ leBytes 8 seq ++ leBytes 8 body.length ++ (Config.sha384 body ++ zeros 48).take 48 ++ zeros 52
  r ++ leBytes 4 (crc32c r).toNat

/-- Place of the copy that the commit of ordinal n writes: after the stripe, the slot that does not hold the copy before it. -/
def commitSlot (g : Group) (n : Nat) : Nat := g.parityArea * 64 + (if g.size = 1 then 0 else stripeBytes g) + 256 * (n % 2)

/-- Steps 4 and 5 of R409: the commit log's body and its record last of all, then COMMITTED. -/
def finishCommit (d : Dev) (k c : Nat) (t : Task) (g : Group) : Dev :=
  let stream := match t.image with | some (_, s) => s | none => []
  let (d, cls, stripe) := if g.size = 1 then (d, MemClass.ok, []) else memReadAll d k (g.parityArea * 64) (stripeBytes g) .clean
  if cls ≠ .ok then taskFault d k .task
  else
    let body := commitBody c g (rankOf d t g) stream stripe
    match writeOk d k (commitSlot g (commitOrdinal t g c)) (body ++ commitRecord 3 c body) with
    | (d, false) => taskFault d k .task
    | (d, true) =>
      let d := modTask d k (fun t => { t with parity := none, committed := t.committed ++ [(selfModule d, c)] })
      checkSealed (flood d k 9 (selfModule d) (roundNum t) c) k c

/-- Contribute to holder j's tree while a local credit is held. -/
def parityTo (fuel : Nat) (d : Dev) (k j : Nat) (g : Group) : Dev :=
  match fuel with
  | 0 => d
  | f + 1 =>
    match task d k with
    | none => d
    | some t => match t.parity with
      | none => d
      | some r =>
        let tn := g.ptree0 + j
        let o := 256 * Tbl.get 0 r.sent j
        if r.refused || o ≥ stripeBytes g || Tbl.get 0 (tree d tn).localCredit 0 = 0 then d
        else
          let stream := match t.image with | some (_, s) => s | none => []
          let d := modTree d tn (fun x => { x with localCredit := Tbl.modify 0 x.localCredit 0 (· - 1) })
          let note (d : Dev) (f : ParityRun → ParityRun) : Dev := modTask d k (fun t => { t with parity := t.parity.map f })
          match contribute d tn 16 0 r.ord (stripeColl o) (stripeElem o / 16) (.words (chunkWords 64 (parityChunk g (rankOf d t g) j o stream))) with
          | (d, .ok) => parityTo f (note d (fun r => { r with sent := Tbl.modify 0 r.sent j (· + 1) })) k j g
          | (d, _) => note d (fun r => { r with refused := true })

/-- Everything of the exchange has been contributed, received and written. -/
def parityDone (d : Dev) (k : Nat) (g : Group) (r : ParityRun) : Bool :=
  (List.range g.size).all (fun j => 256 * Tbl.get 0 r.sent j ≥ stripeBytes g) && 256 * r.got.length ≥ stripeBytes g
    && !d.waits.any (fun w => w.kennel == k && w.by' == .firmware)

/-- A result of this member's own parity tree: its bytes of the parity stripe are written (R408). Answers whether it was one. -/
def parityResult (d : Dev) (e : AEntry) : Dev × Bool :=
  match task d e.kennel with
  | none => (d, false)
  | some t => match t.parity, t.myGroup d, e.acc with
    | some r, some g, some (.words ws) =>
      let o := stripeByte e.coll (e.elem * 16)
      if e.tree ≠ g.ptree0 + rankOf d t g || e.step ≠ r.ord % 4096 || o ≥ stripeBytes g || r.got.contains (o / 256) then (d, false)
      else match writeOk d e.kennel (g.parityArea * 64 + o) (ws.flatMap (fun w => leBytes 4 w.toNat)) with
        | (d, false) => (taskFault d e.kennel .task, true)
        | (d, true) => (modTask d e.kennel (fun t => { t with parity := t.parity.map (fun r => { r with got := r.got ++ [o / 256] }) }), true)
    | _, _, _ => (d, false)

/-- Take from the completed entries those of parity trees. -/
def parityResults (d : Dev) : Dev :=
  each { d with delivered := [] } d.delivered (fun d e => match parityResult d e with
    | (d, true) => d
    | (d, false) => { d with delivered := d.delivered ++ [e] })

/-- Tasks whose commit exchanges its parity stripes. -/
def parityDue (d : Dev) : Bool := anyTask d (fun t => t.parity.isSome)

/-- Firmware goes on with a task's commit. -/
def parityStep (d : Dev) (k : Nat) : Dev :=
  match task d k with
  | none => d
  | some t => match t.parity, t.myGroup d with
    | some r, some g =>
      if parityDone d k g r then finishCommit d k r.step t g
      else each d (List.range g.size) (fun d j => parityTo 64 d k j g)
    | _, _ => d

/-- Run commit c on this member (R409, R410): the stream, the commit image, then the exchange of parity stripes, which a group of one
has not. -/
def runCommit (d : Dev) (k c : Nat) : Dev :=
  match task d k with
  | none => d
  | some t =>
    match t.myGroup d with
    | none => d
    | some g =>
      match commitStream d k g with
      | (d, none) => taskFault d k .task
      | (d, some s) =>
        if g.size > 1 && s.length > streamBound g then taskEnding d k .quota
        else
          let s := s ++ zeros (streamBound g - s.length)
          match writeOk d k (g.commitArea * 64) s with
          | (d, false) => taskFault d k .task
          | (d, true) =>
            let d := modTask d k (fun t => { t with image := some (c, s), window := some c })
            if g.size ≤ 1 then finishCommit d k c { t with image := some (c, s) } g
            else modTask d k (fun t => { t with parity := some { step := c, ord := commitOrdinal t g c } })

/-- What firmware and the adders do at once after a command: go on with commits, deliver roots, act on reports, flood QUIET (R284, R394,
R401, R409). -/
def settle (d : Dev) : Dev :=
  if d.reports.isEmpty && d.delivered.isEmpty && !quietDue d && !parityDue d then d
  else
    let d := parityResults d
    let d := parityResults (each d (taskKeys d (fun t => t.parity.isSome)) parityStep)
    let d := onReports 4 (deliverRoots d)
    each d (taskKeys d (fun t => t.inRound)) sendQuiet

/-! ### Replay (R415 to R417) -/

/-- The step that the next replay starts from: the commit under way, or the last one sealed (R411). -/
def replayFrom (t : Task) : Nat :=
  match t.window with
  | some c => c
  | none => t.lastCommit.getD (t.step0 - 1)

/-- Micro-batches of a step: the entries of the batch table. -/
def batchCount (t : Task) : Nat := (t.items 0x0B).length

/-- A position passes to another module, which takes its place in the roster and its ownership records (R412). -/
def passOn (t : Task) (z : Remap) : Task :=
  let own (b : List Byte) : List Byte :=
    let r := BitVec.ofNat 128 (leNat b)
    if recOwner r = z.old then leBytes 16 (put 128 116 z.new ||| put 128 0 (fld r 115 0)).toNat else b
  { t with
    roster := t.roster.mapIdx (fun i m => if i = z.pos then z.new else m)
    secs := t.secs.map (fun s => if s.kind = 0x07 then { s with data := (cut s.data.length 16 s.data).flatMap own } else s)
    remaps := t.remaps ++ [z] }

/-- The position that takes a folded one's ownership: p − 1, or p + 1 at the group's start (R412). -/
def foldTarget (t : Task) (p : Nat) : Option Nat :=
  match t.groupAt p with
  | some g => if g.size ≤ 1 then none else some (if p = g.pos0 then p + 1 else p - 1)
  | none => none

/-- The first position of a lost module. -/
def lostPos (t : Task) : Option (Nat × Nat) := t.roster.zipIdx.find? (fun z => t.lost.contains z.1)

/-- Position p, of lost module m, folds to position q. -/
def foldTo (t : Task) (m p q : Nat) : Task := passOn t ⟨p, m, t.roster.getD q m, true⟩

/-- At GO, a lost module that no standby has replaced has folded. -/
def foldLost (fuel : Nat) (t : Task) : Task :=
  match fuel with
  | 0 => t
  | f + 1 => match lostPos t with
    | none => t
    | some (m, p) => match foldTarget t p with
      | none => t
      | some q => foldLost f (foldTo t m p q)

/-- The manifest as the re-map plans of this round's positions leave it (R413, log 41); none where a plan cannot be read. -/
def applyPlans (d : Dev) (k : Nat) (t : Task) : Dev × Option Task :=
  let (d, r) := t.remaps.foldl (fun r z => match r.2, t.groupAt z.pos with
    | some x, some g => match memReadAll r.1 k (g.remap * 64) (pageBytes - g.remap * 64 % pageBytes) .clean with
      | (d, .ok, bs) => (d, some { x with secs := x.secs.map (fun s => { s with data := Config.remapSection z.pos z.new s.kind s.index bs s.data }) })
      | (d, _, _) => (d, none)
    | _, _ => (r.1, none)) (d, some t)
  (d, r.map (fun x => { x with crc := crc32c (x.secs.flatMap (·.data)) }))

/-- The commit image as memory holds it, where it is intact (R420, log 21). -/
def ownImage (d : Dev) (k : Nat) (t : Task) (g : Group) : Dev × Option (List Byte) :=
  match t.image with
  | none => (d, none)
  | some (_, s) => match memReadAll d k (g.commitArea * 64) s.length .clean with
    | (d, .ok, bs) => (d, if bs = s then some s else none)
    | (d, _, _) => (d, none)

/-- The state that a member restores: its commit image as memory holds it, or a stream rebuilt from its group. A member that a
position has folded to (`heir`) restores its own and, on the further pages of its enlarged list, the rebuilt one (log 41). False:
the rebuild is impossible (R414, R420). -/
def restoreState (d : Dev) (k : Nat) (t : Task) (g big : Group) (heir : Bool) (rebuilt : Option (List Byte)) : Dev × Bool :=
  match statePages d k g with
  | (d, none) => (d, false)
  | (d, some pgs) =>
    let (d, own) := ownImage d k t g
    if heir then match own, rebuilt with
      | some s, some r => match restorePages d k pgs s with
        | (d, false) => (d, false)
        | (d, true) => match statePages d k big with
          | (d, none) => (d, false)
          | (d, some all) => restorePages d k (all.filter (fun pg => !pgs.contains pg)) r
      | _, _ => (d, false)
    else match own, rebuilt with
    | some s, _ => restorePages d k pgs s
    | none, some s => match writeOk d k (g.commitArea * 64) s with
      | (d, false) => (d, false)
      | (d, true) => restorePages (modTask d k (fun t => { t with image := some (replayFrom t, s) })) k pgs s
    | none, none => (d, false)

/-- The replay prologue (R416): re-map plans, state, freeze bits, tables, arms, placement, plans and requests for batches.
`rebuilt` is the stream that the parity trees have rebuilt for this member, where it needs one. -/
def prologue (d : Dev) (k b : Nat) (rebuilt : Option (List Byte)) : Dev :=
  match task d k with
  | none => d
  | some old =>
    let t := foldLost old.roster.length old
    let c := replayFrom t
    let first := match t.rounds with
      | r :: _ => match r.lost with | m :: _ => m | [] => r.sender
      | [] => selfModule d
    let upTo := match t.rounds with | r :: _ => r.abortStep | [] => c
    let d := raise d (evTaskReplay k first (c + 1))
    let crcBad := old.crc ≠ crc32c (old.secs.flatMap (·.data))
    let (d, plan) := applyPlans d k t
    match t.myGroup d, plan with
    | some g, some u =>
      let heir := t.remaps.any (fun z => z.fold && z.new == selfModule d)
      if (u.sec 0x07).isSome && recordsBad u u.roster then endTask d k .range
      else match if crcBad then (d, false) else if t.window.isSome then (d, true) else restoreState d k t g ((u.myGroup d).getD g) heir rebuilt with
      | (d, false) => endTask d k .integrity
      | (d, true) =>
        let d := modTask (freezeClear d k) k (fun x => { u with image := x.image })
        let d := if t.window.isSome || t.remaps.any (·.fold) then runCommit d k c else d
        let d := freezeUpTo d k (c + 1)
        let d := loadArms (planUnits (placeSections (loadTables d k u) u) u b (c + 1)) k u b
        let want := (List.range (upTo - c)).flatMap (fun i => (List.range (batchCount u)).map (fun mb => (c + 1 + i, mb)))
        let d := modTask d k (fun t => { t with
          inRound := false
          quiets := []
          nbrs := []
          asked := []
          asking := none
          remaps := []
          startBeat := b
          batchReq := want.map (fun z => (z.1, z.2, d.eclk)) })
        each d want (fun d z => raise d (evBatchReq k z.1 z.2))
    | _, _ => endTask d k .integrity

/-- The coordinator floods GO with the least start beat that R415 admits, and acts on it (log 29). `rebuilt` is its own stream, where the
parity trees have rebuilt it (R414). -/
def floodGo (d : Dev) (k : Nat) (rebuilt : Option (List Byte)) : Dev :=
  match task d k with
  | none => d
  | some t =>
    let b := beatNow d + max 1000 ((t.groups.map (·.prologue)).foldl max 0)
    prologue (flood d k 7 (selfModule d) (roundNum t) b) k b rebuilt

/-- The replacement of a lost module takes its ring position (R412). -/
def replaceModule (d : Dev) (k old new : Nat) : Dev :=
  modTask d k (fun t => match t.roster.zipIdx.find? (fun z => z.1 == old) with
    | some (_, p) => passOn t ⟨p, old, new, false⟩
    | none => t)

/-- Re-map the next lost position: ask a standby, fold, or go on to GO (R412, R415). -/
def remapNext (fuel : Nat) (d : Dev) (k : Nat) (rebuilt : Option (List Byte)) : Dev :=
  match fuel with
  | 0 => d
  | f + 1 =>
    match task d k with
    | none => d
    | some t =>
      match lostPos t with
      | none => floodGo d k rebuilt
      | some (m, p) =>
        match t.standbys.find? (fun s => !t.asked.contains s && !t.roster.contains s) with
        | some s =>
          flood (modTask d k (fun t => { t with asked := t.asked ++ [s], asking := some (m, s, beatNow d) })) k 5 s (roundNum t) m
        | none =>
          match foldTarget t p with
          | none => endTask d k .integrity
          | some q =>
            remapNext f (modTask d k (fun t => foldTo t m p q)) k rebuilt

/-- Every member of the roster that is not lost, once. -/
def members (t : Task) : List Nat :=
  t.roster.foldl (fun l m => if l.contains m || t.lost.contains m then l else l ++ [m]) []

/-- Members that gave QUIET while one of them holds an NBR for the other: the one with the higher ring position is given
up (R402). -/
def splitPairs (t : Task) : List Nat :=
  let q := (members t).filter (fun m => t.quiets.contains m)
  q.zipIdx.filterMap (fun z => if (q.take z.2).any (fun a => t.nbrs.contains (a, z.1) || t.nbrs.contains (z.1, a)) then some z.1 else none)

/-- R403: two members of one group are lost in the round, or one within the commit window. -/
def rebuildImpossible (t : Task) (lost : List Nat) : Bool :=
  !lost.isEmpty && (t.window.isSome
    || t.groups.any (fun g => (t.roster.zipIdx.filter (fun z => lost.contains z.1 && g.pos0 ≤ z.2 && z.2 < g.pos0 + g.size)).length ≥ 2))

/-- R405: three rounds in a row at the same step, each by lag or leash, none with a loss. -/
def struckThrice (t : Task) : Bool :=
  match t.rounds with
  | a :: b :: c :: _ => a.abortStep == b.abortStep && b.abortStep == c.abortStep && [a, b, c].all (fun r => r.kind == .lag && r.lost.isEmpty)
  | _ => false

/-- Record a loss in the task and in its present round. -/
def recordLost (d : Dev) (k m : Nat) : Dev :=
  modTask d k (fun t => { t with
    lost := if t.lost.contains m then t.lost else t.lost ++ [m]
    rounds := match t.rounds with | r :: l => { r with lost := if r.lost.contains m then r.lost else r.lost ++ [m] } :: l | [] => []
    coordinator := if t.coordinator = m then ((members t).find? (· != m)).getD m else t.coordinator })

/-- This module acts as coordinator: it is, or the coordinator gave no QUIET in time and it is the lowest that did (R399). -/
def actsFor (d : Dev) (t : Task) (late : Bool) : Bool :=
  t.coordinator = selfModule d
    || (late && !t.quiets.contains t.coordinator && (members t).find? (fun m => t.quiets.contains m) == some (selfModule d))

/-- The end of the waiting phase of a round (R402, R403, R405). -/
def roundEnd (d : Dev) (k : Nat) (rebuilt : Option (List Byte)) : Dev :=
  match task d k with
  | none => d
  | some t =>
    match t.rounds with
    | [] => d
    | rd :: _ =>
      let late := rd.beat + 64 ≤ beatNow d
      let all := (members t).all (fun m => t.quiets.contains m)
      if !t.inRound || t.asking.isSome || !(late || all) || !actsFor d t late then d
      else
        let lost := (members t).filter (fun m => !t.quiets.contains m) ++ splitPairs t
        let d := modTask d k (fun t => { t with coordinator := selfModule d })
        let d := each d lost (fun d m => flood (recordLost d k m) k 4 m rd.num 0)
        if lost.contains (selfModule d) then endLocal d k .aborted 0
        else if rebuildImpossible t lost then endTask d k .integrity
        else if lost.isEmpty && struckThrice t then endTask d k .timeout
        else remapNext (t.roster.length + 1) d k rebuilt

/-- No JOIN within 64 beats: the standby is passed over (R412). -/
def joinTimeout (d : Dev) (k : Nat) (rebuilt : Option (List Byte)) : Dev :=
  match task d k with
  | none => d
  | some t =>
    match t.asking with
    | some (_, _, b) => if b + 64 ≤ beatNow d then remapNext (t.roster.length + 1) (modTask d k (fun t => { t with asking := none })) k rebuilt else d
    | none => d

/-! ### Accepted messages -/

def rcvAbort (d : Dev) (x : Rcv) : Dev :=
  match task d x.k with
  | none => d
  | some t =>
    let ahead := (x.round + 4096 - roundNum t % 4096) % 4096
    let kind := if Config.roundByLag x.k x.round x.md then FaultKind.lag else FaultKind.task
    let rd : Round := { num := roundNum t + ahead, abortStep := extend22 (stepInProgress t) x.arg, kind := kind, sender := x.md, beat := beatNow d }
    if ahead = 0 || ahead ≥ 2048 then d
    else match t.st with
      | .starting => endTask d x.k .aborted
      | .running | .stopping | .recovering => if t.hasParity then startRound d x.k rd false none else endTask d x.k .aborted
      | .created => if t.isStandby then modTask d x.k (fun t => { t with rounds := rd :: t.rounds.take 3, stallFrom := some (rd.abortStep, rd.beat) }) else d
      | _ => d

/-- The message belongs to the present round. -/
def inThisRound (t : Task) (x : Rcv) : Bool := t.inRound && x.round == roundNum t % 4096

def rcvNbr (d : Dev) (x : Rcv) : Dev :=
  modTask d x.k (fun t => if inThisRound t x then { t with nbrs := t.nbrs ++ [(x.arg % 4096, x.md)] } else t)

def rcvQuiet (d : Dev) (x : Rcv) : Dev :=
  modTask d x.k (fun t => if inThisRound t x && !t.quiets.contains x.md then { t with quiets := t.quiets ++ [x.md] } else t)

def rcvLost (d : Dev) (x : Rcv) : Dev :=
  if x.md = selfModule d then endLocal d x.k .aborted 0 else recordLost d x.k x.md

/-- A standby that is asked takes over the lost position, and its task enters RECOVERING (R412, log 31). -/
def rcvAdopt (d : Dev) (x : Rcv) : Dev :=
  match task d x.k with
  | none => d
  | some t =>
    if x.md = selfModule d && t.isStandby && t.st = .created then
      let d := replaceModule d x.k (x.arg % 4096) x.md
      let d := modTask d x.k (fun t => { t with inRound := true, quietSent := true, isStandby := false })
      flood (moveTask d x.k .recovering .ok 0) x.k 6 x.md x.round x.arg
    else d

def rcvJoin (d : Dev) (x : Rcv) (rebuilt : Option (List Byte)) : Dev :=
  match task d x.k with
  | none => d
  | some t =>
    let d := replaceModule d x.k (x.arg % 4096) x.md
    match t.asking with
    | some (m, s, _) => if m = x.arg % 4096 && s = x.md then remapNext (t.roster.length + 1) (modTask d x.k (fun t => { t with asking := none })) x.k rebuilt else d
    | none => d

/-- The least beat at or after now whose low 22 bits are `arg` (R415). -/
def goBeat (d : Dev) (arg : Nat) : Nat := beatNow d + (arg + 2 ^ 22 - beatNow d % 2 ^ 22) % 2 ^ 22

def rcvGo (d : Dev) (x : Rcv) (rebuilt : Option (List Byte)) : Dev :=
  match task d x.k with
  | none => d
  | some t => if t.st = .recovering && inThisRound t x then prologue d x.k (goBeat d x.arg) rebuilt else d

def scOf (n : Nat) : Sc :=
  match n with
  | 0 => .ok | 1 => .busy | 2 => .state | 3 => .range | 4 => .quota | 5 => .version | 6 => .denied
  | 7 => .timeout | 8 => .aborted | 9 => .unsupported | 10 => .format | _ => .integrity

def rcvEnd (d : Dev) (x : Rcv) : Dev := endLocal d x.k (scOf (x.arg % 256)) 0

def rcvCommitted (d : Dev) (x : Rcv) : Dev :=
  match task d x.k with
  | none => d
  | some t =>
    let c := extend22 (stepInProgress t) x.arg
    checkSealed (modTask d x.k (fun t => { t with committed := if t.committed.contains (x.md, c) then t.committed else t.committed ++ [(x.md, c)] })) x.k c

def rcvSealed (d : Dev) (x : Rcv) : Dev :=
  match task d x.k with
  | none => d
  | some t => sealStep d x.k (extend22 (stepInProgress t) x.arg)

/-! ### Updates (R311, R353, R409, R417) -/

/-- Class of the round that a stall followed: 2 where a module was lost (Table 11-14). -/
def roundClass (t : Task) : Nat :=
  match t.rounds with
  | r :: _ => if r.lost.isEmpty && r.kind != .moduleLost then 1 else 2
  | [] => 1

/-- The update of step s has completed on this module. -/
def updateDone (d : Dev) (k s : Nat) : Dev :=
  let d := modTask d k (fun t => { t with lastUpd := some (max s (t.lastUpd.getD s)) })
  match task d k with
  | none => d
  | some t =>
    let d := match t.stallFrom with
      | some (a, b) => if a ≤ s then raise (modTask d k (fun t => { t with stallFrom := none })) (evTaskStall k (beatNow d - b) (roundClass t)) else d
      | none => d
    let d := match t.myGroup d with
      | some g => if isCommitStep t g s then runCommit d k s else d
      | none => d
    let last := s ≥ t.stepLast || (t.st == .stopping && (match t.stopStep with | some x => decide (x ≤ s) | none => false))
    if last then endLocal d k .ok 0 else d

/-- The 64 bytes that a report's biscuit names: in memory, or in a store of the kennel; none where they cannot be read. -/
def reportBytes (d : Dev) (k : Nat) (b : DWord) (ecc : Ecc) : Dev × Option (List Byte) :=
  let a := bAddr b * 64
  if bSpace b = 4 then match memReadAll d k a 64 ecc with
    | (d, .ok, bs) => (d, some bs)
    | (d, _, _) => (d, none)
  else if isStore (bSpace b) && unitExists d (bSpace b) (bEng b) && ownsUnit d (bSpace b) (bEng b) k && a + 64 ≤ spaceBytes (bSpace b) then
    (d, some (Mem.read (store d (bSpace b) (unitOf (bSpace b) (bEng b))) a 64))
  else (d, none)

/-- Firmware reads the update report that a biscuit names, and goes on by it (R311). -/
def takeReport (d : Dev) (k : Nat) (b : DWord) (ecc : Ecc) : Dev :=
  match reportBytes d k b ecc with
  | (d, some bs) =>
    let s := leNat (bs.take 8)
    let n := leNat ((bs.drop 12).take 4)
    let d := if n ≠ 0 then raise d (evUpdPoison k s n) else d
    let d := if (bs.getD 16 0) = 1 then raise d (evUpdSkip k s) else d
    updateDone d k s
  | (d, none) => taskFault d k .task

/-- Updates are under way. -/
def takesReports (d : Dev) (k : Nat) : Bool := match task d k with | some t => t.st == .running || t.st == .stopping | none => false

/-- Firmware pops the task's firmware queue like any unit, with at most 16 pops outstanding (R188, R189, R311): it takes the oldest
biscuit at once, and on an empty queue its pop waits. -/
def updateReport (d : Dev) (k q : Nat) (ecc : Ecc) : Dev :=
  match task d k with
  | none => d
  | some t =>
    if !takesReports d k || q ≠ t.fwQueue || popsOutstanding d (· == .fw) ≥ 16 then d
    else if !hqAllows (hq d q) k then hqDeny d q
    else match (hq d q).items with
      | [] => (qPop d q k .fw k d.eclk).1
      | b :: r => takeReport (modHq d q (fun x => { x with items := r, popCnt := inc x.popCnt })) k b ecc

/-- The biscuit of a pop that waited arrives at firmware. -/
def reportArrives (d : Dev) (k : Nat) (b : DWord) : Dev := if takesReports d k then takeReport d k b .clean else d

/-- A biscuit arrives at a unit (R119), or at firmware. -/
def biscuitArrives (d : Dev) (u : UnitId) : Dev :=
  match u with
  | .fw => match takeFirst d.arrivals (fun a => a.unit == .fw) with
    | none => d
    | some (a, rest) => reportArrives { d with arrivals := rest } a.role a.biscuit
  | u => runArrival d u

/-- At the start beat, firmware writes `START` to every unit of the task, which enters RUNNING, or STOPPING when a stop is
pending; a replay waits for the batches it asked for. Commit 0 holds the initial state (R362, R363, R353, R409, log 25). -/
def startBeat (d : Dev) (k : Nat) : Dev :=
  match task d k with
  | none => d
  | some t =>
    if beatNow d < t.startBeat || !t.batchReq.isEmpty then d
    else match t.st with
      | .starting =>
        let d := moveTask (modTask (startUnits d t) k (fun t => { t with began := true })) k .running .ok 0
        if t.hasParity then runCommit d k (t.step0 - 1) else d
      | .recovering => if t.inRound then d else moveTask (modTask (startUnits d t) k (fun t => { t with began := true })) k (if t.stopStep.isSome then .stopping else .running) .ok 0
      | _ => d

end Sys2Proof.Machine
end

