-- ==== Sys2Proof/Machine/ScpOps.lean ====
section
/-! DEFINITION. The command protocol: attaching, doorbells, requests, their checks and replies, and the host functions
(R338 to R350, R355, R423 to R437). -/

namespace Sys2Proof.Machine

/-! ### The catalogue (Table 11-8) -/

/-- A row of Table 11-8: who may send it, the device states that allow it (none: all), its date, the assigned bits of P0 to
P5, and whether a payload is required. -/
structure Cmd where
  mgmt : Bool := false
  target : Bool := false
  states : List DState := []
  since : Nat := 0x26
  p0 : DWord := 0
  p1 : DWord := 0
  p2 : DWord := 0
  p3 : DWord := 0
  p4 : DWord := 0
  p5 : DWord := 0
  need : Bool := false
deriving DecidableEq, Repr

def allW : DWord := BitVec.allOnes 64
/-- States CF RD RN DR RC, RD RN DR RC, and RD RN RC. -/
def stWide : List DState := [.config, .ready, .running, .draining, .recovering]
def stRun : List DState := [.ready, .running, .draining, .recovering]
def stNew : List DState := [.ready, .running, .recovering]
def itemBits : DWord := mask 64 63 56 ||| mask 64 15 0
def slotBits : DWord := mask 64 6 0 ||| mask 64 12 8

/-- Assigned bits of P5 of TASK_CREATE. -/
def createBits (version : Nat) : DWord := mask 64 63 27 &&& ~~~(if version = 0x26 then mask 64 37 35 else 0)

/-- Control and device commands. -/
def cmdDev (code : Nat) : Option Cmd :=
  match code with
  | 0x0001 => some {}
  | 0x0002 => some { need := true }
  | 0x0003 => some {}
  | 0x0004 => some {}
  | 0x0005 => some { since := 0x30, p0 := allW }
  | 0x0006 => some { p0 := itemBits, need := true }
  | 0x0010 => some { mgmt := true, states := [.config] }
  | 0x0011 => some { mgmt := true, states := [.ready] }
  | 0x0012 => some { mgmt := true, states := stNew, p0 := 1 }
  | 0x0013 => some { mgmt := true, states := stWide }
  | 0x0014 => some { mgmt := true, states := [.safe] }
  | 0x0015 => some { mgmt := true }
  | 0x0020 => some { mgmt := true, p0 := itemBits, p1 := 1, need := true }
  | 0x0021 => some { mgmt := true, states := stWide, p0 := itemBits, p1 := allW, p2 := allW, p3 := allW, p4 := allW, p5 := allW }
  | 0x0022 => some { mgmt := true }
  | 0x0023 => some { mgmt := true, states := [.config, .ready] }
  | 0x0024 => some { mgmt := true }
  | 0x0028 => some { mgmt := true, states := [.config, .ready], p0 := allW, need := true }
  | 0x0029 => some { mgmt := true, states := [.config] }
  | 0x0030 => some { mgmt := true, target := true, states := [.config, .ready, .running, .recovering], need := true }
  | 0x0031 => some { mgmt := true, target := true, states := [.config, .ready, .running, .recovering] }
  | 0x0032 => some { mgmt := true, target := true, states := stWide, need := true }
  | 0x0033 => some { mgmt := true, target := true, states := stWide, since := 0x31, need := true }
  | 0x0034 => some { since := 0x31, p0 := allW, need := true }
  | _ => none

/-- Memory, table and task commands; `v` is the mailbox's version. -/
def cmdWork (code v : Nat) : Option Cmd :=
  match code with
  | 0x0040 => some { states := stWide, p0 := allW, p1 := allW, p2 := mask 64 62 41 ||| 7 }
  | 0x0041 => some { states := stWide, p0 := allW, p1 := allW }
  | 0x0042 => some { states := stWide, p0 := allW, need := true }
  | 0x0043 => some { states := stWide, p0 := allW, need := true }
  | 0x0044 => some { states := stRun, since := 0x30, p0 := allW, p1 := allW, p2 := 1 }
  | 0x0050 => some { states := stWide, since := 0x30, p0 := mask 64 14 0, p1 := allW }
  | 0x0051 => some { states := stRun, since := 0x30, p0 := mask 64 14 0 ||| mask 64 18 16, p1 := allW, p2 := allW, p3 := allW, p4 := allW, p5 := allW }
  | 0x0052 => some { states := stRun, since := 0x30, p0 := mask 64 14 0 }
  | 0x0053 => some { states := stWide, since := 0x30, p0 := mask 64 9 0, p1 := allW, p2 := allW }
  | 0x0054 => some { states := stWide, since := 0x30, p0 := mask 64 11 0, p1 := allW, p2 := allW }
  | 0x0055 => some { states := stRun, since := 0x30, p0 := slotBits, p1 := allW, need := true }
  | 0x0056 => some { states := stRun, since := 0x30, p0 := slotBits ||| mask 64 31 16 }
  | 0x0057 => some { states := stWide, since := 0x30, p0 := mask 64 5 0 ||| mask 64 13 8, p1 := mask 64 31 0 }
  | 0x0060 => some { states := stNew, p0 := allW, p1 := allW, p2 := allW, p3 := allW, p4 := allW, p5 := createBits v }
  | 0x0061 => some { states := stNew, p0 := allW }
  | 0x0062 => some { states := [.running, .recovering, .draining], since := 0x30, p0 := allW }
  | 0x0063 => some { states := stRun }
  | 0x0064 => some {}
  | 0x0065 => some {}
  | 0x0066 => some { states := [.running, .draining, .recovering], p0 := allW, p1 := mask 64 15 0, need := true }
  | 0x0067 => some { states := stRun, p0 := allW, need := true }
  | 0x0068 => some { states := stRun, since := 0x32, need := true }
  | 0x0069 => some { states := stRun, since := 0x33, p0 := 0x8000000000000FFF#64, p1 := 0x8000000000000FFF#64, p2 := 0x8000000000000FFF#64, p3 := 0x8000000000000FFF#64 }
  | 0x0070 => some {}
  | _ => none

def cmdOf (code v : Nat) : Option Cmd := (cmdDev code).or (cmdWork code v)

/-- A parameter bit that the command does not assign is set. -/
def paramRsvd (c : Cmd) (r : Req) : Bool :=
  [r.p0 &&& ~~~c.p0, r.p1 &&& ~~~c.p1, r.p2 &&& ~~~c.p2, r.p3 &&& ~~~c.p3, r.p4 &&& ~~~c.p4, r.p5 &&& ~~~c.p5].any (· != 0)

def paddrBad (r : Req) : Bool := fld r.paddr 5 0 != 0 || (r.plen == 0 && r.paddr != 0)

/-- Steps 1 to 4 of R347; objects of another kennel are left to the command's own checks. -/
def frontCheck (x : Mbx) (r : Req) : Option Sc :=
  match cmdOf r.cmd x.version with
  | none => some (if fld r.hdr 25 20 != 0 || paddrBad r then .format else .unsupported)
  | some c => firstSome [
      (fld r.hdr 25 20 != 0 || paddrBad r || paramRsvd c r || (c.need && r.plen == 0) || (!c.target && r.target != 0), Sc.format),
      (c.since > x.version, Sc.version),
      (c.mgmt && x.kennel != 0, Sc.denied)] (fun z => check z.1 z.2)

/-- The device states of a command allow the present one. -/
def stateOk (d : Dev) (x : Mbx) (r : Req) : Bool :=
  match cmdOf r.cmd x.version with
  | some c => c.states.isEmpty || c.states.contains d.dstate
  | none => false

/-! ### Doorbells and requests (R345, R346) -/

def cqFull (x : Mbx) : Bool := x.cqUsed ≥ 2 ^ x.cqLog
def waits (x : Mbx) : Bool := x.sqHead != x.sqTail

/-- Since when requests wait on a full completion ring (R350). -/
def noteStall (d : Dev) (m : Nat) : Dev :=
  modMbx d m (fun x => { x with stallSince := if cqFull x && waits x then some (x.stallSince.getD d.eclk) else none })

/-- The reply ends the request's turn among those begun (R346, R348). -/
def finish (d : Dev) (m : Nat) (c : Sc) (res0 res1 res2 : DWord) : Dev :=
  let d := { d with begun := d.begun.filter (· != m) }
  noteStall (reply d m c res0 res1 res2) m

/-- End a mailbox with its place among the requests begun. -/
def dropMbx (d : Dev) (m cause : Nat) (forced : Bool) : Dev := detach { d with begun := d.begun.filter (· != m) } m cause forced

/-- Requests of detached mailboxes leave the order of those begun. -/
def pruneBegun (d : Dev) : Dev := { d with begun := d.begun.filter (fun m => (mbx d m).isSome) }

/-- The indices of a doorbell are not admissible (R345). -/
def doorbellBad (x : Mbx) (v : DWord) : Bool :=
  let sn := 2 ^ x.sqLog
  let cn := 2 ^ x.cqLog
  let en := 2 ^ x.eqLog
  let sq := fld v 15 0
  let cq := fld v 31 16
  let eq := fld v 47 32
  fld v 63 48 != 0 || sq ≥ sn || cq ≥ cn || eq ≥ en || (sq + sn - x.sqHead) % sn < (x.sqTail + sn - x.sqHead) % sn
    || (cq + cn - x.cqHead) % cn > x.cqUsed || (eq + en - x.eqHead) % en > x.eqUsed

/-- A doorbell that firmware takes. -/
def doorbellTake (x : Mbx) (v : DWord) : Mbx :=
  let cq := fld v 31 16
  let eq := fld v 47 32
  { x with
    lastDb := v, sqTail := fld v 15 0, cqHead := cq, eqHead := eq
    cqUsed := x.cqUsed - (cq + 2 ^ x.cqLog - x.cqHead) % 2 ^ x.cqLog
    eqUsed := x.eqUsed - (eq + 2 ^ x.eqLog - x.eqHead) % 2 ^ x.eqLog }

/-- A write of `MBX_DB` (R435, R345). -/
def mbxDb (d : Dev) (p n m : Nat) (v : DWord) : Dev :=
  if !fnExists d p n then d
  else match mbx d m with
    | none => setWrDrop d p n
    | some x =>
      if x.port ≠ p || x.fn ≠ n then setWrDrop d p n
      else if doorbellBad x v then postEvent (modMbx d m (fun x => { x with lastDb := v })) m (evMbxError 1 v)
      else noteStall (modMbx d m (fun x => doorbellTake x v)) m

/-- Firmware can begin the next request of a mailbox (R346). -/
def canBegin (x : Mbx) : Bool := x.req.isNone && waits x && !cqFull x

/-- Begin the next request of a mailbox; a request that steps 1 to 4 of R347 refuse is answered at once. A failed DMA to one of its rings
detaches it (R350): the fetch of the request, with its `MBX_ERROR` (Table 11-13), or, where none is fetched, the write of an entry (log
103). -/
def requestBegin (d : Dev) (m : Nat) (f : Fetch) : Dev :=
  match mbx d m with
  | none => d
  | some x =>
    match f with
      | .failed => dropMbx (if canBegin x then postEvent d m (evMbxError 2 x.lastDb) else d) m 3 true
      | .request r =>
        if !canBegin x then d
        else
        let d := modMbx d m (fun x => { x with sqHead := (x.sqHead + 1) % 2 ^ x.sqLog, req := some r, stallSince := none })
        match frontCheck x r with
        | some c => finish d m c 0 0 0
        | none => { d with begun := d.begun ++ [m] }

/-! ### The frame of a command (R347 to R349) -/

/-- What a command answers: the device, the status and the three result words. -/
structure Ans where
  d : Dev
  sc : Sc := .ok
  r0 : DWord := 0
  r1 : DWord := 0
  r2 : DWord := 0

/-- A request in its turn: its mailbox by number and contents, the request, and the kennel it acts on. -/
structure Ctx where
  m : Nat
  k : Nat
  x : Mbx
  r : Req

/-- A command's own checks and effect. `field` is step 5 with the objects of step 4, `late` are steps 6 and 7 after the
device state. -/
structure Scp where
  field : Dev → Ctx → Option Sc := fun _ _ => none
  late : Dev → Ctx → Option Sc := fun _ _ => none
  act : Dev → Ctx → Ans

/-- The oldest request begun, when it is mailbox m's and has the command code. -/
def inTurn (d : Dev) (m code : Nat) : Option (Mbx × Req) :=
  match mbx d m with
  | none => none
  | some x => match x.req with
    | none => none
    | some r => if d.begun.head? = some m ∧ r.cmd = code then some (x, r) else none

/-- The kennel that a request acts on (R355). -/
def actsOn (code : Nat) (x : Mbx) (r : Req) : Nat :=
  match cmdOf code x.version with | some c => if c.target then r.target else x.kennel | none => x.kennel

def targetBad (code : Nat) (x : Mbx) (r : Req) : Bool :=
  match cmdOf code x.version with | some c => c.target && r.target == 0 | none => false

/-- The refusal that the checks of a command give, in the order of R347, or none. -/
def scpCheck (d : Dev) (code : Nat) (complete : Bool) (s : Scp) (z : Ctx) : Option Sc :=
  firstSome [check (!complete) .timeout, check (targetBad code z.x z.r) .range, s.field d z, check (!stateOk d z.x z.r) .state, s.late d z] id

/-- Run a command in its turn: its checks, its effect, its reply. -/
def scp (d : Dev) (m code : Nat) (complete : Bool) (s : Scp) : Dev :=
  match inTurn d m code with
  | none => d
  | some (x, r) =>
    let z : Ctx := ⟨m, actsOn code x r, x, r⟩
    match scpCheck d code complete s z with
    | some c => finish d m c 0 0 0
    | none =>
      let a := s.act d z
      finish a.d m a.sc a.r0 a.r1 a.r2

/-- Write an output payload. -/
def putPayload (d : Dev) (z : Ctx) (bs : List Byte) : Dev := emit d (.payload z.m z.r.paddr bs)
/-- The output does not fit in `PLEN` (R349). -/
def tooLong (z : Ctx) (n : Nat) : Option Sc := check (z.r.plen * 64 < n) .range

/-- The bytes of an input payload: what arrived, within `PLEN`; a complete one fills it (log 30). -/
def payBytes (z : Ctx) (p : Payload) : List Byte :=
  if p.complete then (p.bytes ++ List.replicate (z.r.plen * 64 - p.bytes.length) 0).take (z.r.plen * 64) else p.bytes.take (z.r.plen * 64)

def words (ws : List DWord) : List Byte := ws.flatMap (fun w => leBytes 8 w.toNat)

/-! ### Attaching (R339 to R341, R434) -/

def startHeld (d : Dev) (p n : Nat) : Dev :=
  if attachOk d then modFn d p n (fun f => if f.attaching.isNone then { f with attaching := f.held, held := none } else f) else d

/-- A write of the attach doorbell (R434). -/
def attachDb (d : Dev) (p n : Nat) (v : DWord) : Dev :=
  if !fnExists d p n then d
  else if fld v 63 12 = 0 then setWrDrop d p n
  else
    let a := v &&& mask 64 63 12
    let d := startHeld d p n
    let f := fn d p n
    if !attachOk d || f.attaching.isSome then
      let d := if f.held.isSome then setWrDrop d p n else d
      modFn d p n (fun f => { f with held := some a })
    else modFn d p n (fun f => { f with attaching := some a })

/-- Word i of an MCB. -/
def mcbWord (bs : List Byte) (i : Nat) : DWord := BitVec.ofNat 64 (leNat ((bs.drop (8 * i)).take 8))

def mcbFormat (bs : List Byte) : Bool :=
  let w := mcbWord bs
  let sq := fld (w 3) 63 60
  let cq := fld (w 3) 59 56
  let eq := fld (w 3) 55 52
  fld (w 3) 5 0 != 0 || w 5 != 0 || w 6 != 0 || w 7 != 0 || fld (w 0) 11 0 != 0 || fld (w 1) 11 0 != 0 || fld (w 2) 11 0 != 0
    || sq < 4 || sq > 12 || cq < sq || cq > 12 || eq < 4 || eq > 12 || fld (w 3) 51 44 > fld (w 3) 43 36

/-- The highest version spoken within the bounds (R341). -/
def chooseVersion (lo hi : Nat) : Option Nat := [0x34, 0x33, 0x32, 0x31, 0x30, 0x26].find? (fun v => lo ≤ v && v ≤ hi)

def mbxUse (d : Dev) (k : Nat) : Nat := (d.mbx.filter (fun z => match z.2 with | some x => x.kennel == k | none => false)).length

/-- The least free mailbox number (R338, R350). -/
def freeMbx (d : Dev) : Option Nat := (List.range 4096).find? (fun m => (mbx d m).isNone && Tbl.get 0 d.mbxFreed m == 0)

/-- The checks of R340 on an MCB, or the mailbox and its number. -/
def attachCheck (d : Dev) (p n : Nat) (bs : List Byte) : Sc × Option (Nat × Mbx) :=
  let w := mcbWord bs
  let k := kennelOfFn n
  if mcbFormat bs then (.format, none)
  else match chooseVersion (fld (w 3) 51 44) (fld (w 3) 43 36) with
    | none => (.version, none)
    | some v =>
      if k ≠ 0 && !((kennel d k).st == .live && within (mbxUse d k) 1 (kennel d k).quota.mailboxes) then (.quota, none)
      else match freeMbx d with
        | none => (.busy, none)
        | some m => (.ok, some (m, {
            port := p, fn := n, kennel := k, version := v, cqLog := fld (w 3) 59 56, sqLog := fld (w 3) 63 60, eqLog := fld (w 3) 55 52
            sqBase := w 0, cqBase := w 1, eqBase := w 2, cqVec := fld (w 3) 35 25, eqVec := fld (w 3) 24 14, coal := fld (w 3) 13 6
            evMask := w 4 }))

/-- Firmware release of the image in a slot (Table 12-4). -/
def slotFwVer (s : Slot) : Nat := Mem.readNat s.bytes 8 4
def fwVer (d : Dev) : Nat :=
  match d.runningB with | some true => slotFwVer d.slotB | some false => slotFwVer d.slotA | none => 0

/-- Word 8 of an MCB (Table 11-1). -/
def mcbResult (sc : Sc) (v k m gen : Nat) : DWord :=
  putB 64 63 true ||| put 64 48 sc.code ||| put 64 40 v ||| put 64 34 k ||| put 64 22 m ||| put 64 0 (gen % 2 ^ 16)

/-- A mailbox exists that receives an event. -/
def someWants (d : Dev) (e : Ev) : Bool := d.mbx.any (fun z => match z.2 with | some x => wants x e | none => false)

/-- What a BOOT left to be raised goes out once a mailbox exists that receives it (R390, R449). -/
def raiseBoot (d : Dev) : Dev :=
  let d := if d.bootSecurity && someWants d (evSecurity 0x1F 3) then raise { d with bootSecurity := false } (evSecurity 0x1F 3) else d
  match d.bootCause with
  | some c => if someWants d (evDevState .boot .faulted c) then raise { d with bootCause := none } (evDevState .boot .faulted c) else d
  | none => d

/-- Firmware serves the attach in progress. `mcb`: words 0 to 7 as read, none where the read failed; `wrote`: the write of
word 8 succeeds. A function that is not in D0 or without bus mastering reaches no host memory. -/
def mbxAttach (d : Dev) (p n : Nat) (mcb : Option (List Byte)) (wrote : Bool) : Dev :=
  let d := startHeld d p n
  let f := fn d p n
  match f.attaching with
  | none => d
  | some a =>
    let can := f.busMaster && !f.d3
    let (sc, got) := match if can then mcb else none with
      | some bs => attachCheck d p n bs
      | none => (Sc.timeout, none)
    let d := modFn d p n (fun f => { f with attaching := none })
    let d := if !(can && wrote) then setWrDrop d p n
      else
        let gen := if got.isSome then (f.gen + 1) % 2 ^ 16 else f.gen
        let d := modFn d p n (fun f => { f with gen := gen })
        let w8 := mcbResult sc (got.map (·.2.version) |>.getD 0) (kennelOfFn n) (got.map (·.1) |>.getD 0) gen
        let d := emit d (.mcb p n a w8 (put 64 32 (fwVer d)))
        let d := match got with | some z => raiseBoot (setMbx d z.1 (some z.2)) | none => d
        let d := setAttachDone d p n
        match mcb with
        | some bs => sendMsix d p n (fld (mcbWord bs 3) 35 25)
        | none => d
    startHeld d p n

/-! ### Ends of mailboxes and functions (R350, R426) -/

/-- A completion ring without a free entry for 10 s while requests wait. -/
def ringStall (d : Dev) (m : Nat) : Dev :=
  match mbx d m with
  | none => d
  | some x => match x.stallSince with
    | some t => if due d t (ms 10000) && cqFull x && waits x then dropMbx d m 4 true else d
    | none => d

def mailboxFree (d : Dev) (m : Nat) : Dev :=
  match Tbl.get 0 d.mbxFreed m with
  | 0 => d
  | t + 1 => if due d t (ms 1) then { d with mbxFreed := Tbl.erase d.mbxFreed m } else d

/-- `EVT_LOST` once two entries are free after drops (R367). -/
def lostDue (d : Dev) (m : Nat) : Dev :=
  match mbx d m with
  | none => d
  | some x => if x.lost > 0 && eqFree x ≥ 2 then writeLost d m else d

/-- The end of a vector's `COAL` interval (R368). -/
def coalesce (d : Dev) (m : Nat) : Dev :=
  match mbx d m with
  | none => d
  | some x =>
    let over' (t : Option Nat) : Bool := match t with | some b => due d b (us x.coal) | none => false
    let cq := over' x.cqDue
    let eq := over' x.eqDue
    let d := modMbx d m (fun x => { x with cqDue := if cq then none else x.cqDue, eqDue := if eq then none else x.eqDue })
    let d := if cq then sendMsix d x.port x.fn x.cqVec else d
    if eq && !(cq && x.eqVec = x.cqVec) then sendMsix d x.port x.fn x.eqVec else d

/-- Forced detach of a function, with its attaches in progress and held. -/
def endFn (d : Dev) (p n cause : Nat) : Dev := modFn (pruneBegun (detachFn d p n cause)) p n (fun f => { f with held := none })

/-- A function returns to its reset values; the attach generation counts on. -/
def resetFn (d : Dev) (p n cause : Nat) : Dev := modFn (endFn d p n cause) p n (fun f => { gen := f.gen })

/-- NumVFs falls to `n`: the virtual functions above it end. -/
def dropVfs (d : Dev) (p n cause : Nat) : Dev :=
  let gone := ((List.range ((hport d p).numVfs + 1)).filter (· > n))
  modHport (each d gone (fun d v => resetFn d p v cause)) p (fun h => { h with numVfs := n })

def functionReset (d : Dev) (p n : Nat) : Dev :=
  if !fnExists d p n then d
  else if n = 0 then resetFn (dropVfs d p 0 1) p 0 1
  else resetFn d p n 1

def busMasterOff (d : Dev) (p n : Nat) : Dev :=
  if !fnExists d p n then d else modFn (endFn d p n 1) p n (fun f => { f with busMaster := false })

def enterD3 (d : Dev) (p n : Nat) : Dev :=
  if !fnExists d p n then d else modFn (endFn d p n 5) p n (fun f => { f with d3 := true })

/-- A mailbox of the function names a vector that is not masked. -/
def namesVector (d : Dev) (p n : Nat) : Bool :=
  d.mbx.any (fun z => match z.2 with
    | some x => x.port == p && x.fn == n && (!vecMasked (fn d p n) x.cqVec || !vecMasked (fn d p n) x.eqVec)
    | none => false)

def msixOff (d : Dev) (p n : Nat) : Dev :=
  if !fnExists d p n then d
  else modFn (if namesVector d p n then endFn d p n 5 else d) p n (fun f => { f with msixEn := false })

def vfDisable (d : Dev) (p n : Nat) : Dev := if n < (hport d p).numVfs then dropVfs d p n 5 else d

/-- New virtual functions exist with their registers at reset values. -/
def vfEnable (d : Dev) (p n : Nat) : Dev := if n > (hport d p).numVfs then modHport d p (fun h => { h with numVfs := n }) else d

/-- The link of a host port is lost, or the port is reset: every function of the port ends and returns to reset. -/
def hostPortDown (d : Dev) (p cause : Nat) : Dev :=
  modHport (resetFn (dropVfs d p 0 cause) p 0 cause) p (fun _ => {})

/-- A host port trains (R424). -/
def hostPortTrain (d : Dev) (p rate width : Nat) (flit : Bool) : Dev :=
  if (rate = 64 || rate = 32 || rate = 16) && 1 ≤ width && width ≤ 16 then
    modHport d p (fun h => { h with up := true, rate := rate, width := width, flitMode := flit })
  else d

/-- What lets a pending message go (R436). -/
def unmask (d : Dev) (p n : Nat) (u : Unmask) : Dev :=
  if !fnExists d p n then d
  else
    let d := modFn d p n (fun f => match u with
      | .entry v x => { f with table := Tbl.set (1#128 <<< 96) f.table v.toNat x }
      | .function => { f with fnMask := false }
      | .enable => { f with msixEn := true }
      | .busMaster => { f with busMaster := true }
      | .d0 => { f with d3 := false })
    flushPend d p n

def fnStatusWrite (d : Dev) (p n : Nat) (v : DWord) : Dev :=
  if !fnExists d p n then d
  else updFn d p n true (fun f => { f with devChange := f.devChange && !bit v 2, attachDone := f.attachDone && !bit v 1, wrDrop := f.wrDrop && !bit v 0 })

/-- Writable bits of `FN_INT_CTRL` (Table 14-6). -/
def intCtrlRw : DWord := mask 64 63 52 ||| mask 64 2 0

def fnIntCtrlWrite (d : Dev) (p n : Nat) (v : DWord) : Dev :=
  if !fnExists d p n then d else updFn d p n true (fun f => { f with intCtrl := accWrite intCtrlRw 0 f.intCtrl v })

end Sys2Proof.Machine
end

