-- ==== Sys2Proof/Machine/CfgOps.lean ====
section
/-! DEFINITION. Device commands, unit reads, configuration epochs, boot images and SPDM (R352 to R359, R388 to R393,
R419 to R422). -/

namespace Sys2Proof.Machine

/-! ### Ports and units on a register write (R250, R266) -/

/-- Writable bits of `ZL_PORT_CONFIG` (Table 8-8). -/
def portRw : DWord := mask 64 63 63 ||| mask 64 61 43

/-- A port starts at TRAINING with its tries cleared. -/
def restartPort (d : Dev) (p : Nat) : Dev :=
  modPort (setPort d p .training 0) p (fun x => { x with version := 0, tries := 0, trainFails := 0 })

/-- A write of `ZL_PORT_CONFIG`: `EN` 0 disables at once; `RETRAIN`, a rising `EN`, or `EN` on a FAILED port restarts. -/
def portWrite (d : Dev) (p : Nat) (v : DWord) : Dev :=
  let was := port d p
  let d := modPort d p (fun x => { x with cfg := accWrite portRw 0 x.cfg v })
  if !bit v 63 then (if was.st = .disabled then d else setPort d p .disabled 0)
  else if bit v 62 || !bit was.cfg 63 || was.st = .failed then restartPort d p
  else d

def portEnable (d : Dev) (p : Nat) (v : DWord) : Dev := portWrite d p (v &&& ~~~(mask 64 62 62))
def portRetrain (d : Dev) (p : Nat) (v : DWord) : Dev := portWrite d p (v ||| mask 64 62 62)

/-- Bit 0 of `KMASK` always reads 1 (R266). -/
def writeKmask (d : Dev) (p : Nat) (v : DWord) : Dev := modPort d p (fun x => { x with kmask := v ||| 1 })

/-- `ZL_PORT_STATUS` (Table 8-8). -/
def portStatus (x : Port) : DWord :=
  put 64 61 x.st.code ||| put 64 58 x.cause ||| put 64 56 x.version ||| put 64 44 (x.peerMod % 4096) ||| put 64 40 (x.peerPort % 16)
    ||| put 64 36 (x.tries % 16) ||| putB 64 35 x.degraded ||| putB 64 34 x.rejected ||| putB 64 33 x.lateF ||| putB 64 32 x.retryF

/-- Writable bits of `MIG_CONFIG` (Table 7-6), and what R223 refuses. -/
def migRw : DWord := mask 64 55 40 ||| mask 64 31 0
def migRange (v : DWord) : Bool := fld v 31 16 ≤ fld v 15 0 || fld v 31 16 * 4 > frameTotal

/-! ### READ_UNIT (R357, Table 11-10) -/

def w32 (w : Word) : DWord := w.setWidth 64

def unitCount (cls : Nat) : Nat :=
  match cls with
  | 1 => 48 | 2 => 2560 | 3 => 80 | 4 => 32768 | 5 => 1024 | 6 => 4096 | 7 => 16 | 8 => 4 | 9 => 1 | 10 => 1024
  | _ => 0

/-- The unit is bound to kennel k. -/
def unitBound (d : Dev) (cls i k : Nat) : Bool :=
  match cls with
  | 1 => pairKennel d i == k
  | 2 => slotHeld k (sslot d (i / 32) (i % 32))
  | 3 => i ≥ 64 && Tbl.get 0 d.dieOwner ((i - 64) / 4) == k
  | 4 => hqAllows (hq d i) k
  | 5 => litEn (litter d i) && litKennel (litter d i) == k
  | 6 => (tree d i).en && (tree d i).kennel == k
  | 10 => i % 64 == k
  | _ => false

def pairRegs (d : Dev) (e : Nat) : List DWord :=
  let p := pair d e
  [w32 (opeStatus d e), w32 p.ope.replayCnt, w32 p.ope.ovfCnt, w32 p.ope.parityCnt,
    seqStatus d e, p.seq.beat0, w32 p.seq.doneCnt, w32 p.seq.overrunCnt,
    veStatus d e, p.ve.beat0, p.ve.seed, w32 p.ve.issueCnt, w32 p.ve.overrunCnt]

def portRegs (x : Port) : List DWord :=
  [x.cfg, x.kmask, portStatus x] ++ [x.cnt.tx, x.cnt.rx, x.cnt.retry, x.cnt.crc, x.cnt.fecUcw, x.cnt.fecCsym, x.cnt.reject, x.cnt.late, x.cnt.esc].map w32

def mdieRegs (x : MDie) : List DWord :=
  x.cfg :: [x.cnt.hit, x.cnt.miss, x.cnt.bypass, x.cnt.up, x.cnt.down, x.cnt.abort, x.cnt.ce, x.cnt.ue, x.cnt.poisonRd, x.cnt.retire].map w32

/-- The registers of a unit, in the order of the tables. -/
def unitRegs (d : Dev) (cls i : Nat) : List DWord :=
  match cls with
  | 1 => pairRegs d i
  | 2 => [slotStatus d (i / 32) (i % 32)]
  | 3 => let x := se d i; [x.doneCnt, x.overrunCnt, x.pfStop, x.pfRefetch, x.pfWait, x.leashCnt].map w32
  | 4 => let q := hq d i; [q.cfg, hqStatus q] ++ [q.pushCnt, q.popCnt, q.fullCnt, q.denyCnt].map w32
  | 5 => let x := litter d i; [x.setWidth 64, (x >>> 64).setWidth 64]
  | 6 => let x := (tree d i).entry; [x.setWidth 64, (x >>> 64).setWidth 64, treeStatus d i]
  | 7 => portRegs (port d i)
  | 8 => mdieRegs (mdie d i)
  | 9 => [d.time.config, d.time.origin, BitVec.ofNat 64 (timeNow d), BitVec.ofNat 64 (beatNow d), timeStatus d, w32 d.time.rejectCnt, w32 d.time.stepCnt, w32 d.time.barkRejectCnt, w32 d.time.lagAbortCnt]
  | _ => [BitVec.ofNat 64 (Tbl.get 0 (port d (i / 64)).bark.lags (i % 64))]

def readUnitCmd : Scp where
  field := fun d z =>
    let cls := fld z.r.p0 63 56
    let i := fld z.r.p0 15 0
    firstSome [(i ≥ unitCount cls || (cls == 1 && !present d i), Sc.range), (z.k != 0 && !unitBound d cls i z.k, Sc.denied),
      (z.r.plen * 64 < 8 * (unitRegs d cls i).length, Sc.range)] (fun z => check z.1 z.2)
  act := fun d z => { d := putPayload d z (words (unitRegs d (fld z.r.p0 63 56) (fld z.r.p0 15 0))) }

/-! ### Device commands (R352, R355, R356) -/

/-- Cause of a change that a command made (R469). -/
def cmdCause : DWord := devCause 5 0

/-- `SVN` of the image in a slot (Table 12-4). -/
def slotSvn (s : Slot) : Nat := Mem.readNat s.bytes 4 4
def runningSlot (d : Dev) : Slot := if d.runningB = some true then d.slotB else d.slotA

/-- READY is entered; the first time, the fused security version rises to the image's (R391). -/
def reachReady (d : Dev) : Dev :=
  if d.reachedReady then d
  else { d with reachedReady := true, fuses := { d.fuses with svn := max d.fuses.svn (if d.runningB.isSome then slotSvn (runningSlot d) else 0) } }

def nopCmd : Scp where
  act := fun d _ => { d := d }

/-- Part, grade, stepping and running firmware release (R1, R8): word 0 of Table 11-9 and `ID_PART` of Table 14-4. -/
def idPart (d : Dev) : DWord := put 64 48 0x3024 ||| put 64 40 d.fuses.grade ||| put 64 32 0xB0 ||| put 64 0 (fwVer d)
/-- The engine presence map (R5). -/
def idPresence (d : Dev) : DWord := d.fuses.presence.setWidth 64
/-- Module number of the running epoch, 0 until one has been applied. -/
def idModule (d : Dev) : Nat := if d.epochOn then d.epochRun.moduleNo else 0

/-- Word 0 to 5 of the device-information record (Table 11-9), in 256 bytes. -/
def devInfo (d : Dev) : List Byte :=
  words [idPart d, put 64 48 (idModule d) ||| idPresence d, 0x3F#64, d.fuses.serial,
    BitVec.ofNat 64 d.epochRun.num, BitVec.ofNat 64 d.epochPrev.num] ++ zeros 208

def devInfoCmd : Scp where
  field := fun _ z => tooLong z 256
  act := fun d z => { d := putPayload d z (devInfo d) }

/-- Kennels that have a task, as bits; one's own only for another mailbox than a management one. -/
def taskBits (d : Dev) (k : Nat) : DWord :=
  (taskKeys d (fun _ => true)).foldl (fun w i => if k = 0 || i = k then w ||| putB 64 i true else w) 0

def devStateCmd : Scp where
  act := fun d z => { d := d, r0 := put 64 4 d.time.tstate.code ||| put 64 0 d.dstate.code, r1 := BitVec.ofNat 64 (beatNow d), r2 := taskBits d z.k }

def timeGetCmd : Scp where
  act := fun d _ => { d := d, r0 := BitVec.ofNat 64 (timeNow d), r1 := BitVec.ofNat 64 (beatNow d), r2 := timeStatus d }

def eventMaskCmd : Scp where
  act := fun d z => { d := modMbx d z.m (fun x => { x with evMask := z.r.p0 }), r0 := z.x.evMask }

def devReadyCmd : Scp where
  act := fun d _ => { d := reachReady (setDState d .ready cmdCause) }

def devConfigCmd : Scp where
  late := fun d _ => check (anyTask d (fun _ => true)) .state
  act := fun d _ => { d := setDState d .config cmdCause }

def devDrainCmd : Scp where
  act := fun d z => { d := followTasks (setDState { d with drainToConfig := bit z.r.p0 0 } .draining cmdCause) 0 }

def devSafeCmd : Scp where
  act := fun d _ => { d := enterSafe d cmdCause }

/-- A limit that has not cleared (R454). -/
def limitHeld (d : Dev) : Bool := d.sensors.any (fun z => z.2.held)

def devResumeCmd : Scp where
  late := fun d _ => check (limitHeld d) .state
  act := fun d _ => { d := setDState { d with power := { d.power with selfRefresh := false } } .config cmdCause }

/-! ### Configuration epochs (R358, R359, R421, R422) -/

/-- An item of Table 11-11 as words, or as the bytes of the route table. -/
def cfgCount (cls : Nat) : Nat := match cls with | 1 => 16 | 2 => 1 | 3 => 4 | 4 => 1 | 5 => 1 | _ => 0

def itemBytes (e : Epoch) (cls i : Nat) : List Byte :=
  match cls with
  | 1 => let p := Tbl.get portDefault e.ports i; words [p.1, p.2]
  | 2 => words [e.timeCfg, e.timeOrigin]
  | 3 => words [Tbl.get migDefault e.mig i]
  | 4 => (List.range 4096).map (fun m => BitVec.ofNat 8 (Tbl.get 0 e.routes m))
  | _ => words [put 64 0 e.moduleNo ||| putB 64 12 e.autoReady]

def itemCls (z : Ctx) : Nat := fld z.r.p0 63 56
def itemIx (z : Ctx) : Nat := fld z.r.p0 15 0
def itemBad (z : Ctx) : Option Sc := check (itemIx z ≥ cfgCount (itemCls z)) .range

def cfgGetCmd : Scp where
  field := fun d z => (itemBad z).or (tooLong z (itemBytes d.epochRun (itemCls z) (itemIx z)).length)
  act := fun d z => { d := putPayload d z (itemBytes (if bit z.r.p1 0 then d.epochStaged else d.epochRun) (itemCls z) (itemIx z)) }

/-- Parameters beyond the item's value, and its reserved bits. -/
def stageFormat (z : Ctx) (bs : List Byte) : Bool :=
  let r := z.r
  let tail := r.p3 != 0 || r.p4 != 0 || r.p5 != 0
  match itemCls z with
  | 1 => fld r.p1 42 0 != 0 || tail
  | 2 => tail
  | 3 => r.p1 &&& ~~~migRw != 0 || r.p2 != 0 || tail
  | 4 => bs.length < 4096 || (bs.take 4096).any (fun b => b.toNat ≥ 32) || r.p1 != 0 || r.p2 != 0 || tail
  | _ => fld r.p1 63 13 != 0 || r.p2 != 0 || tail

/-- The register rules of the item's table (R358). -/
def stageCheck (z : Ctx) (bs : List Byte) : Option Sc :=
  (itemBad z).or <| (check (stageFormat z bs) .format).or <|
  match itemCls z with
  | 2 => timeCfgCheck z.r.p1
  | 3 => check (migRange z.r.p1) .range
  | _ => none

def stageItem (e : Epoch) (z : Ctx) (bs : List Byte) : Epoch :=
  match itemCls z with
  | 1 => { e with ports := Tbl.set portDefault e.ports (itemIx z) (z.r.p1, z.r.p2) }
  | 2 => { e with timeCfg := z.r.p1, timeOrigin := z.r.p2 }
  | 3 => { e with mig := Tbl.set migDefault e.mig (itemIx z) z.r.p1 }
  | 4 => { e with routes := ((bs.take 4096).mapIdx (fun i b => (i, b.toNat))).foldl (fun t q => Tbl.set 0 t q.1 q.2) [] }
  | _ => { e with moduleNo := fld z.r.p1 11 0, autoReady := bit z.r.p1 12 }

def cfgStageCmd (p : Payload) : Scp where
  field := fun _ z => stageCheck z (payBytes z p)
  act := fun d z => { d := { d with epochStaged := stageItem d.epochStaged z (payBytes z p) } }

/-- Bits of `TIME_CONFIG` that may change live (Table 11-11). -/
def timeLive : DWord := mask 64 63 58 ||| mask 64 49 49

/-- The staged epoch differs from the running one in live fields alone (R359). -/
def liveOnly (a b : Epoch) : Bool :=
  a.ports == b.ports && a.routes == b.routes && a.moduleNo == b.moduleNo && a.autoReady == b.autoReady && a.timeOrigin == b.timeOrigin
    && (a.timeCfg ^^^ b.timeCfg) &&& ~~~timeLive == 0

/-- An epoch changes the beat while a task exists (R323). -/
def beatChange (d : Dev) (e : Epoch) : Bool :=
  anyTask d (fun _ => true) && (fld e.timeCfg 35 19 != beatPeriod d || e.timeOrigin != d.time.origin)

/-- Make an epoch the running one and apply its values to the units. -/
def applyEpoch (d : Dev) (e : Epoch) : Dev :=
  let d := { d with epochRun := e, epochOn := true }
  let d := each d (List.range 16) (fun d p => let v := Tbl.get portDefault e.ports p; writeKmask (portWrite d p v.1) p v.2)
  let d := each d (List.range 4) (fun d m => watermarkCheck (modMdie d m (fun x => { x with cfg := Tbl.get migDefault e.mig m })) m)
  applyTime d e.timeCfg e.timeOrigin

/-- Return to the previous epoch under its own number (R422). -/
def rollback (d : Dev) (applied : Bool) : Dev :=
  let new := d.epochPrev
  let d := applyEpoch { d with cfgSeq := d.cfgSeq + 1, epochPrev := d.epochRun } new
  if applied then raise d (evEpoch new.num false true) else enterFaulted d (devCause 4 0)

/-- A commit of the staged epoch: its write, its application, and the rollback where that fails (R421). -/
def commitEpoch (d : Dev) (wrote applied back : Bool) : Dev :=
  let run := d.epochRun
  let e : Epoch := { d.epochStaged with num := run.num + 1 }
  if !wrote then raise d (evEpoch run.num false false)
  else
    let d := applyEpoch { d with cfgSeq := d.cfgSeq + 1, epochPrev := run, epochStaged := e } e
    if applied then raise d (evEpoch e.num true false) else rollback d back

def cfgCommitCmd (wrote applied back : Bool) : Scp where
  late := fun d _ =>
    check ((d.dstate != .config && d.dstate != .ready && !liveOnly d.epochStaged d.epochRun) || beatChange d d.epochStaged) .state
  act := fun d _ => { d := commitEpoch d wrote applied back, r0 := BitVec.ofNat 64 (d.epochRun.num + 1) }

def cfgRollbackCmd (applied : Bool) : Scp where
  late := fun d _ => check (beatChange d d.epochPrev) .state
  act := fun d _ => { d := rollback d applied, r0 := BitVec.ofNat 64 d.epochPrev.num }

def cfgDiscardCmd : Scp where
  act := fun d _ => { d := { d with epochStaged := d.epochRun } }

/-! ### Boot images (R388 to R391, R467) -/

/-- Slot B is the inactive one: it is written while A runs. -/
def inactiveB (d : Dev) : Bool := d.runningB != some true
def imgSlot (d : Dev) (b : Bool) : Slot := if b then d.slotB else d.slotA
def setImgSlot (d : Dev) (b : Bool) (s : Slot) : Dev := if b then { d with slotB := s } else { d with slotA := s }

/-- Another writer holds the inactive slot. -/
def heldByOther (d : Dev) (h : Holder) : Bool := match d.holder with | some z => z.1 != h | none => false

/-- Write image bytes: the slot's record is invalid from then on (R420), and the writer holds the slot. -/
def writeImage (d : Dev) (h : Holder) (ofs : Nat) (bs : List Byte) : Dev :=
  let b := inactiveB d
  let s := imgSlot d b
  { setImgSlot d b { bytes := Mem.write s.bytes ofs bs, commit := none } with holder := some (h, d.eclk) }

def imgByte (s : Slot) (o : Nat) : Nat := Mem.readNat s.bytes o 1

/-- An image verifies (R389); the clauses on digests and signatures are verdicts of the security core (log 11). -/
def verifies (d : Dev) (s : Slot) (c : ImgCheck) : Bool :=
  let key := imgByte s 16
  let flags := imgByte s 17
  Mem.readNat s.bytes 0 4 == 0x314D504B && key < 4 && !d.fuses.revoked.getLsbD key && flags < 2
    && Mem.readNat s.bytes 18 14 == 0 && Mem.readNat s.bytes 80 48 == 0
    && c.digest && c.keyHash && c.ecdsa && slotSvn s ≥ d.fuses.svn && (!(flags == 1 || d.fuses.mldsaReq) || c.mldsa)

/-- Write the commit record of the inactive slot, the highest `SEQ`: it boots next. -/
def activateImage (d : Dev) : Dev :=
  let b := inactiveB d
  let s := imgSlot d b
  let top := max ((d.slotA.commit.map (·.1)).getD 0) ((d.slotB.commit.map (·.1)).getD 0)
  { setImgSlot d b { s with commit := some (top + 1, Mem.readNat s.bytes 12 4) } with holder := none }

def imgWriteCmd (p : Payload) : Scp where
  late := fun d z => check (heldByOther d (.mailbox z.m)) .busy
  act := fun d z =>
    let bs := payBytes z p
    { d := writeImage d (.mailbox z.m) z.r.p0.toNat bs, sc := if p.complete then .ok else .timeout
      r0 := if p.complete then 0 else BitVec.ofNat 64 bs.length }

def imgActivateCmd (c : ImgCheck) : Scp where
  late := fun d z => (check (heldByOther d (.mailbox z.m)) .busy).or (check (!verifies d (imgSlot d (inactiveB d)) c) .integrity)
  act := fun d _ => { d := activateImage d }

/-- 60 s without a write release the slot (R467). -/
def holdTimeout (d : Dev) : Dev :=
  match d.holder with
  | some z => if due d z.2 (ms 60000) then { d with holder := none } else d
  | none => d

/-! ### SPDM (R392, R393) -/

/-- Request codes of DSP0274 that the responder supports (R392). -/
def spdmSupported (c : Nat) : Bool := [0x81, 0x82, 0x83, 0x84, 0xE0, 0xE1, 0xE3, 0xE4, 0xE5, 0xE8, 0xE9, 0xEC, 0xFE].contains c
def spdmCode (bs : List Byte) : Nat := (bs.getD 1 0).toNat

def quotaBytes (q : Quota) : List Byte := words [q.w0, q.w1, q.w2, q.w3, q.w4, 0, 0, 0]

/-- The bytes of a configuration epoch: its number and every item of Table 11-11. -/
def epochBytes (e : Epoch) : List Byte :=
  leBytes 8 e.num ++ [1, 2, 3, 4, 5].flatMap (fun cls => (List.range (cfgCount cls)).flatMap (itemBytes e cls))

/-- What GET_MEASUREMENTS covers (Table 12-5), the ROM apart. -/
def measured (d : Dev) : List Byte :=
  let s := runningSlot d
  Mem.read s.bytes 0 ((s.commit.map (·.2)).getD 0) ++ leBytes 4 (slotSvn s) ++ leBytes 4 d.fuses.svn ++ epochBytes d.epochRun
    ++ leBytes 1 d.fuses.grade ++ leBytes 6 d.fuses.presence.toNat ++ (d.fuses.repair.flatMap (fun z => leBytes 8 z.2.toNat))
    ++ ((List.range 64).filter (fun k => k != 0 && (kennel d k).st == .live)).flatMap (fun k =>
        quotaBytes (kennel d k).quota ++ leBytes 1 ((kennel d k).cur.map (·.kgen) |>.getD 0))

/-- A response of the security core: its bytes are open (log 7). -/
def spdmBytes (d : Dev) (inp : List Byte) : List Byte := Config.spdmResponse d.fresh inp
/-- The SPDM error UnsupportedRequest. -/
def spdmUnsupported (c : Nat) : List Byte := [0x13, 0x7F, 0x07, BitVec.ofNat 8 c]

def spdmInput (d : Dev) (bs : List Byte) : List Byte := if spdmCode bs = 0xE0 then measured d ++ bs else bs
def spdmAnswer (d : Dev) (bs : List Byte) : List Byte :=
  if spdmSupported (spdmCode bs) then spdmBytes d (spdmInput d bs) else spdmUnsupported (spdmCode bs)

/-- An SPDM command whose request code satisfies `want`: the response of `P0` bytes goes into the payload, and `eff` is what
the request does. -/
def spdmCmd (p : Payload) (deny : Dev → Ctx → Option Sc) (eff : Dev → Ctx → Dev) : Scp where
  field := fun d z => (tooLong z z.r.p0.toNat).or (deny d z)
  act := fun d z => { d := { putPayload (eff d z) z ((spdmAnswer d (payBytes z p)).take z.r.p0.toNat) with fresh := d.fresh + 1 } }

/-- The request in turn is an SPDM_MSG whose code satisfies a test. -/
def spdmIs (d : Dev) (m : Nat) (p : Payload) (t : Nat → Bool) : Bool :=
  match inTurn d m 0x0034 with
  | some (x, r) => !p.complete || t (spdmCode (payBytes ⟨m, x.kennel, x, r⟩ p))
  | none => false

/-- KEY_EXCHANGE opens a handshake, FINISH establishes its session; at most 16 exist at once (R392). -/
def spdmSession (d : Dev) (m session code : Nat) : Dev :=
  if code = 0xE4 then
    if d.sessions.length + d.handshakes.length ≥ 16 then d else { d with handshakes := d.handshakes ++ [(session, m)] }
  else if d.handshakes.contains (session, m) then
    { d with handshakes := d.handshakes.filter (· != (session, m)), sessions := d.sessions ++ [(session, m)] }
  else d

def spdmMsg (d : Dev) (m : Nat) (p : Payload) : Dev :=
  if spdmIs d m p (fun c => c != 0xE4 && c != 0xE5 && c != 0xEC && c != 0xFE) then
    scp d m 0x0034 p.complete (spdmCmd p (fun _ _ => none) (fun d _ => d)) else d

def spdmMeasure (d : Dev) (m : Nat) (p : Payload) : Dev :=
  if spdmIs d m p (· == 0xE0) then scp d m 0x0034 p.complete (spdmCmd p (fun _ _ => none) (fun d _ => d)) else d

def spdmKeyExchange (d : Dev) (m : Nat) (p : Payload) (session : Nat) : Dev :=
  if spdmIs d m p (fun c => c == 0xE4 || c == 0xE5) then
    scp d m 0x0034 p.complete (spdmCmd p (fun _ _ => none) (fun d z => spdmSession d m session (spdmCode (payBytes z p)))) else d

/-- Any other request; END_SESSION ends the session that it arrives in. -/
def spdmOther (d : Dev) (m : Nat) (p : Payload) (session : Nat) : Dev :=
  if spdmIs d m p (fun c => c != 0xE0 && c != 0xE4 && c != 0xE5 && c != 0xFE) then
    scp d m 0x0034 p.complete (spdmCmd p (fun _ _ => none) (fun d z =>
      if spdmCode (payBytes z p) = 0xEC then { d with sessions := d.sessions.filter (· != (session, m)) } else d)) else d

/-! ### Link keys (R382, R383) -/

/-- A link-key record (Table 12-3). -/
structure KeyRec where
  session : Nat
  ktype : Nat
  kgen : Nat
  rsvd : Bool
  switchBeat : Nat

def keyRec (bs : List Byte) : KeyRec :=
  let f (o n : Nat) : Nat := leNat ((bs.drop o).take n)
  ⟨f 0 4, f 4 1, f 5 1, f 6 2 != 0 || f 56 8 != 0, f 8 8⟩

/-- The refusals of R383, in the order of R347; `key` is the unwrapped key, none where the unwrap fails. -/
def keyField (d : Dev) (m k ktype : Nat) (r : KeyRec) : Option Sc :=
  firstSome [
    (r.ktype != ktype || r.rsvd, Sc.format),
    (!d.sessions.contains (r.session, m), Sc.denied),
    ((kennel d k).cur.isSome && r.switchBeat < beatNow d + 1000, Sc.range)] (fun z => check z.1 z.2)

def keyLate (d : Dev) (k : Nat) (r : KeyRec) (key : Option (BitVec 256)) : Option Sc :=
  let x := kennel d k
  firstSome [
    (x.st != .live, Sc.state),
    (key.isNone, Sc.integrity),
    ((match x.cur with | some c => decide (r.kgen ≠ (c.kgen + 1) % 256) | none => false), Sc.state),
    (x.next.isSome, Sc.busy)] (fun z => check z.1 z.2)

/-- The first key is current at once; a later one waits for its switch (R383). -/
def loadKey (d : Dev) (k : Nat) (r : KeyRec) (key : BitVec 256) : Dev :=
  modKennel d k (fun x => if x.cur.isNone then { x with cur := some ⟨key, r.kgen, r.switchBeat⟩ } else { x with next := some ⟨key, r.kgen, r.switchBeat⟩ })

def kennelKeyCmd (p : Payload) (key : Option (BitVec 256)) : Scp where
  field := fun d z => keyField d z.m z.k 1 (keyRec (payBytes z p))
  late := fun d z => keyLate d z.k (keyRec (payBytes z p)) key
  act := fun d z => { d := loadKey d z.k (keyRec (payBytes z p)) (key.getD 0) }

/-- The record inside a VENDOR_DEFINED_REQUEST: after the header, the vendor's ID and the length (PRESUMED, log 7). -/
def vendorRec (bs : List Byte) : KeyRec := keyRec (bs.drop (9 + (bs.getD 6 0).toNat))

def spdmVendor (d : Dev) (m : Nat) (p : Payload) (key : Option (BitVec 256)) : Dev :=
  if spdmIs d m p (· == 0xFE) then
    scp d m 0x0034 p.complete (spdmCmd p
      (fun d z => (check (z.k != 0) .denied).or ((keyField d z.m 0 2 (vendorRec (payBytes z p))).or (keyLate d 0 (vendorRec (payBytes z p)) key)))
      (fun d z => loadKey d 0 (vendorRec (payBytes z p)) (key.getD 0)))
  else d

/-- At the boundary of `SWITCH_BEAT` the next key becomes current, and link epochs are counted anew (R383, R385). -/
def keySwitch (d : Dev) (k : Nat) : Dev :=
  match (kennel d k).next with
  | none => d
  | some n =>
    if beatNow d < n.switchBeat then d
    else
      let d := modKennel d k (fun x => { x with old := x.cur, cur := some n, next := none })
      each d (List.range 16) (fun d p => modPort d p (fun x => { x with kEpochs := Tbl.set 0 x.kEpochs k 0 }))

/-- 64 beats after the switch the old key is erased (R383). -/
def oldKeyErase (d : Dev) (k : Nat) : Dev :=
  match (kennel d k).old, (kennel d k).cur with
  | some _, some c => if c.switchBeat + 64 ≤ beatNow d then modKennel d k (fun x => { x with old := none }) else d
  | _, _ => d

end Sys2Proof.Machine
end

