-- ==== Sys2Proof/Machine/PortOps.lean ====
section
/-! DEFINITION. Bring-up and timers of a Zholin port, and what its received flits do (R249 to R288). -/

namespace Sys2Proof.Machine

/-- A test on the state of port p. -/
def inState (d : Dev) (p : Nat) (st : PState) : Bool := (port d p).st == st

/-! ### Bring-up (R249, R264) -/

def trainingComplete (d : Dev) (p : Nat) : Dev :=
  if inState d p .training then setPort (modPort d p (fun x => { x with trainFails := 0 })) p .qualifying 0 else d

/-- TRAINING past 500 ms: again, or FAILED with cause 1 after three failures in a row. -/
def trainingTimeout (d : Dev) (p : Nat) : Dev :=
  let x := port d p
  if x.st ≠ .training || !due d x.since (ms 500) then d
  else
    let d := modPort d p (fun x => { x with trainFails := x.trainFails + 1, since := d.eclk })
    if x.trainFails + 1 ≥ 3 then setPort d p .failed 1 else d

/-- The 100 ms window has ended with `ucw` uncorrectable codewords and `csym` corrected of `syms` symbols. -/
def qualifyEnd (d : Dev) (p ucw csym syms : Nat) : Dev :=
  let x := port d p
  if x.st ≠ .qualifying || !due d x.since (ms 100) then d
  else
    let d := modPort d p (fun x => { x with cnt := { x.cnt with fecUcw := x.cnt.fecUcw + BitVec.ofNat 32 ucw, fecCsym := x.cnt.fecCsym + BitVec.ofNat 32 csym } })
    if ucw = 0 && csym * 1000000 ≤ syms then toNegotiating d p
    else failTry d p 2

def negotiateTimeout (d : Dev) (p : Nat) : Dev :=
  let x := port d p
  if x.st = .negotiating && due d x.since (ms 10) then failTry d p 3 else d

/-- A NEG is sent every 16 µs until one has been received. -/
def negSend (d : Dev) (p : Nat) : Dev :=
  let x := port d p
  let now := match x.link.negAt with | some t => due d t (us 16) | none => true
  if x.st ≠ .negotiating || x.link.chosen.isSome || !now then d
  else modPort (sendFlit d p (negFlit d p)) p (fun x => { x with link := { x.link with negAt := some d.eclk } })

/-- A NEG_DONE has been sent and one received with the same `CHOSEN` (R264). -/
def negAgree (d : Dev) (p : Nat) : Dev :=
  let l := (port d p).link
  match l.chosen, l.doneRcvd with
  | some a, some b => if a = b && l.doneSent && inState d p .negotiating then toUp d p a else d
  | _, _ => d

/-- A tree on the port that ZL2 cannot carry is a fault of its task (R270, Table 13-1). -/
def zl2Faults (d : Dev) (p : Nat) : Dev :=
  if !isUp d p then d
  else each d (d.trees.filter (fun z => z.2.en && (treePorts z.2).contains p && zl2Forbids d p z.2)) (fun d z => taskFault d z.2.kennel .task)

/-- An admitted NEG. -/
def negTake (d : Dev) (p : Nat) (f : Flit) : Dev :=
  let x := port d p
  if x.st ≠ .negotiating then d
  else
    let md := fld f.tsf 53 42
    let pp := fld f.tsf 41 38
    let offer := fld f.tsf 55 54 &&& fld x.cfg 61 60
    let d := modPort d p (fun x => { x with peerMod := md, peerPort := pp })
    if offer = 0 then setPort d p .failed 4
    else if bit x.cfg 59 && (md ≠ fld x.cfg 58 47 || pp ≠ fld x.cfg 46 43) then setPort d p .failed 5
    else if x.link.chosen.isSome then d
    else
      let v := if offer ≥ 2 then 2 else 1
      let d := modPort (sendFlit d p (negDoneFlit v)) p (fun x => { x with link := { x.link with chosen := some v } })
      d

def negDoneTake (d : Dev) (p : Nat) (f : Flit) : Dev :=
  if !inState d p .negotiating then d
  else zl2Faults (negAgree (modPort d p (fun x => { x with link := { x.link with doneRcvd := some (fld f.tsf 55 54) } })) p) p

/-- A flit slot of the port, and what the flit sent in it lets happen: the port enters UP once its NEG_DONE has left, and an adder's
entry frees once its flits have (R264, R277). -/
def linkSlot (d : Dev) (p ofs : Nat) : Dev :=
  let d := flitSlot d p ofs
  let d := if inState d p .negotiating then zl2Faults (negAgree d p) p else d
  each d (d.trees.keys.filter (fun tn => let t := tree d tn; t.en && !t.mcast && !t.root && t.upPort == p)) freeAccepted

/-! ### UP (R250, R255, R387) -/

def pcsLoss (d : Dev) (p : Nat) : Dev := if isUp d p then toTraining d p else d

/-- The ratio of corrected symbols as an FP32 value. -/
def ratioW (a b : Nat) : Word := if b = 0 then 0 else fp32Ratio a b
where
  /-- a / b rounded once: 64 fraction bits with a sticky one. -/
  fp32Ratio (a b : Nat) : Word := encW (.fin false (2 * (a * 2 ^ 64 / b) + (if a * 2 ^ 64 % b = 0 then 0 else 1)) (-65))

def degradeWindow (d : Dev) (p csym syms : Nat) : Dev :=
  if isUp d p && csym * 100000 > syms then
    raise (modPort d p (fun x => { x with degraded := true })) (evLinkDegraded p (ratioW csym syms))
  else d

def ackTimeout (d : Dev) (p : Nat) : Dev :=
  let x := port d p
  if (x.st = .up || x.st = .negotiating) && !x.link.unacked.isEmpty && due d x.link.ackAt (lclk 4096) then startReplay d p else d

/-- 256 flit slots have passed: the Strict shares are renewed. -/
def strictWindow (d : Dev) (p : Nat) : Dev :=
  if isUp d p && (port d p).slot ≥ 256 then modPort d p (fun x => { x with slot := x.slot - 256, strictUsed := [] }) else d

/-! ### Received flits -/

/-- The row of the table that an accepted flit belongs to. -/
inductive FlitRow where
  | idle | neg | negDone | tcred | rcv (code : Nat) | bark | red | redX | mcast | readReq | readRsp | none
deriving DecidableEq, Repr

def flitRow (f : Flit) : FlitRow :=
  match f.ftype with
  | 0 => .idle
  | 1 => match fld f.tsf 63 56 with
    | 1 => .neg
    | 2 => .negDone
    | 3 => .tcred
    | 4 => if 1 ≤ fld f.tsf 49 46 && fld f.tsf 49 46 ≤ 10 then .rcv (fld f.tsf 49 46) else .none
    | _ => .none
  | 2 => .bark
  | 3 => .red
  | 4 => .redX
  | 5 => .mcast
  | 6 => .readReq
  | 7 => .readRsp
  | _ => .none

/-- Receive a flit of a row, or one of no row, which is rejected; a flit of another row is not this command's (log 33). -/
def receive (d : Dev) (p : Nat) (r : RxFlit) (row : FlitRow) (f : Dev → Flit → Dev) : Dev :=
  if flitRow r.flit ≠ row && flitRow r.flit ≠ .none then d
  else match rxCheck d p r with
    | (d, some x) => if flitRow x = row then f d x else (rcvTake d p x).1
    | (d, none) => d

/-- An accepted IDLE: credit returns, and `NAK` for the flits after `ack` (R255, R258). -/
def idleTake (d : Dev) (p ack : Nat) (f : Flit) : Dev :=
  let d := takeCredits d p f.tsf
  if bit f.tsf 63 then takeNak d p ack else d

/-- Tree credits for the contributions of this port's sender to its parent (R277). -/
def tcredTake (d : Dev) (p : Nat) (f : Flit) : Dev :=
  let tn := fld f.tsf 55 44
  let t := tree d tn
  if !t.en || t.mcast || t.root || t.upPort ≠ p || fld f.tsf 43 37 = 0 || fld f.tsf 43 37 > 63 then rejectFlit d p 0
  else pumpTree (modTree d tn (fun t => { t with upCredit := t.upCredit + fld f.tsf 43 37 })) tn

/-- Receive an RCV and act on it. -/
def receiveRcv (d : Dev) (p : Nat) (r : RxFlit) (code : Nat) (f : Dev → Rcv → Dev) : Dev :=
  receive d p r (.rcv code) (fun d x => match rcvTake d p x with
    | (d, some y) => f d y
    | (d, none) => d)

/-- Ports of an entry's missing contributors, and whether their peers have stopped barking (R280). -/
def missingPorts (t : Tree) (e : AEntry) : List Nat := (portsOf t.down).filter (fun p => !e.got.contains p)

/-- The oldest entry of a tree that has waited `LEASH` beats: a silent peer is a stopped neighbour, else the task has a
fault. -/
def entryLeash (d : Dev) (tn : Nat) : Dev :=
  let t := tree d tn
  match (adder d t.adder).find? (fun e => e.tree == tn && !isDone t e && e.openBeat + t.leash ≤ beatNow d) with
  | none => d
  | some e =>
    match (missingPorts t e).find? (fun p => !(port d p).bark.alive) with
    | some p => report d (.neighbour (port d p).peerMod)
    | none => taskFault d e.kennel .lag

end Sys2Proof.Machine
end

