-- ==== Sys2Proof/Machine/PowerOps.lean ====
section
/-! DEFINITION. Rails, resets and BOOT (R438 to R451, R470), and the two commands that end a mailbox or the run of the
module after their reply. -/

namespace Sys2Proof.Machine

def modPower (d : Dev) (f : Power → Power) : Dev := { d with power := f d.power }

/-- An operation of a unit that is not on the standby island: in OFF nothing answers it (R440). What firmware and the
adders do at once follows it. -/
def powered (f : Dev → Dev) (d : Dev) : Dev := if d.dstate = .off then d else settle (f d)

/-! ### Reset (R470) -/

/-- Sensors of the standby island (R440). -/
def onBoard (id : Nat) : Bool := id == 1 || id == 2 || (27 ≤ id && id ≤ 31)

/-- Sensors after a reset at ECLK `now`: those of the standby island go on, the others start without a sample. -/
def resetSensors (now : Nat) (board : Bool) (t : Tbl Sensor) : Tbl Sensor :=
  (List.range 32).foldl (fun r id =>
    if id = 0 then r else Tbl.set {} r id (if board && onBoard id then Tbl.get {} t id else { last := if now = 0 then none else some now })) []

/-- Every unit at its reset value; what stays are the fuses, the boot image slots, the configuration epochs and the
retirement list, with the model's own clock, outputs and fresh counter, and the standby island. -/
def resetUnits (d : Dev) : Dev :=
  { out := d.out, fresh := d.fresh, eclk := d.eclk, timeOff := -((2 * d.eclk / 3 : Nat) : Int), fuses := d.fuses
    epochRun := d.epochRun, epochPrev := d.epochPrev, epochStaged := d.epochRun, cfgSeq := d.cfgSeq, slotA := d.slotA, slotB := d.slotB
    mdies := Tbl.mapAll {} d.mdies (fun _ m => { retiredF := m.retiredF, retiredG := m.retiredG }), retireSeq := d.retireSeq
    power := { d.power with selfRefresh := false }, sensors := resetSensors d.eclk true d.sensors
    mgmt := { d.mgmt with ethUp := false, ethSlow := false, ethSince := d.eclk, ip := none, ethDrop := 0 } }

/-- The numbers of every attached mailbox become free 1 ms later (R350). -/
def freeAll (d : Dev) : Tbl Nat := d.mbx.foldl (fun t z => if z.2.isSome then Tbl.set 0 t z.1 (d.eclk + 1) else t) d.mbxFreed

/-- BOOT with the rails up, from `MOD_RST_N` or DEV_RESET: the host ports and their functions keep their registers, every
mailbox detaches and an attach in progress is lost (Table 15-3, R470). -/
def resetModule (d : Dev) : Dev :=
  setDevChange { resetUnits d with
    mbxFreed := freeAll d, hports := d.hports, fns := Tbl.mapAll {} d.fns (fun _ f => { f with attaching := none }) }

/-! ### Rails (R442 to R444, Table 15-1) -/

/-- The step of a rail, numbered from 0 in the order of Table 15-1; the standby rails have step 0. -/
def railStep (r : Nat) : Nat := if r < 3 then 0 else if r < 4 then 1 else if r < 7 then 2 else if r < 10 then 3 else if r < 12 then 4 else if r < 14 then 5 else 6

/-- The window of a step in ECLK. -/
def railWindow (s : Nat) : Nat := match s with | 0 => ms 20 | 1 => ms 5 | 6 => ms 3 | _ => ms 2

/-- The rails may start: input and `PWR_EN` present, nothing latched, no power-down under way. -/
def mayStart (p : Power) : Bool := p.vinOk && p.standby && p.pwrEn && !p.latched && !p.inputOpen && !p.down && p.railsOn == 0

def startRails (d : Dev) : Dev :=
  if mayStart d.power then modPower d (fun p => { p with railsOn := 1, railsGood := 0, stepSince := d.eclk }) else d

/-- OFF is left for BOOT once the rails are good and `MOD_RST_N` is high (R447). -/
def leaveOff (d : Dev) : Dev := if d.power.good && !d.power.modRst && d.dstate = .off then { d with dstate := .boot } else d

def railStepGood (d : Dev) : Dev :=
  let p := d.power
  if p.down || p.railsOn = 0 || p.railsGood = p.railsOn then d
  else if p.railsOn < 6 then modPower d (fun p => { p with railsGood := p.railsOn, railsOn := p.railsOn + 1, stepSince := d.eclk })
  else leaveOff (modPower d (fun p => { p with railsGood := 6, good := true }))

/-! ### Power-down (R450, R451) -/

/-- Every UP port sends its last bark, with `HEALTH` GONE. -/
def lastBarks (d : Dev) : Dev :=
  if !barksSent d || (kennel d 0).cur.isNone then d
  else each (sendBarks d true) ((List.range 16).filter (barksOn d)) (fun d p =>
    match (port d p).link.q0 with
    | f :: _ => sendSeq d p 0 0 (stampBark f 0)
    | [] => d)

/-- Power goes down. The units stop, the last barks go out and, unless it is an emergency, both tiers enter self-refresh;
then the rails switch off, and what the units hold is lost with them (log 35). -/
def powerDown (d : Dev) (emergency : Bool) : Dev :=
  let d := if d.dstate = .off then d else { resetUnits (lastBarks d) with mbxFreed := freeAll d, dstate := .off }
  modPower d (fun p => { p with
    good := false, railsGood := 0, railsOn := if emergency then 0 else p.railsOn
    down := !emergency && p.railsOn > 0, selfRefresh := !emergency && p.railsOn > 0 })

/-- The next rail step switches off, in reverse order; with the last one the power-down ends. -/
def railOffStep (d : Dev) : Dev :=
  if !d.power.down then d
  else
    let d := modPower d (fun p => { p with railsOn := p.railsOn - 1 })
    if d.power.railsOn = 0 then startRails (modPower d (fun p => { p with down := false, selfRefresh := false })) else d

/-- A trip, a rail fault or the input current limit: latched (Table 15-3). -/
def emergencyDown (d : Dev) : Dev := modPower (powerDown d true) (fun p => { p with latched := true })

def logRail (d : Dev) (rail : Nat) : Dev := modPower d (fun p => { p with faultLog := p.faultLog ++ [rail] })

/-- A rail that has not reported power good by the end of its step's window (R442, R444). -/
def railFault (d : Dev) (rail : Nat) : Dev :=
  let p := d.power
  let s := railStep rail
  if s = 0 then (if p.vinOk && !p.standby then emergencyDown (logRail d rail) else d)
  else if !p.down && p.railsOn = s && p.railsGood < s && due d p.stepSince (railWindow s) then emergencyDown (logRail d rail)
  else d

def railPowerLoss (d : Dev) (rail : Nat) : Dev := if d.power.good then emergencyDown (logRail d rail) else d

/-! ### Input and pins (R439, R440, R446, R464) -/

def vinInRange (d : Dev) : Dev := startRails (modPower d (fun p => { p with vinOk := true, standby := true }))

/-- `PWR_EN` counts only while sensor 1 lies within 44.0 to 60.0 V (Table 15-10). -/
def enCounts (d : Dev) : Bool :=
  let x := Tbl.get {} d.sensors 1
  d.power.standby && !x.failed && (match x.filtered with | some v => decide (44000 ≤ v ∧ v ≤ 60000) | none => false)

def pwrEnRise (d : Dev) : Dev :=
  if !enCounts d then d else startRails (modPower d (fun p => { p with pwrEn := true, lowSince := none }))

def pwrEnFall (d : Dev) : Dev :=
  if !enCounts d || !d.power.pwrEn then d
  else
    let d := modPower d (fun p => { p with pwrEn := false, lowSince := some d.eclk })
    if d.power.down || d.power.railsOn = 0 then d else powerDown d false

/-- The input leaves its range: a power-down, and the standby island stops with what it holds (log 35). -/
def inputLoss (d : Dev) : Dev :=
  let d := powerDown d false
  { d with
    power := { d.power with vinOk := false, standby := false, faultLog := [] }
    mgmt := {}, sensors := resetSensors d.eclk false [] }

def inputOvercurrent (d : Dev) : Dev := modPower (emergencyDown d) (fun p => { p with inputOpen := true })

/-- A comparator of Table 15-6 trips: sensor 2 is the input current limit, sensors 4 to 26 and 31 start an emergency
power-down; the others have no trip of their own. -/
def sensorTrip (d : Dev) (id : Nat) : Dev :=
  if id = 2 then inputOvercurrent d else if (4 ≤ id && id ≤ 26) || id = 31 then emergencyDown d else d

/-- `PWR_EN` has been low for 100 ms. -/
def latchRelease (d : Dev) : Dev :=
  match d.power.lowSince with
  | some t => if due d t (ms 100) then modPower d (fun p => { p with latched := false, inputOpen := false }) else d
  | none => d

/-- `MOD_RST_N` goes low, or is released; a reset during a power-down is ignored (R451). -/
def modReset (d : Dev) (held : Bool) : Dev :=
  let e := modPower d (fun p => { p with modRst := held })
  if !held then leaveOff e
  else if d.dstate = .off then e
  else resetModule e

/-! ### BOOT (R447, R389 to R391, R421, R422, R449) -/

/-- The slot to boot (true: B), and whether the one marked to boot next has failed (R390). -/
def bootSlot (d : Dev) (b : BootIn) : Option (Bool × Bool) :=
  let ok (x : Bool) : Bool := (imgSlot d x).commit.isSome && verifies d (imgSlot d x) (if x then b.slotB else b.slotA)
  let seq (x : Bool) : Nat := match (imgSlot d x).commit with | some z => z.1 + 1 | none => 0
  let first := seq false < seq true
  if ok first then some (first, false) else if ok !first then some (!first, true) else none

/-- The units that have started stop, both tiers enter self-refresh, and the device is FAULTED (R455). -/
def bootLimit (d : Dev) (id : Nat) : Dev :=
  let d := each d (List.range 64) stopUnits
  enterFaulted (modPower d (fun p => { p with selfRefresh := true })) (devCause 1 id)

/-- Firmware writes each feeder's skew table from the repair record (R100). -/
def skewTables (d : Dev) : Dev :=
  each d ((List.range 48).filter (present d)) (fun d e =>
    modPair d e (fun p => { p with ope := { p.ope with bypRows := bypassedRows (repairRecord d e), bypCols := bypassedCols (repairRecord d e) } }))

/-- The phases of Table 15-4 from the memory phase on; a SAFE limit that is still met ends this BOOT as well. -/
def bootRest (d : Dev) (b : BootIn) : Dev :=
  match (b.limit.map (·.val)).or ((List.range 32).find? (fun id => (Tbl.get {} d.sensors id).safe)), b.memFail, b.selfTest.filter (fun e => e == 0xFFFF || present d e) with
  | some id, _, _ => bootLimit d id
  | none, some c, _ => enterFaulted d (devCause 7 c)
  | none, none, some e => enterFaulted d (devCause 2 e)
  | none, none, none =>
    let (n, d) := takeFresh d
    let d := { d with moduleKey := some (Config.freshKey n) }
    let d := skewTables d
    let d := applyEpoch d d.epochRun
    let d := if b.epochFails then rollback d (!b.prevFails) else d
    if d.dstate ≠ .boot then d
    else if d.epochRun.autoReady then reachReady (setDState d .ready 0)
    else setDState d .config 0

/-- BOOT runs to its end: it waits for the rails and for `MOD_RST_N`. -/
def boot (d : Dev) (b : BootIn) : Dev :=
  if d.dstate ≠ .boot || !d.power.good || d.power.modRst then d
  else match bootSlot d b with
    | none => enterFaulted d (devCause 3 0)
    | some (slot, fell) => bootRest { d with runningB := some slot, reachedReady := false, bootSecurity := fell } b

/-! ### Commands that act after their reply (R350, R470) -/

/-- A command without checks of its own, whose effect follows its reply. -/
def afterReply (d : Dev) (m code : Nat) (f : Dev → Dev) : Dev :=
  match inTurn d m code with
  | none => d
  | some (x, r) =>
    match scpCheck d code true nopCmd ⟨m, actsOn code x r, x, r⟩ with
    | some c => finish d m c 0 0 0
    | none => f (finish d m .ok 0 0 0)

def mbxDetachCmd (d : Dev) (m : Nat) : Dev := afterReply d m 0x04 (fun d => dropMbx d m 0 false)
def devResetCmd (d : Dev) (m : Nat) : Dev := afterReply d m 0x15 resetModule

end Sys2Proof.Machine
end

