-- ==== Sys2Proof/Machine/SensorOps.lean ====
section
/-! DEFINITION. Sensors, limits and the throttle (R452 to R458). -/

namespace Sys2Proof.Machine

def sensor (d : Dev) (id : Nat) : Sensor := Tbl.get {} d.sensors id
def modSensor (d : Dev) (id : Nat) (f : Sensor → Sensor) : Dev := { d with sensors := Tbl.modify {} d.sensors id f }

/-! ### Table 15-6 -/

/-- A sensor of a stack or of the far tier, whose limits lie lower than a die's. -/
def memorySensor (id : Nat) : Bool := 14 ≤ id && id ≤ 26
def tempSensor (id : Nat) : Bool := 4 ≤ id && id ≤ 26

/-- A sample within the valid range, in 1/1,000 of the unit; sensor 31 gives 0 for dry, 1 for wet. -/
def sampleOk (id : Nat) (v : Int) : Bool :=
  let within (lo hi : Int) : Bool := lo ≤ v && v ≤ hi
  match id with
  | 1 => within 0 80000
  | 2 => within 0 100000
  | 3 => within 0 8000000
  | 27 | 28 => within (-10000) 100000
  | 29 => within 0 20000
  | 30 => within 0 1000000
  | 31 => within 0 1
  | _ => within (-40000) 150000

/-- Timeout in ECLK; the leak detector has none. -/
def sensorTimeout (id : Nat) : Option Nat :=
  if id = 0 || id = 31 then none else if id ≤ 3 then some (us 100) else if id ≤ 25 then some (ms 10) else if id = 26 then some (ms 100) else some (ms 1000)

/-- Samples that the filter takes. -/
def filterLen (id : Nat) : Nat := if id ≤ 3 then 4 else if id ≤ 26 then 3 else 10

def mean (l : List Int) : Int := if l.isEmpty then 0 else l.foldl (· + ·) 0 / (l.length : Int)

def filterValue (id : Nat) (w : List Int) : Int :=
  if tempSensor id then median w
  else if id = 31 then (if w.length = 10 && w.all (· == 1) then 1 else 0)
  else mean w

def warnAt (id : Nat) (v : Int) : Bool :=
  match id with
  | 1 => v < 45000 || v > 59000
  | 2 => v > 56000
  | 3 => false
  | 27 => v > 40000
  | 28 => v > 55000
  | 29 => v < 3500
  | 30 => v > 300000
  | 31 => false
  | _ => v > (if memorySensor id then 85000 else 95000)

def throttleLimit (id : Nat) : Int := if memorySensor id then 90000 else 100000
def throttleAt (id : Nat) (v : Int) : Bool := tempSensor id && v > throttleLimit id

def safeAt (id : Nat) (v : Int) : Bool :=
  match id with
  | 1 => v < 44000 || v > 60000
  | 27 => v > 45000
  | 28 => v > 60000
  | 29 => v < 2500
  | 30 => v > 400000
  | _ => tempSensor id && v > (if memorySensor id then 95000 else 105000)

/-- How long a reading lies beyond its SAFE threshold before the limit is met. -/
def safeHold (id : Nat) : Nat := match id with | 1 => ms 10 | 29 => ms 2000 | _ => 0

/-- The sensor has a SAFE threshold of its own in the table. -/
def hasSafe (id : Nat) : Bool := id == 1 || tempSensor id || (27 ≤ id && id ≤ 30)

/-- The standby island watches its own sensors while it runs, firmware the others outside OFF and BOOT (R455, log 36). -/
def watched (d : Dev) (id : Nat) : Bool :=
  id != 0 && (if onBoard id then d.power.standby else d.dstate != .off && d.dstate != .boot)

/-! ### Crossings (R454, R455) -/

/-- Channels of what the module answers: MCTP control, PLDM, SPDM over MCTP, and Ethernet. -/
def chMctp : Nat := 0
def chPldm : Nat := 1
def chSpdm : Nat := 5
def chEth : Nat := 0x100

/-- Send a response on MCTP; an in-band interrupt announces it (R465). -/
def respond (d : Dev) (ch : Nat) (bs : List Byte) : Dev := if d.power.standby then emit d (.mgmt ch bs) else d

/-- BOOT has ended (R466). -/
def bootEnded (d : Dev) : Bool := d.dstate != .off && d.dstate != .boot

/-- A crossing of a sensor at a level: the `POWER_LIMIT` event (R454), and the PLDM platform event message that carries the same (R466). -/
def powerLimit (d : Dev) (id level : Nat) (v : Int) : Dev :=
  let d := if onBoard id || bootEnded d then respond d chPldm (Config.pldmEvent id level v) else d
  raise d (evPowerLimit (put 64 0 id ||| put 64 16 level) ((BitVec.ofInt 32 v).setWidth 64))

/-- A SAFE limit: SAFE outside BOOT, FAULTED in it. -/
def safeLimit (d : Dev) (id : Nat) : Dev := if d.dstate = .boot then bootLimit d id else enterSafe d (devCause 1 id)

/-- Store what a judgement found, and raise the levels that it crossed upwards. -/
def cross (d : Dev) (id : Nat) (v : Int) (w t s : Bool) : Dev :=
  let was := sensor d id
  let d := modSensor d id (fun x => { x with
    warn := w, throttle := t, safe := s, held := x.held || w || t || s
    calm := if w then none else some (x.calm.getD d.eclk) })
  let d := if w && !was.warn then powerLimit d id 1 v else d
  let d := if t && !was.throttle then powerLimit d id 2 v else d
  if s && !was.safe then safeLimit (powerLimit d id 3 v) id else d

/-- Judge a sensor's filtered reading against the thresholds of the table; a failed sensor counts as beyond its SAFE limit
(R452). Sensor 3 is judged at the boundaries of the throttle. -/
def judge (d : Dev) (id : Nat) : Dev :=
  if id = 3 then d
  else
    let x := sensor d id
    let v := x.filtered.getD 0
    let bad := x.failed && hasSafe id
    let past := !x.failed && safeAt id v
    let since := if past then some (x.beyond.getD d.eclk) else none
    let d := modSensor d id (fun x => { x with beyond := since })
    let held := match since with | some t => due d t (safeHold id) | none => false
    cross d id v (bad || (!x.failed && warnAt id v)) ((bad && tempSensor id) || (!x.failed && throttleAt id v)) (bad || held)

/-- A sample: range check, filter, limits. Samples of sensor 3 also enter the present 100 µs of the throttle. -/
def sensorSample (d : Dev) (id : Nat) (v : Int) : Dev :=
  if !watched d id then d
  else if !sampleOk id v then judge (modSensor d id (fun x => { x with failed := true, last := some d.eclk })) id
  else
    let d := modSensor d id (fun x =>
      let w := keepLast (filterLen id) x.window v
      { x with failed := false, last := some d.eclk, window := w, filtered := some (filterValue id w) })
    let d := if id = 3 then { d with thr := { d.thr with sum := d.thr.sum + v, count := d.thr.count + 1 } } else d
    judge d id

/-- A sample is missing once the timeout has passed. -/
def sensorLate (d : Dev) (id : Nat) : Dev :=
  match sensorTimeout id with
  | none => d
  | some t =>
    if watched d id && due d ((sensor d id).last.getD 0) t then judge (modSensor d id (fun x => { x with failed := true })) id else d

/-- Ten seconds on the safe side of the warn threshold clear a limit. -/
def limitCleared (d : Dev) (id : Nat) : Dev :=
  let x := sensor d id
  match x.calm with
  | some t =>
    if x.held && !x.failed && due d t (ms 10000) then
      powerLimit (modSensor d id (fun x => { x with held := false })) id 4 (x.filtered.getD 0)
    else d
  | none => d

/-! ### The throttle (R456, R457) -/

def modThr (d : Dev) (f : Throttle → Throttle) : Dev := { d with thr := f d.thr }

/-- The level: the highest request, and since when it is 6. -/
def setLevel (d : Dev) : Dev :=
  let t := d.thr
  let l := max (max t.long t.short) (max t.hard t.thermal)
  { modThr d (fun t => { t with sixSince := if l = 6 then some (t.sixSince.getD d.eclk) else none }) with throttle := l }

def powerFailed (d : Dev) : Bool := (sensor d 3).failed
/-- Means of input power over 10 ms and over 1 s, in 1/1,000 W. -/
def mean10 (t : Throttle) : Int := mean t.means
def mean1s (t : Throttle) : Int := mean t.longMeans

/-- Both means exceed 2,800 W; a failed sensor 3 counts as beyond both power limits. -/
def shortOver (d : Dev) (m : Int) : Bool := powerFailed d || (mean10 d.thr > 2800000 && m > 2800000)
def longOver (d : Dev) : Bool := powerFailed d || (mean1s d.thr > 1000 * d.thr.cap && mean10 d.thr > 1000 * d.thr.cap)

/-- A 100 µs boundary. -/
def throttleUpdate (d : Dev) : Dev :=
  let m := if d.thr.count = 0 then d.thr.means.getLast?.getD 0 else d.thr.sum / (d.thr.count : Int)
  let d := modThr d (fun t => { t with sum := 0, count := 0, means := keepLast 100 t.means m, hard := if m > 3000000 then 4 else 0 })
  let up := shortOver d m
  setLevel (modThr d (fun t => { t with short := if up then min 6 (t.short + 1) else t.short, powerRose := t.powerRose || up }))

/-- Sensors above their throttle threshold, and whether every one lies at least 3 °C below it. -/
def hotSensors (d : Dev) : List Nat := (List.range 27).filter (fun id => tempSensor id && (sensor d id).throttle)
def allCool (d : Dev) : Bool :=
  (List.range 27).all (fun id => !tempSensor id || (!(sensor d id).failed && (match (sensor d id).filtered with | some v => v ≤ throttleLimit id - 3000 | none => true)))

/-- A 10 ms boundary: the new cap, the long request, the falls of the short one, the thermal request; and the warn limit of
sensor 3, whose throttle level is that of a power request that rises. -/
def throttleWindow (d : Dev) : Dev :=
  let d := modThr d (fun t => { t with cap := t.capNext.getD t.cap, capNext := none, longMeans := keepLast 100 t.longMeans (mean10 t) })
  let t := d.thr
  let long := longOver d
  let short := shortOver d (t.means.getLast?.getD 0)
  let hot := (hotSensors d).length
  let d := modThr d (fun t => { t with
    long := if long then min 6 (t.long + 1) else if mean10 t < 950 * t.cap then t.long - 1 else t.long
    short := if !short && mean10 t < 2660000 then t.short - 1 else t.short
    thermal := if hot > 0 then min 6 (t.thermal + hot) else if allCool d then t.thermal - 1 else t.thermal
    powerRose := long || short
    thermalRose := hot > 0 })
  setLevel (cross d 3 (mean1s t) (powerFailed d || mean1s t > 1000 * t.cap) (long || short) ((sensor d 3).safe && d.thr.sixSince.isSome))

/-- Level 6 for 1 s with a request still rising: the SAFE limit of sensor 3, or of a sensor above its throttle threshold. -/
def throttleSafe (d : Dev) : Dev :=
  match d.thr.sixSince with
  | none => d
  | some t =>
    if !due d t (ms 1000) then d
    else
      let ids := (if d.thr.powerRose then [3] else []) ++ (if d.thr.thermalRose then hotSensors d else [])
      each d ids (fun d id =>
        let x := sensor d id
        cross d id (if id = 3 then mean1s d.thr else x.filtered.getD 0) x.warn x.throttle true)

/-- `ALERT_N` is low (Table 15-8). -/
def alertLow (d : Dev) : Bool := d.throttle > 0 || d.dstate == .safe || d.sensors.any (fun z => z.2.warn || z.2.throttle || z.2.safe)

end Sys2Proof.Machine
end

