-- ==== Sys2Proof/Machine/MgmtOps.lean ====
section
/-! DEFINITION. The management ports: MCTP, PLDM and the management Ethernet port (R465 to R468). -/

namespace Sys2Proof.Machine

def modMgmt (d : Dev) (f : Mgmt → Mgmt) : Dev := { d with mgmt := f d.mgmt }

/-! ### PLDM (R466) -/

/-- A completion code of DSP0240: 0x00 SUCCESS, 0x01 ERROR. -/
def pldmOk : List Byte := [0]
def pldmErr : List Byte := [1]
/-- The sensor's operational state of DSP0248 that says unavailable, after SUCCESS (PRESUMED, log 37). -/
def pldmUnavailable : List Byte := [0, 4]

/-- What a sensor reads: a numeric sensor's reading in 1/1,000 of its unit, or a state sensor's state; none: unavailable. -/
def sensorValue (d : Dev) (id : Nat) : Option (List Byte) :=
  if 1 ≤ id && id ≤ 31 then
    if !(onBoard id || bootEnded d) || (sensor d id).failed then none
    else if id = 3 then some (leBytes 4 ((BitVec.ofInt 32 (mean1s d.thr)).toNat))
    else (sensor d id).filtered.map (fun v => leBytes 4 ((BitVec.ofInt 32 v).toNat))
  else match id with
  | 32 => if bootEnded d then some [BitVec.ofNat 8 d.dstate.code] else none
  | 33 => if bootEnded d then some [BitVec.ofNat 8 d.time.tstate.code] else none
  | 34 => some (d.power.faultLog.map (BitVec.ofNat 8))
  | 35 => if bootEnded d then some (leBytes 4 d.mgmt.mctpDrop.toNat ++ leBytes 4 d.mgmt.ethDrop.toNat) else none
  | _ => none

def knownSensor (id : Nat) : Bool := 1 ≤ id && id ≤ 35

def pldmGetSensor (d : Dev) (id : Nat) : Dev :=
  if !knownSensor id then respond d chPldm pldmErr
  else match sensorValue d id with
    | some v => respond d chPldm (pldmOk ++ v)
    | none => respond d chPldm pldmUnavailable

/-- Numeric effecter 1, the power cap; it answers once BOOT has ended. -/
def pldmSetEffecter (d : Dev) (watts : Nat) : Dev :=
  if !bootEnded d || watts < 1200 || watts > 2400 then respond d chPldm pldmErr
  else respond (modThr d (fun t => { t with capNext := some watts })) chPldm pldmOk

/-- FRU records: part, grade, stepping, serial, presence map and MAC address. -/
def pldmFruRead (d : Dev) : Dev :=
  respond d chPldm (pldmOk ++ leBytes 2 0x3024 ++ leBytes 1 d.fuses.grade ++ leBytes 1 0xB0 ++ leBytes 8 d.fuses.serial.toNat
    ++ leBytes 6 d.fuses.presence.toNat ++ leBytes 6 d.fuses.mac.toNat)

/-! ### PLDM firmware update (R467) -/

def pldmRequestUpdate (d : Dev) : Dev :=
  if !bootEnded d || heldByOther d .pldm then respond d chPldm pldmErr
  else respond { d with holder := some (.pldm, d.eclk) } chPldm pldmOk

def pldmHolds (d : Dev) : Bool := match d.holder with | some z => z.1 == .pldm | none => false

def pldmFirmwareData (d : Dev) (ofs : Nat) (bs : List Byte) : Dev :=
  if pldmHolds d && bootEnded d then writeImage d .pldm ofs bs else d

def pldmCancelUpdate (d : Dev) : Dev := if pldmHolds d then respond { d with holder := none } chPldm pldmOk else respond d chPldm pldmErr

/-- Activation follows IMG_ACTIVATE: only in CONFIG, and the slot must verify. -/
def pldmActivate (d : Dev) (c : ImgCheck) : Dev :=
  if d.dstate ≠ .config || !pldmHolds d || !verifies d (imgSlot d (inactiveB d)) c then respond d chPldm pldmErr
  else respond (activateImage d) chPldm pldmOk

/-! ### MCTP (R465) -/

def i3cAssign (d : Dev) (a : Nat) : Dev := if d.power.standby then modMgmt d (fun g => { g with i3cAddr := some a }) else d
def mctpSetEid (d : Dev) (e : Nat) : Dev :=
  if d.power.standby then respond (modMgmt d (fun g => { g with eid := e })) chMctp pldmOk else d

def mctpDropped (d : Dev) : Dev := modMgmt d (fun g => { g with asm := none, mctpDrop := inc g.mctpDrop })

/-- Message types that the endpoint carries. -/
def mctpKnown (t : Nat) : Bool := t == 0 || t == 1 || t == 5 || t == 6

/-- A whole message: its response, whose bytes the standards give (log 7). MCTP control, and PLDM for the standby island's
items, are answered at any time; SPDM and secured messages by the security core, which refuses a plain SPDM request of a code
that R392 does not list. -/
def mctpMessage (d : Dev) (kind : Nat) (bs : List Byte) : Dev :=
  let (n, d) := takeFresh d
  if kind = 5 || kind = 6 then (if d.dstate = .off then d else respond d chSpdm
    (if kind = 6 || spdmSupported (spdmCode bs) then Config.spdmResponse n (if kind = 6 then bs else spdmInput d bs) else spdmUnsupported (spdmCode bs)))
  else respond d (if kind = 0 then chMctp else chPldm) (Config.pldmResponse n bs)

/-- A packet: a start drops a message under way; a packet that continues none is dropped. -/
def mctpPacket (d : Dev) (p : MctpPkt) : Dev :=
  if !d.power.standby then d
  else if !p.pecOk then modMgmt d (fun g => { g with mctpDrop := inc g.mctpDrop })
  else if p.som && !mctpKnown p.kind then modMgmt d (fun g => { g with mctpDrop := inc g.mctpDrop })
  else
    let d := if p.som && d.mgmt.asm.isSome then mctpDropped d else d
    let cur : Option Asm := if p.som then some ⟨p.kind, p.tag, [], d.eclk⟩
      else match d.mgmt.asm with | some a => if a.tag = p.tag then some a else none | none => none
    match cur with
    | none => modMgmt d (fun g => { g with mctpDrop := inc g.mctpDrop })
    | some a =>
      let a := { a with bytes := a.bytes ++ p.bytes }
      if a.bytes.length > 4096 then mctpDropped d
      else if p.eom then mctpMessage (modMgmt d (fun g => { g with asm := none })) a.kind a.bytes
      else modMgmt d (fun g => { g with asm := some a })

def mctpTimeout (d : Dev) : Dev :=
  match d.mgmt.asm with
  | some a => if due d a.since (ms 100) then mctpDropped d else d
  | none => d

/-! ### The management Ethernet port (R468) -/

def ethLinkLock (d : Dev) (slow : Bool) : Dev :=
  if d.mgmt.ethUp || d.mgmt.ethSlow ≠ slow then d else modMgmt d (fun g => { g with ethUp := true, ethSince := d.eclk })

def ethSeekTimeout (d : Dev) : Dev :=
  if d.mgmt.ethUp || !due d d.mgmt.ethSince (ms 500) then d
  else modMgmt d (fun g => { g with ethSlow := !g.ethSlow, ethSince := d.eclk })

/-- 100 ms without lock: the link is down and seeking begins with 10GBASE-R. -/
def ethLockLoss (d : Dev) : Dev :=
  if d.mgmt.ethUp then modMgmt d (fun g => { g with ethUp := false, ethSlow := false, ethSince := d.eclk }) else d

/-- A frame: PTP, ARP and DHCPv4 are served, every other one is discarded and counted. The contents of a PTP message reach
the time unit through the PTP commands. -/
def ethFrame (d : Dev) (f : Frame) : Dev :=
  if !d.mgmt.ethUp then d
  else match f with
    | .badFcs | .pause | .other => modMgmt d (fun g => { g with ethDrop := inc g.ethDrop })
    | .ptp _ => d
    | .arp target => if d.mgmt.ip = some target then emit d (.mgmt chEth (leBytes 6 d.fuses.mac.toNat ++ leBytes 4 target.toNat)) else d
    | .dhcp ip => modMgmt d (fun g => { g with ip := some ip })

end Sys2Proof.Machine
end

