-- ==== Sys2Proof/Machine/ClockOps.lean ====
section
/-! DEFINITION. Timeouts of the time unit, its 1PPS output, and the beat boundary (R314 to R336, R221, R226). -/

namespace Sys2Proof.Machine

/-! ### Timeouts of Table 10-2 -/

def delayReqSend (d : Dev) : Dev :=
  if timeSrc d = 2 || d.time.delayReq.isSome || d.time.masters.isEmpty || !d.mgmt.ethUp then d
  else emit (modTime d (fun t => { t with delayReq := some d.eclk })) (.ptp 1)

/-- 1 s after its Delay_Req, the sample is dropped. -/
def delayReqTimeout (d : Dev) : Dev :=
  match d.time.delayReq with
  | some t => if due d t (ms 1000) then modTime d (fun u => { u with delayReq := none }) else d
  | none => d

/-- No accepted sample for four sync intervals. -/
def syncTimeout (d : Dev) : Dev :=
  match d.time.lastSync with
  | some t =>
    if timeSrc d ≠ 2 && due d t (4 * d.time.syncInt) then loseReference (modTime d (fun u => { u with lastSync := none })) else d
  | none => d

/-- A master without Announce for three intervals is lost; with no other, so is the reference. -/
def announceTimeout (d : Dev) : Dev :=
  let left := d.time.masters.filter (fun m => !due d m.since (3 * logEclk m.interval))
  if left.length = d.time.masters.length then d
  else
    let d := modTime d (fun u => { u with masters := left })
    if left.isEmpty && timeSrc d ≠ 2 then loseReference (modTime d (fun u => { u with lastSync := none })) else d

/-- 1.5 s without a valid edge. -/
def ppsTimeout (d : Dev) : Dev :=
  match d.time.lastPps with
  | some t =>
    if !due d t (ms 1500) then d
    else
      let d := modTime d (fun u => { u with ppsOk := false, lastPps := none, lastPpsTime := none })
      if timeSrc d = 1 then loseReference d else d
  | none => d

/-- 16 beats without an accepted timing sample from `PARENT`. -/
def parentTimeout (d : Dev) : Dev :=
  match d.time.lastBark with
  | some b => if timeSrc d = 2 && b + 16 ≤ beatNow d then loseReference (modTime d (fun u => { u with lastBark := none })) else d
  | none => d

/-- HOLDOVER beyond `HOLD_MAX` (R318). -/
def holdoverExpiry (d : Dev) : Dev :=
  if d.time.tstate ≠ .holdover || !due d d.time.holdSince (ms (100 * holdMax d)) then d
  else
    let d := setTState (modTime d (fun t => { t with holdExpired := true })) .freerun
    each d (taskKeys d (fun t => t.st.active)) (fun d k => taskFault d k .moduleLost)

/-! ### The 1PPS output (R321) -/

/-- The output rises at a whole second of `TIME_NOW`, in LOCKED and HOLDOVER. -/
def ppsOutput (d : Dev) : Dev :=
  if ppsOutEn d && barksSent d && timeNow d / 1000000000 * 1000000000 + beatPeriod d > timeNow d then
    modTime d (fun t => { t with ppsOut := true, ppsSince := d.eclk })
  else d

/-- It falls after 100 ms, and at once in FREERUN and ACQUIRING. -/
def ppsFall (d : Dev) : Dev :=
  if d.time.ppsOut && (!barksSent d || !ppsOutEn d || due d d.time.ppsSince (ms 100)) then modTime d (fun t => { t with ppsOut := false }) else d

/-! ### The beat boundary (R324) -/

/-- Unit lag of a slot at the boundary of beat b (R332). -/
def slotLagAt (x : SSlot) (b : Nat) : Nat :=
  match x.act with
  | some a => if !a.waiting && planEnd a < b then max x.lag (b - planEnd a) else x.lag
  | none => x.lag

/-- Every unit updates its lag. -/
def unitLags (d : Dev) : Dev :=
  let b := beatNow d
  { d with
    pairs := Tbl.mapAll {} d.pairs (fun _ p => { p with seq := { p.seq with lag := seqLagAt p.seq b }, ve := { p.ve with lag := veLagAt p.ve b } })
    ses := Tbl.mapAll {} d.ses (fun _ e => { e with slots := Tbl.mapAll {} e.slots (fun _ x => { x with lag := slotLagAt x b }) }) }

/-- The greatest unit lag of a kennel's units (R333). -/
def moduleLag (d : Dev) (k : Nat) : Nat :=
  let ps := (d.pairs.filter (fun z => pairKennel d z.1 == k)).map (fun z => max z.2.seq.lag z.2.ve.lag)
  let ss := d.ses.flatMap (fun z => (z.2.slots.filter (fun q => slotHeld k q.2)).map (fun q => q.2.lag))
  (ps ++ ss).foldl max 0

/-- The lag budget in force, and its check in RUNNING and STOPPING (R334, R335). -/
def lagCheck (d : Dev) (k : Nat) : Dev :=
  let budget := (kennel d k).quota.lagBudget
  let d := modTask d k (fun t =>
    let l := moduleLag d k
    { t with lag := l, oldBudget := if l ≤ budget then none else t.oldBudget })
  match task d k with
  | none => d
  | some t =>
    if (t.st = .running || t.st = .stopping) && t.lag > t.oldBudget.getD budget then
      taskFault (modTime d (fun u => { u with lagAbortCnt := inc u.lagAbortCnt })) k .lag
    else d

/-- Items of the hint list of a task: beat, tensor and entry (log 8). -/
def hintItems (t : Task) : List (Nat × Nat × DWord) := (t.items 0x0A).map (fun w => (nth w 0, nth w 1 % 65536, nthW w 2))

/-- Firmware applies the updates that the active tasks' hint lists name for the next beat, so that they are in force before its
boundary (R235). -/
def hintLists (d : Dev) : Dev :=
  each d (taskKeys d (fun t => t.st.active)) (fun d k => match task d k with
    | some t => each d ((hintItems t).filter (fun z => z.1 == beatNow d + 1)) (fun d z => setHint d z.2.1 z.2.2)
    | none => d)

/-- ECLK of the next beat boundary; before `TIME_ORIGIN` the clock moves by a beat period at a time, up to the boundary of beat 0. -/
def nextBoundary (d : Dev) : Nat :=
  if timeNow d < d.time.origin.toNat then min (d.eclk + 3 * beatPeriod d / 2) (max (d.eclk + 1) (beatEclk d 0))
  else max (d.eclk + 1) (beatEclk d (beatNow d + 1))

/-- The clock moves on to the next beat boundary (log 34). -/
def beatBoundary (d : Dev) : Dev :=
  let d := ppsFall { d with eclk := nextBoundary d }
  if d.dstate = .off || timeNow d < d.time.origin.toNat then d
  else
    let d := each (unitLags d) (taskKeys d (fun t => t.st.active)) lagCheck
    let d := each (sendBarks d false) (List.range 16) missBark
    hintPromotions (hintLists d)

/-! ### Waits for a frame (R226) -/

/-- Who waits 16 beats for a frame while none is free or has been freed ends: a slot's descriptor with SC_QUOTA, and the task with
it. -/
def frameTimeout (d : Dev) (k pg : Nat) : Dev :=
  let key := pageKey k pg
  let m := (page d k pg).home
  let freed (w : MemWait) : Bool := match (mdie d m).freedAt with | some t => decide (w.since ≤ t) | none => false
  let old (w : MemWait) : Bool := waitKey w == key && due d w.since (16 * beatPeriod d * 3 / 2) && !freed w
  if !((page d k pg).st == .zero || (page d k pg).st == .far) || frameReady d m k then d
  else
    let late := d.waits.filter old
    let d := { d with waits := d.waits.filter (fun w => !old w) }
    each d late (fun d w => match w.by' with
      | .stream n s => endDesc d n s .quota
      | _ => taskEnding d w.kennel .quota)

end Sys2Proof.Machine
end

