-- ==== Sys2Proof/Machine/Flags.lean ====
section
/-! DEFINITION. Register fields without a behaviour of their own: stored, cleared by writing one, or ignored (R13), and host
writes to a function's BAR (R427, R428). -/

namespace Sys2Proof.Machine

/-- A W1C flag after a write of `v`. -/
def w1c (flag : Bool) (v : DWord) (i : Nat) : Bool := flag && !bit v i

def opeStatusWrite (d : Dev) (e : Nat) (v : DWord) : Dev :=
  modPair d e (fun p => { p with ope := { p.ope with ovfFinal := w1c p.ope.ovfFinal v 8, parityErr := w1c p.ope.parityErr v 7 } })

def seqStatusWrite (d : Dev) (e : Nat) (v : DWord) : Dev :=
  modPair d e (fun p => { p with seq := { p.seq with refused := w1c p.seq.refused v 11, halted := w1c p.seq.halted v 10, cfgErr := w1c p.seq.cfgErr v 9 } })

def veStatusWrite (d : Dev) (e : Nat) (v : DWord) : Dev :=
  modPair d e (fun p => { p with ve := { p.ve with
    refused := w1c p.ve.refused v 11, halted := w1c p.ve.halted v 10, cfgErr := w1c p.ve.cfgErr v 9, xlimit := w1c p.ve.xlimit v 8 } })

def hqStatusWrite (d : Dev) (q : Nat) (v : DWord) : Dev :=
  modHq d q (fun x => { x with fullSeen := w1c x.fullSeen v 9, denied := w1c x.denied v 8 })

def portStatusWrite (d : Dev) (p : Nat) (v : DWord) : Dev :=
  modPort d p (fun x => { x with degraded := w1c x.degraded v 35, rejected := w1c x.rejected v 34, lateF := w1c x.lateF v 33, retryF := w1c x.retryF v 32 })

def timeStatusWrite (d : Dev) (v : DWord) : Dev :=
  modTime d (fun t => { t with stepped := w1c t.stepped v 59, holdExpired := w1c t.holdExpired v 58, inputRej := w1c t.inputRej v 57 })

/-- `MIG_CONFIG`: a value that R223 refuses changes nothing; a new watermark may start demotions (R222). -/
def migConfigWrite (d : Dev) (m : Nat) (v : DWord) : Dev :=
  if migRange v then d else watermarkCheck (modMdie d m (fun x => { x with cfg := accWrite migRw 0 x.cfg v })) m

/-- The access at an offset of the BAR has a size and alignment that R428 admits. -/
def barOk (ofs size : Nat) : Bool :=
  (size == 8 && ofs % 8 == 0) || (size == 4 && ofs % 4 == 0 && 0x20000 ≤ ofs && ofs < 0x28100)

/-- Registers whose every field is read-only. -/
def barReadOnly (ofs : Nat) : Bool :=
  [0x0, 0x8, 0x10, 0x18, 0x1010, 0x1018, 0x1020].contains ofs || (0x28000 ≤ ofs && ofs < 0x28100)

/-- A write of part of an MSI-X table entry. -/
def tableWrite (d : Dev) (p n ofs size : Nat) (v : DWord) : Dev :=
  let lo := 8 * ((ofs - 0x20000) % 16)
  let ix := (ofs - 0x20000) / 16
  let old := msixEntry (fn d p n) ix
  let new := (old &&& ~~~(mask 128 (lo + 8 * size - 1) lo)) ||| put 128 lo (v.toNat % 2 ^ (8 * size))
  unmask d p n (.entry (BitVec.ofNat 11 ix) new)

/-- A host write to a BAR (R427, R428). -/
def barWrite (d : Dev) (p n ofs size : Nat) (v : DWord) : Dev :=
  if !fnExists d p n then d
  else if !barOk ofs size then setWrDrop d p n
  else if barReadOnly ofs then d
  else if ofs = 0x1000 then fnStatusWrite d p n v
  else if ofs = 0x1008 then fnIntCtrlWrite d p n v
  else if ofs = 0x2000 then attachDb d p n v
  else if 0x10000 ≤ ofs ∧ ofs < 0x18000 then mbxDb d p n ((ofs - 0x10000) / 8) v
  else if 0x20000 ≤ ofs ∧ ofs < 0x28000 then tableWrite d p n ofs size v
  else setWrDrop d p n

/-- What the configuration space of a function holds by Table 14-1 (R423). -/
structure PciConfig where
  vendor : Nat := 0x1F4C
  device : Nat
  revision : Nat := 0xB0
  classCode : Nat := 0x120000
  subVendor : Nat := 0x1F4C
  subDevice : Nat
  headerType : Nat := 0
  barBytes : Nat := 262144
  vectors : Nat := 2048
  maxPayload : Nat := 512
  maxReadRequest : Nat := 4096
  serial : DWord
  totalVfs : Nat := 64
  firstVf : Nat := 1
  vfStride : Nat := 1
deriving DecidableEq, Repr

/-- The configuration of function n: 0 for the physical function of a port, else its virtual function n. -/
def pciConfig (d : Dev) (n : Nat) : PciConfig :=
  { device := if n = 0 then 0x3024 else 0x3025, subDevice := if d.fuses.grade = 0x41 then 0x0A24 else 0x0B24, serial := d.fuses.serial }

/-- `ID_FUNC` of a function (Table 14-4). -/
def idFunc (d : Dev) (p n : Nat) : DWord := put 64 14 (idModule d) ||| put 64 8 0x3F ||| put 64 7 p ||| put 64 0 n

/-- The eight bytes at an aligned offset of a function's BAR (Table 14-3); doorbells and unassigned offsets read as zero (R13, R427,
R435). -/
def barReg (d : Dev) (p n ofs : Nat) : DWord :=
  let f := fn d p n
  if ofs = 0x0 then idPart d
  else if ofs = 0x8 then idPresence d
  else if ofs = 0x10 then d.fuses.serial
  else if ofs = 0x18 then idFunc d p n
  else if ofs = 0x1000 then fnStatus d p n
  else if ofs = 0x1008 then f.intCtrl
  else if ofs = 0x1010 then f.wrDropCnt.setWidth 64
  else if ofs = 0x1018 then f.attachCnt.setWidth 64
  else if ofs = 0x1020 then f.devChangeCnt.setWidth 64
  else if 0x20000 ≤ ofs ∧ ofs < 0x28000 then (msixEntry f ((ofs - 0x20000) / 16) >>> (8 * ((ofs - 0x20000) % 16))).setWidth 64
  else if 0x28000 ≤ ofs ∧ ofs < 0x28100 then
    (f.pend.filter (fun v => v / 64 == (ofs - 0x28000) / 8)).foldl (fun w v => w ||| putB 64 (v % 64) true) 0
  else 0

/-- What a host's read of a BAR returns: the addressed bytes of an aligned access of 4 or 8 bytes, and zero for any other (R428). It
changes nothing, so that no command stands for it. -/
def barRead (d : Dev) (p n ofs size : Nat) : DWord :=
  if !fnExists d p n then 0
  else if size = 8 ∧ ofs % 8 = 0 then barReg d p n ofs
  else if size = 4 ∧ ofs % 4 = 0 then (barReg d p n (ofs / 8 * 8) >>> (8 * (ofs % 8))) &&& mask 64 31 0
  else 0

/-- The engine pair whose register a write names. -/
def regPair (r : Reg) : Option Nat :=
  match r with
  | .opeStatus e | .seqConfig e | .seqStatus e | .seqBeat0 e | .veConfig e | .veStatus e | .veBeat0 e => some e.val
  | _ => none

/-- A write to a register: `START` and `ABORT`, `EN` and `RETRAIN` have commands of their own and are not triggered here. -/
def regWrite (d : Dev) (r : Reg) (v : DWord) : Dev :=
  match r with
  | .opeStatus e => opeStatusWrite d e.val v
  | .seqConfig e => modPair d e.val (fun p => { p with seq := { p.seq with cfg := accWrite seqRw 0 p.seq.cfg v } })
  | .seqStatus e => seqStatusWrite d e.val v
  | .seqBeat0 e => modPair d e.val (fun p => { p with seq := { p.seq with beat0 := v } })
  | .veConfig e => modPair d e.val (fun p => { p with ve := { p.ve with cfg := accWrite veRw 0 p.ve.cfg v } })
  | .veStatus e => veStatusWrite d e.val v
  | .veBeat0 e => modPair d e.val (fun p => { p with ve := { p.ve with beat0 := v } })
  | .hqStatus q => hqStatusWrite d q.toNat v
  | .portConfig p => modPort d p.toNat (fun x => { x with cfg := accWrite (mask 64 61 43) 0 x.cfg v })
  | .portKennels p => writeKmask d p.toNat v
  | .portStatus p => portStatusWrite d p.toNat v
  | .migConfig m => migConfigWrite d m.toNat v
  | .timeStatus => timeStatusWrite d v
  | .bar p n ofs size => barWrite d p.val n.val ofs.toNat size.toNat v
  | .readOnly => d

end Sys2Proof.Machine
end

