-- ==== Sys2Proof/Machine/Run.lean ====
section
/-! DEFINITION. How a command becomes an outcome: its operation on the device, then what firmware and the adders do at
once. -/

namespace Sys2Proof.Machine

/-- A command of a unit that has no power in OFF (R440). -/
def run (f : Dev → Dev) (s : State) : Host.Outcome State Fault Refusal := .next { s with d := powered f s.d }

/-- A command of the board, the standby island or the clock: it acts in OFF as well. -/
def runBoard (f : Dev → Dev) (s : State) : Host.Outcome State Fault Refusal := .next { s with d := settle (f s.d) }

/-- A command of an engine pair: one that names a pair absent from the presence map has no side effect (R2, R6). -/
def runPair (e : Eng) (f : Dev → Dev) (s : State) : Host.Outcome State Fault Refusal :=
  if present s.d e.val then run f s else .next s

/-- A register write: an absent engine pair has no registers (R2), and a write that names one has no side effect (R6). -/
def runReg (r : Reg) (f : Dev → Dev) (s : State) : Host.Outcome State Fault Refusal :=
  match regPair r with
  | some e => if present s.d e then run f s else .next s
  | none => run f s

end Sys2Proof.Machine
end

