-- ==== Sys2Proof/Machine/Board.lean ====
section
/-! DEFINITION. Power, sensors, throttle and management (chapter 15): one meaning for each command. -/

namespace Sys2Proof.Machine

/-- WATCHDOG_EXPIRY (R337): A control-core watchdog that expires takes the module to FAULTED. -/
def execWatchdogExpiry (s : State) : Host.Outcome State Fault Refusal := run (fun d => enterFaulted d (devCause 6 0)) s

/-- SECURITY_CORE_FAULT (R352): A fault of the security core takes the device from any state but OFF to FAULTED. -/
def execSecurityCoreFault (s : State) : Host.Outcome State Fault Refusal := run (fun d => enterFaulted d 0) s

/-- VIN_IN_RANGE (R440): 20 ms after VIN_54 is in range, the standby island runs. -/
def execVinInRange (s : State) : Host.Outcome State Fault Refusal := runBoard (fun d => vinInRange d) s

/-- PWR_EN_RISE (R442): A filtered rise of PWR_EN starts the rail sequence. -/
def execPwrEnRise (s : State) : Host.Outcome State Fault Refusal := runBoard (fun d => pwrEnRise d) s

/-- RAIL_STEP_GOOD (R442): When every rail of a step has held power good for 50 µs, the next step starts, and after step 6 PWR_GOOD_N falls. -/
def execRailStepGood (s : State) : Host.Outcome State Fault Refusal := runBoard (fun d => railStepGood d) s

/-- RAIL_FAULT (R444): A rail that misses its window starts an emergency power-down and is logged. -/
def execRailFault (rail : Fin 18) (s : State) : Host.Outcome State Fault Refusal := runBoard (fun d => railFault d rail.val) s

/-- RAIL_POWER_LOSS (R444): A rail losing power good for 10 µs while PWR_GOOD_N is low starts an emergency power-down. -/
def execRailPowerLoss (rail : Fin 18) (s : State) : Host.Outcome State Fault Refusal := runBoard (fun d => railPowerLoss d rail.val) s

/-- PWR_EN_FALL (R450): A filtered fall of PWR_EN starts an orderly power-down to OFF. -/
def execPwrEnFall (s : State) : Host.Outcome State Fault Refusal := runBoard (fun d => pwrEnFall d) s

/-- INPUT_LOSS (R446): VIN_54 out of range past its delay starts a power-down. -/
def execInputLoss (s : State) : Host.Outcome State Fault Refusal := runBoard (fun d => inputLoss d) s

/-- INPUT_OVERCURRENT (R439): Input current above 70 A for 100 µs opens the input and latches an emergency power-down. -/
def execInputOvercurrent (s : State) : Host.Outcome State Fault Refusal := runBoard (fun d => inputOvercurrent d) s

/-- SENSOR_TRIP (R453): An analog comparator trip starts an emergency power-down without firmware. -/
def execSensorTrip (id : Fin 32) (s : State) : Host.Outcome State Fault Refusal := runBoard (fun d => sensorTrip d id.val) s

/-- RAIL_OFF_STEP (R450): Once the later step's rails have fallen below 10 %, the next rail step switches off. -/
def execRailOffStep (s : State) : Host.Outcome State Fault Refusal := runBoard (fun d => railOffStep d) s

/-- MOD_RST (R470): A filtered low MOD_RST_N resets every unit and enters BOOT with the rails up. -/
def execModRst (held : Bool) (s : State) : Host.Outcome State Fault Refusal := runBoard (fun d => modReset d held) s

/-- HP_PERST (R446): A filtered low HPp_PERST_N resets host port p and its functions alone. -/
def execHpPerst (p : HostPort) (s : State) : Host.Outcome State Fault Refusal := run (fun d => hostPortDown d p.val 5) s

/-- BOOT (R447): BOOT runs clocks, image verification, memory training, engine self-test and epoch application, then enters CONFIG or READY. -/
def execBoot (b : BootIn) (s : State) : Host.Outcome State Fault Refusal := run (fun d => boot d b) s

/-- SENSOR_SAMPLE (R452): A sensor sample is filtered and checked against its warn, throttle and SAFE limits. -/
def execSensorSample (id : Fin 32) (v : Int) (s : State) : Host.Outcome State Fault Refusal := runBoard (fun d => sensorSample d id.val v) s

/-- SENSOR_TIMEOUT (R452): A sensor without a sample past its timeout becomes failed. -/
def execSensorTimeout (id : Fin 32) (s : State) : Host.Outcome State Fault Refusal := runBoard (fun d => sensorLate d id.val) s

/-- LIMIT_CLEARED (R454): A limit whose reading stays on the safe side of warn for 10 s counts as cleared. -/
def execLimitCleared (id : Fin 32) (s : State) : Host.Outcome State Fault Refusal := runBoard (fun d => limitCleared d id.val) s

/-- THROTTLE_UPDATE (R456): At each 100 µs boundary, the throttle level is recomputed from the power, hard and thermal requests. -/
def execThrottleUpdate (s : State) : Host.Outcome State Fault Refusal := run (fun d => throttleUpdate d) s

/-- THROTTLE_WINDOW (R456): At each 10 ms boundary, the long, short and thermal requests rise or fall. -/
def execThrottleWindow (s : State) : Host.Outcome State Fault Refusal := run (fun d => throttleWindow d) s

/-- THROTTLE_SAFE (R457): Level 6 held for 1 s with a request still rising counts as a SAFE limit. -/
def execThrottleSafe (s : State) : Host.Outcome State Fault Refusal := run (fun d => throttleSafe d) s

/-- PLDM_SET_EFFECTER (R466): A PLDM set of numeric effecter 1 changes the power cap, or is refused out of range. -/
def execPldmSetEffecter (watts : Nat) (s : State) : Host.Outcome State Fault Refusal := runBoard (fun d => pldmSetEffecter d watts) s

/-- PLDM_GET_SENSOR (R466): A PLDM sensor read returns a numeric or state sensor, or unavailable. -/
def execPldmGetSensor (id : Nat) (s : State) : Host.Outcome State Fault Refusal := runBoard (fun d => pldmGetSensor d id) s

/-- PLDM_FRU_READ (R466): A PLDM FRU read returns the module's FRU records. -/
def execPldmFruRead (s : State) : Host.Outcome State Fault Refusal := runBoard (fun d => pldmFruRead d) s

/-- PLDM_REQUEST_UPDATE (R467): A PLDM RequestUpdate takes the inactive image slot, or is refused while another writer holds it. -/
def execPldmRequestUpdate (s : State) : Host.Outcome State Fault Refusal := runBoard (fun d => pldmRequestUpdate d) s

/-- PLDM_ACTIVATE (R467): A PLDM activation verifies and marks the updated slot as IMG_ACTIVATE does. -/
def execPldmActivate (chk : ImgCheck) (s : State) : Host.Outcome State Fault Refusal := runBoard (fun d => pldmActivate d chk) s

/-- IMG_SLOT_HOLD_TIMEOUT (R467): 60 s without a write releases the writer's hold on the inactive image slot. -/
def execImgSlotHoldTimeout (s : State) : Host.Outcome State Fault Refusal := run (fun d => holdTimeout d) s

/-- I3C_ENTDAA (R465): ENTDAA assigns the module's I3C dynamic address. -/
def execI3cEntdaa (addr : BitVec 7) (s : State) : Host.Outcome State Fault Refusal := runBoard (fun d => i3cAssign d addr.toNat) s

/-- MCTP_PACKET (R465): An MCTP packet is reassembled and dispatched, or discarded and counted. -/
def execMctpPacket (pkt : MctpPkt) (s : State) : Host.Outcome State Fault Refusal := runBoard (fun d => mctpPacket d pkt) s

/-- MCTP_REASSEMBLY_TIMEOUT (R465): A message not reassembled within 100 ms is discarded and counted. -/
def execMctpReassemblyTimeout (s : State) : Host.Outcome State Fault Refusal := runBoard (fun d => mctpTimeout d) s

/-- ETH_SEEK_TIMEOUT (R468): A 500 ms attempt at 10GBASE-R or 1000BASE-X link ends and the other is tried. -/
def execEthSeekTimeout (s : State) : Host.Outcome State Fault Refusal := run (fun d => ethSeekTimeout d) s

/-- ETH_LOCK_LOSS (R468): 100 ms without lock drops the management link and restarts seeking. -/
def execEthLockLoss (s : State) : Host.Outcome State Fault Refusal := run (fun d => ethLockLoss d) s

/-- ETH_FRAME (R468): A received management frame is passed to PTP, ARP or DHCPv4, or discarded and counted. -/
def execEthFrame (f : Frame) (s : State) : Host.Outcome State Fault Refusal := run (fun d => ethFrame d f) s

/-- EMERGENCY_LATCH_RELEASE (R439): Once PWR_EN has been low for 100 ms, the latched emergency power-down and the opened input are released. -/
def execEmergencyLatchRelease (s : State) : Host.Outcome State Fault Refusal := runBoard (fun d => latchRelease d) s

/-- ETH_LINK_LOCK (R468): The management Ethernet port gains 10GBASE-R block lock or 1000BASE-X synchronisation and the link comes up. -/
def execEthLinkLock (slow : Bool) (s : State) : Host.Outcome State Fault Refusal := run (fun d => ethLinkLock d slow) s

/-- MCTP_SET_ENDPOINT_ID (R465): The bus owner's Set Endpoint ID assigns the module's MCTP endpoint ID. -/
def execMctpSetEndpointId (eid : Byte) (s : State) : Host.Outcome State Fault Refusal := runBoard (fun d => mctpSetEid d eid.toNat) s

/-- PLDM_CANCEL_UPDATE (R467): A cancelled PLDM firmware update releases its hold on the inactive image slot. -/
def execPldmCancelUpdate (s : State) : Host.Outcome State Fault Refusal := runBoard (fun d => pldmCancelUpdate d) s

/-- PLDM_FIRMWARE_DATA (R467): Firmware data received in a PLDM update is written into the inactive image slot, as IMG_WRITE does. -/
def execPldmFirmwareData (ofs : Nat) (bytes : List Byte) (s : State) : Host.Outcome State Fault Refusal := runBoard (fun d => pldmFirmwareData d ofs bytes) s

end Sys2Proof.Machine
end

