-- ==== Sys2Proof/Machine/Clock.lean ====
section
/-! DEFINITION. Beats and time (chapter 10): one meaning for each command. -/

namespace Sys2Proof.Machine

/-- PTP_SYNC (R320): A Sync with its Follow_Up yields a filtered offset sample that steers, steps or locks the time unit. -/
def execPtpSync (domain : BitVec 8) (ident : DWord) (logInt : Int) (t1 : Int) (t2 : Int) (inTime : Bool) (s : State) : Host.Outcome State Fault Refusal := run (fun d => ptpSync d domain.toNat ident.toNat logInt t1 t2 inTime) s

/-- PTP_ANNOUNCE (R320): An Announce message feeds the best master clock algorithm. -/
def execPtpAnnounce (domain : BitVec 8) (ident : DWord) (prio : Nat) (steps : Nat) (logInt : Int) (s : State) : Host.Outcome State Fault Refusal := run (fun d => ptpAnnounce d domain.toNat ident.toNat prio steps logInt) s

/-- PTP_DELAY_RESP (R320): A Delay_Resp yields a path delay sample. -/
def execPtpDelayResp (domain : BitVec 8) (delay : Int) (s : State) : Host.Outcome State Fault Refusal := run (fun d => ptpDelayResp d domain.toNat delay) s

/-- DELAY_REQ_TIMEOUT (R320): A Delay_Resp not received within 1 s of its Delay_Req drops the sample. -/
def execDelayReqTimeout (s : State) : Host.Outcome State Fault Refusal := run (fun d => delayReqTimeout d) s

/-- SYNC_TIMEOUT (R320): No accepted Sync for four intervals loses the PTP reference. -/
def execSyncTimeout (s : State) : Host.Outcome State Fault Refusal := run (fun d => syncTimeout d) s

/-- ANNOUNCE_TIMEOUT (R320): No Announce for three intervals loses the master, and with no other master the reference. -/
def execAnnounceTimeout (s : State) : Host.Outcome State Fault Refusal := run (fun d => announceTimeout d) s

/-- PPS_EDGE (R320): A valid 1PPS rising edge keeps PPS_OK and, with TIME_SRC 0b01, yields a phase sample. -/
def execPpsEdge (t : Nat) (low : Nat) (high : Nat) (s : State) : Host.Outcome State Fault Refusal := run (fun d => ppsEdge d t low high) s

/-- PPS_TIMEOUT (R320): 1.5 s without a valid edge clears PPS_OK and, with TIME_SRC 0b01, loses the reference. -/
def execPpsTimeout (s : State) : Host.Outcome State Fault Refusal := run (fun d => ppsTimeout d) s

/-- PARENT_BARK_TIMEOUT (R320): 16 beats without an accepted timing sample from PARENT loses the LINK reference. -/
def execParentBarkTimeout (s : State) : Host.Outcome State Fault Refusal := run (fun d => parentTimeout d) s

/-- HOLDOVER_EXPIRY (R318): HOLDOVER beyond HOLD_MAX enters FREERUN, sets HOLD_EXPIRED and faults every running task. -/
def execHoldoverExpiry (s : State) : Host.Outcome State Fault Refusal := run (fun d => holdoverExpiry d) s

/-- PPS_OUTPUT (R321): At each whole second of TIME_NOW, the 1PPS output rises for 100 ms. -/
def execPpsOutput (s : State) : Host.Outcome State Fault Refusal := run (fun d => ppsOutput d) s

/-- BEAT_BOUNDARY (R324): At each beat boundary, every unit updates lag, barks are sent and lag budgets are checked. -/
def execBeatBoundary (s : State) : Host.Outcome State Fault Refusal := runBoard (fun d => beatBoundary d) s

/-- START_BEAT (R362): At the start beat, firmware writes START to every sequencer and VE of the task, which enters RUNNING. -/
def execStartBeat (k : KennelId) (s : State) : Host.Outcome State Fault Refusal := run (fun d => startBeat d k.toNat) s

/-- PTP_DELAY_REQ_SEND (R319): As a slave-only ordinary clock, the time unit sends a Delay_Req that a later Delay_Resp answers. -/
def execPtpDelayReqSend (s : State) : Host.Outcome State Fault Refusal := run (fun d => delayReqSend d) s

end Sys2Proof.Machine
end

