-- ==== Sys2Proof/Machine/KennelOps.lean ====
section
/-! DEFINITION. Kennels and quotas: creation, destruction, unit clearing and quota cuts (R369 to R378) and the page lists of memory commands. -/

namespace Sys2Proof.Machine

/-! ### Quota records (R374, R375) -/

def quotaOf (bs : List Byte) : Quota := ⟨mcbWord bs 0, mcbWord bs 1, mcbWord bs 2, mcbWord bs 3, mcbWord bs 4⟩

def quotaRsvd (bs : List Byte) : Bool :=
  let w := mcbWord bs
  fld (w 0) 63 52 != 0 || fld (w 1) 31 20 != 0 || fld (w 2) 38 32 != 0 || fld (w 3) 10 0 != 0 || fld (w 4) 63 36 != 0
    || w 5 != 0 || w 6 != 0 || w 7 != 0

/-- Pairs, and C-dies, that a mask names. -/
def maskBits (n v : Nat) : List Nat := (List.range n).filter (fun i => Nat.testBit v i)
def Quota.pairs (q : Quota) : List Nat := maskBits 48 q.engines
def Quota.dieList (q : Quota) : List Nat := maskBits 4 q.dies

def quotaRange (d : Dev) (q : Quota) : Bool :=
  q.strict > 256 || q.qdepth > 262144 || q.mailboxes > 4096 || q.queues > 32768 || q.trees > 4096 || q.litters > 1024
    || q.watch > 4096 || q.pages > 8388608 || q.slots > 2560 || q.pairs.any (fun e => !present d e)

/-- Unretired granules of the module (R375). -/
def granulesLeft (d : Dev) : Nat := 4 * granuleTotal - ((List.range 4).map (fun m => (mdie d m).retiredG.length)).sum

/-- Sum of a partitioned quota over the other LIVE and TEARING kennels. -/
def otherSum (d : Dev) (k : Nat) (f : Quota → Nat) : Nat :=
  ((d.kennels.filter (fun z => z.1 != k && z.2.st != .free)).map (fun z => f z.2.quota)).sum

def quotaBound (d : Dev) (k : Nat) (q : Quota) : Bool :=
  let taken (o : Nat) : Bool := o != 0 && o != k
  q.pairs.any (fun e => taken (pairKennel d e)) || q.dieList.any (fun c => taken (Tbl.get 0 d.dieOwner c))
    || otherSum d k Quota.nearFrames + q.nearFrames > 784384 || otherSum d k Quota.farGran + q.farGran > granulesLeft d
    || otherSum d k Quota.strict + q.strict > 256 || otherSum d k Quota.watch + q.watch > 4096

def quotaClearing (d : Dev) (q : Quota) : Bool :=
  q.pairs.any (fun e => d.pairClearing.contains e) || q.dieList.any (fun c => d.dieClearing.contains c)

def quotaField (d : Dev) (bs : List Byte) : Option Sc :=
  (check (quotaRsvd bs) .format).or (check (quotaRange d (quotaOf bs)) .range)

/-- Bind the units of a quota record that belong to no kennel (R370, R377). -/
def bindUnits (d : Dev) (k : Nat) (q : Quota) : Dev :=
  let d := each d q.pairs (fun d e => { d with pairOwner := Tbl.set 0 d.pairOwner e k })
  each d q.dieList (fun d c => { d with dieOwner := Tbl.set 0 d.dieOwner c k })

/-- Units leave their kennel and are cleared (R373). -/
def releaseUnits (d : Dev) (es cs : List Nat) : Dev :=
  let d := each d es (fun d e => { d with pairOwner := Tbl.erase d.pairOwner e, pairClearing := d.pairClearing.filter (· != e) ++ [e] })
  each d cs (fun d c => { d with dieOwner := Tbl.erase d.dieOwner c, dieClearing := d.dieClearing.filter (· != c) ++ [c] })

def pairsOf (d : Dev) (k : Nat) : List Nat := (List.range 48).filter (fun e => pairKennel d e == k && k != 0)
def diesOf (d : Dev) (k : Nat) : List Nat := (List.range 4).filter (fun c => Tbl.get 0 d.dieOwner c == k && k != 0)

/-- Units that the kennel holds beyond its record. -/
def strayPairs (d : Dev) (k : Nat) : List Nat := (pairsOf d k).filter (fun e => !(kennel d k).quota.pairs.contains e)
def strayDies (d : Dev) (k : Nat) : List Nat := (diesOf d k).filter (fun c => !(kennel d k).quota.dieList.contains c)

/-- Units no longer granted are released once the kennel has no task (R377). -/
def trimUnits (d : Dev) (k : Nat) : Dev := if (task d k).isSome then d else releaseUnits d (strayPairs d k) (strayDies d k)

/-- R373: the stores and scalars of the unit are zero and its sequencer and VE are reset. -/
def clearPair (d : Dev) (e : Nat) : Dev :=
  let d := modPair { d with tiles := Tbl.erase d.tiles e, caches := Tbl.erase d.caches e } e (fun p => { p with
    scalars := []
    ope := { p.ope with bank0 := [], bank1 := [], acc := false, wAct := {}, wShd := {}, shadowPend := false }
    seq := { cfg := p.seq.cfg, refuseSc := p.seq.refuseSc, refused := p.seq.refused, halted := p.seq.halted, cfgErr := p.seq.cfgErr, beat0 := p.seq.beat0, overrunCnt := p.seq.overrunCnt }
    ve := { cfg := p.ve.cfg, refuseSc := p.ve.refuseSc, refused := p.ve.refused, halted := p.ve.halted, cfgErr := p.ve.cfgErr, xlimit := p.ve.xlimit, beat0 := p.ve.beat0, seed := p.ve.seed, overrunCnt := p.ve.overrunCnt } })
  dropUnits { d with pairClearing := d.pairClearing.filter (· != e) } (fun u => u == .seq e || u == .ve e)

def unitClearDone (d : Dev) (die : Bool) (u : Nat) : Dev :=
  if die then
    if d.dieClearing.contains u then { d with dies := Tbl.erase d.dies u, dieClearing := d.dieClearing.filter (· != u) } else d
  else if d.pairClearing.contains u then clearPair d u else d

/-! ### The life of a kennel (R370, R371) -/

def kennelCreateCmd (p : Payload) : Scp where
  field := fun d z => quotaField d (payBytes z p)
  late := fun d z =>
    let q := quotaOf (payBytes z p)
    firstSome [((kennel d z.k).st == .live, Sc.state), (quotaBound d z.k q, Sc.quota),
      ((kennel d z.k).st == .tearing || quotaClearing d q, Sc.busy)] (fun z => check z.1 z.2)
  act := fun d z =>
    let q := quotaOf (payBytes z p)
    let (n, d) := takeFresh d
    { d := bindUnits (modKennel d z.k (fun _ => { st := .live, quota := q, memKey := some (Config.freshKey n) })) z.k q }

/-- Clear `EN` on every queue, litter and tree of a kennel. -/
def disableTables (d : Dev) (k : Nat) : Dev :=
  let d := each d (d.hqs.keys.filter (fun q => (hq d q).en && (hq d q).kennel == k)) (fun d q =>
    modHq (qFlush d q) q (fun x => { x with cfg := x.cfg &&& ~~~(mask 64 63 63) }))
  let d := closeTrees d k
  each d (d.litters.keys.filter (fun l => litEn (litter d l) && litKennel (litter d l) == k)) (fun d l => setLitter d l (litter d l &&& ~~~(1#128 <<< 127)))

/-- Clear `V` in every PTE and directory entry, and drop cache lines, hints, migrations and waiting writes of a kennel. -/
def unmapAll (d : Dev) (k : Nat) : Dev :=
  let mine (key : Nat) : Bool := key / 8388608 == k
  let d := { d with
    pages := Tbl.mapAll {} d.pages (fun key p => if mine key then { p with pte := p.pte &&& ~~~(mask 64 63 63) } else p)
    dirs := d.dirs.filter (fun z => z.1 / 8192 != k)
    waits := d.waits.filter (fun w => w.kennel != k)
    mem := Tbl.erase d.mem k }
  each d (List.range 4) (fun d m => modMdie d m (fun x => { x with
    migs := x.migs.filter (fun g => !mine g.key)
    watches := x.watches.filter (fun w => w.kennel != k)
    tc := x.tc.filter (fun c => c.kennel != k)
    hints := x.hints.filter (fun z => fld z.2 62 57 != k) }))

/-- Return the frames, granules and records of a kennel (R371). -/
def returnPages (d : Dev) (k : Nat) : Dev :=
  let ps := d.pages.filter (fun z => z.1 / 8388608 == k)
  let d := each d ps (fun d z => modMdie d z.2.home (fun x => { x with
    frames := if holdsFrame z.2 then x.frames.filter (· != z.2.frame) else x.frames
    records := x.records.filter (· != z.2.pid), far := x.far.filter (fun g => !z.2.extent.contains g)
    freedAt := if holdsFrame z.2 then some d.eclk else x.freedAt }))
  each d [0, 1, 2, 3] (fun d m => frameFreed { d with pages := d.pages.filter (fun z => z.1 / 8388608 != k), marks := Tbl.erase d.marks k } m)

def kennelDestroyCmd : Scp where
  late := fun d z => firstSome [
    ((kennel d z.k).st == .free || (task d z.k).isSome, Sc.state), ((kennel d z.k).st == .tearing, Sc.busy)] (fun z => check z.1 z.2)
  act := fun d z =>
    let d := pruneBegun (detachWhere d 5 true (fun x => x.kennel == z.k))
    let d := unmapAll (stopUnits (disableTables d z.k) z.k) z.k
    let d := modKennel d z.k (fun x => { st := .tearing, quota := x.quota })
    { d := releaseUnits d (pairsOf d z.k) (diesOf d z.k) }

/-- Everything of a TEARING kennel is returned and cleared (R371). -/
def teardownDone (d : Dev) (k : Nat) : Dev :=
  let x := kennel d k
  if k = 0 || x.st ≠ .tearing || x.quota.pairs.any (fun e => d.pairClearing.contains e) || x.quota.dieList.any (fun c => d.dieClearing.contains c) then d
  else
    let d := returnPages d k
    { d with kennels := Tbl.erase d.kennels k }

/-! ### Cutting a quota (R377, R378) -/

/-- Open watch entries of a kennel, on the M-die that has most. -/
def watchUse (d : Dev) (k : Nat) : Nat :=
  ((List.range 4).map (fun m => ((mdie d m).watches.filter (fun w => w.kennel == k)).length)).foldl max 0

/-- Code, new limit and present use of the counted quotas (Table 12-2). -/
def quotaUses (d : Dev) (k : Nat) (q : Quota) : List (Nat × Nat × Nat) :=
  [(1, q.nearFrames, framesOf d k), (2, q.farGran, granulesOf d k), (3, q.pages, pagesOf d k), (4, q.queues, queueUse d k),
    (5, q.qdepth, depthUse d k), (6, q.litters, litterUse d k), (7, q.trees, treeUse d k), (8, q.slots, slotUse d k),
    (9, q.mailboxes, mbxUse d k), (10, q.watch, watchUse d k)]

def bitsOf (l : List Nat) : DWord := l.foldl (fun w i => w ||| putB 64 i true) 0

/-- `QUOTA_CUT` for every quota below the present use, and for units that cannot yet be released. -/
def raiseCuts (d : Dev) (k : Nat) (q : Quota) : Dev :=
  let d := each d ((quotaUses d k q).filter (fun z => z.2.1 < z.2.2)) (fun d z => raise d (evQuotaCut k z.1 (put 64 32 z.2.1 ||| put 64 0 z.2.2)))
  if (task d k).isNone then d
  else
    let d := if (strayPairs d k).isEmpty then d else raise d (evQuotaCut k 13 (bitsOf (strayPairs d k)))
    if (strayDies d k).isEmpty then d else raise d (evQuotaCut k 14 (bitsOf (strayDies d k)))

/-- A lag budget lowered below the task's module lag keeps the old one in force (R335). -/
def keepBudget (d : Dev) (k : Nat) (old new : Quota) : Dev :=
  modTask d k (fun t =>
    let now := t.oldBudget.getD old.lagBudget
    { t with oldBudget := if new.lagBudget < t.lag then some now else none })

def quotaSetCmd (p : Payload) : Scp where
  field := fun d z => firstSome [
    check ((kennel d z.k).st == .free) Sc.state, check ((kennel d z.k).st == .tearing) Sc.busy, quotaField d (payBytes z p)] id
  late := fun d z =>
    let q := quotaOf (payBytes z p)
    (check (quotaBound d z.k q) .quota).or (check (quotaClearing d q) .busy)
  act := fun d z =>
    let q := quotaOf (payBytes z p)
    let old := (kennel d z.k).quota
    let d := keepBudget (bindUnits (modKennel d z.k (fun x => { x with quota := q })) z.k q) z.k old q
    { d := raiseCuts (trimUnits d z.k) z.k q }

/-! ### Memory commands (R210 to R214, R224, R349, R379) -/

/-- Pages of a request: the first page and their number; an address beyond the kennel's space, or one not page-aligned, is no
page. -/
def pageFirst (z : Ctx) : Nat := z.r.p0.toNat / pageBytes
def pageCount (z : Ctx) : Nat := z.r.p1.toNat
def pageArgs (z : Ctx) : Option Sc :=
  (check (z.r.p0.toNat % pageBytes != 0) .format).or (check (pageCount z == 0 || pageFirst z + pageCount z > 8388608) .range)
def pagesAsked (z : Ctx) : List Nat := (List.range (pageCount z)).map (pageFirst z + ·)

/-- Attributes of a PTE that MAP gives: the reserved policy is refused (Table 7-2). -/
def mapFormat (z : Ctx) : Bool := fld z.r.p2 60 59 == 3

/-- Home of page `pg`: by the request, else the default of R212. -/
def homeFor (z : Ctx) (pg : Nat) : Nat := if bit z.r.p2 2 then fld z.r.p2 1 0 else pg % 4

/-- Leaf tables that a MAP takes (R379). -/
def leavesNeeded (d : Dev) (k : Nat) (ps : List Nat) : Nat :=
  (((ps.map (· / 1024)).foldl (fun l x => if l.contains x then l else l ++ [x]) []).filter (fun x => !bit (Tbl.get 0 d.dirs (8192 * k + x)) 63)).length

end Sys2Proof.Machine
end

