-- ==== Sys2Proof/Machine/DeviceCommands.lean ====
section
/-! DEFINITION. Device, configuration, image, kennel and SPDM commands (chapters 11 and 12): one meaning for each command. -/

namespace Sys2Proof.Machine

/-- NOP_COMMAND (R355): SCP NOP replies with no effect. -/
def execNopCommand (m : MbxId) (s : State) : Host.Outcome State Fault Refusal := run (fun d => scp d m.toNat 0x0001 true nopCmd) s

/-- DEV_INFO (R356): DEV_INFO writes the device-information record. -/
def execDevInfo (m : MbxId) (s : State) : Host.Outcome State Fault Refusal := run (fun d => scp d m.toNat 0x0002 true devInfoCmd) s

/-- DEV_STATE (R355): DEV_STATE returns the time state, device state, beat and task bits. -/
def execDevState (m : MbxId) (s : State) : Host.Outcome State Fault Refusal := run (fun d => scp d m.toNat 0x0003 true devStateCmd) s

/-- MBX_DETACH (R350): MBX_DETACH replies and ends the mailbox. -/
def execMbxDetach (m : MbxId) (s : State) : Host.Outcome State Fault Refusal := run (fun d => mbxDetachCmd d m.toNat) s

/-- EVENT_MASK (R368): EVENT_MASK replaces the mailbox's event mask and returns the old one. -/
def execEventMask (m : MbxId) (s : State) : Host.Outcome State Fault Refusal := run (fun d => scp d m.toNat 0x0005 true eventMaskCmd) s

/-- READ_UNIT (R357): READ_UNIT writes a unit's registers into the payload. -/
def execReadUnit (m : MbxId) (s : State) : Host.Outcome State Fault Refusal := run (fun d => scp d m.toNat 0x0006 true readUnitCmd) s

/-- DEV_READY (R352): DEV_READY takes the device from CONFIG to READY. -/
def execDevReady (m : MbxId) (s : State) : Host.Outcome State Fault Refusal := run (fun d => scp d m.toNat 0x0010 true devReadyCmd) s

/-- DEV_CONFIG (R352): DEV_CONFIG takes the device from READY to CONFIG when no task exists. -/
def execDevConfig (m : MbxId) (s : State) : Host.Outcome State Fault Refusal := run (fun d => scp d m.toNat 0x0011 true devConfigCmd) s

/-- DEV_DRAIN (R352): DEV_DRAIN takes the device to DRAINING until no task is active. -/
def execDevDrain (m : MbxId) (s : State) : Host.Outcome State Fault Refusal := run (fun d => scp d m.toNat 0x0012 true devDrainCmd) s

/-- DEV_SAFE (R352): DEV_SAFE takes the device to SAFE and ends every task. -/
def execDevSafe (m : MbxId) (s : State) : Host.Outcome State Fault Refusal := run (fun d => scp d m.toNat 0x0013 true devSafeCmd) s

/-- DEV_RESUME (R454): DEV_RESUME takes the device from SAFE to CONFIG once every limit has cleared. -/
def execDevResume (m : MbxId) (s : State) : Host.Outcome State Fault Refusal := run (fun d => scp d m.toNat 0x0014 true devResumeCmd) s

/-- DEV_RESET (R470): DEV_RESET replies and then resets the module into BOOT. -/
def execDevReset (m : MbxId) (s : State) : Host.Outcome State Fault Refusal := run (fun d => devResetCmd d m.toNat) s

/-- CFG_GET (R358): CFG_GET returns the running or staged value of a configuration item. -/
def execCfgGet (m : MbxId) (s : State) : Host.Outcome State Fault Refusal := run (fun d => scp d m.toNat 0x0020 true cfgGetCmd) s

/-- CFG_STAGE (R358): CFG_STAGE range-checks and stages a configuration item value. -/
def execCfgStage (m : MbxId) (pl : Payload) (s : State) : Host.Outcome State Fault Refusal := run (fun d => scp d m.toNat 0x0021 pl.complete (cfgStageCmd pl)) s

/-- CFG_COMMIT (R421): CFG_COMMIT writes the staged epoch, applies it to the units and reports EPOCH. -/
def execCfgCommit (m : MbxId) (writeOk : Bool) (applyOk : Bool) (backOk : Bool) (s : State) : Host.Outcome State Fault Refusal := run (fun d => scp d m.toNat 0x0022 true (cfgCommitCmd writeOk applyOk backOk)) s

/-- CFG_ROLLBACK (R422): CFG_ROLLBACK rewrites and applies the previous epoch. -/
def execCfgRollback (m : MbxId) (applyOk : Bool) (s : State) : Host.Outcome State Fault Refusal := run (fun d => scp d m.toNat 0x0023 true (cfgRollbackCmd applyOk)) s

/-- CFG_DISCARD (R355): CFG_DISCARD sets the staged epoch equal to the running one. -/
def execCfgDiscard (m : MbxId) (s : State) : Host.Outcome State Fault Refusal := run (fun d => scp d m.toNat 0x0024 true cfgDiscardCmd) s

/-- IMG_WRITE (R388): IMG_WRITE writes payload bytes into the inactive image slot. -/
def execImgWrite (m : MbxId) (pl : Payload) (s : State) : Host.Outcome State Fault Refusal := run (fun d => scp d m.toNat 0x0028 true (imgWriteCmd pl)) s

/-- IMG_ACTIVATE (R389): IMG_ACTIVATE verifies the inactive slot, writes its commit record and marks it to boot next. -/
def execImgActivate (m : MbxId) (chk : ImgCheck) (s : State) : Host.Outcome State Fault Refusal := run (fun d => scp d m.toNat 0x0029 true (imgActivateCmd chk)) s

/-- KENNEL_CREATE (R370): KENNEL_CREATE checks the quota record, generates the memory key and makes the kennel LIVE. -/
def execKennelCreate (m : MbxId) (pl : Payload) (s : State) : Host.Outcome State Fault Refusal := run (fun d => scp d m.toNat 0x0030 pl.complete (kennelCreateCmd pl)) s

/-- KENNEL_DESTROY (R371): KENNEL_DESTROY detaches mailboxes, disables entries, erases keys and starts teardown. -/
def execKennelDestroy (m : MbxId) (s : State) : Host.Outcome State Fault Refusal := run (fun d => scp d m.toNat 0x0031 true kennelDestroyCmd) s

/-- KENNEL_TEARDOWN_DONE (R371): When teardown has returned the kennel's resources, it becomes FREE. -/
def execKennelTeardownDone (k : KennelId) (s : State) : Host.Outcome State Fault Refusal := run (fun d => teardownDone d k.toNat) s

/-- UNIT_CLEAR_DONE (R373): When an engine pair or die store has been zeroed and reset, it may pass to its next kennel. -/
def execUnitClearDone (die : Bool) (u : Eng) (s : State) : Host.Outcome State Fault Refusal := run (fun d => unitClearDone d die u.val) s

/-- QUOTA_SET (R377): QUOTA_SET applies a new quota record without revoking holdings and raises QUOTA_CUT. -/
def execQuotaSet (m : MbxId) (pl : Payload) (s : State) : Host.Outcome State Fault Refusal := run (fun d => scp d m.toNat 0x0032 pl.complete (quotaSetCmd pl)) s

/-- KENNEL_KEY (R383): KENNEL_KEY unwraps and loads a kennel's current or next link key. -/
def execKennelKey (m : MbxId) (pl : Payload) (key : Option (BitVec 256)) (s : State) : Host.Outcome State Fault Refusal := run (fun d => scp d m.toNat 0x0033 pl.complete (kennelKeyCmd pl key)) s

/-- SPDM_MSG (R392): SPDM_MSG passes an SPDM request to the security core and returns its response. -/
def execSpdmMsg (m : MbxId) (pl : Payload) (s : State) : Host.Outcome State Fault Refusal := run (fun d => spdmMsg d m.toNat pl) s

/-- SPDM_GET_MEASUREMENTS (R393): GET_MEASUREMENTS reports the measurement blocks, signed on request. -/
def execSpdmGetMeasurements (m : MbxId) (pl : Payload) (s : State) : Host.Outcome State Fault Refusal := run (fun d => spdmMeasure d m.toNat pl) s

/-- SPDM_KEY_EXCHANGE (R392): KEY_EXCHANGE and FINISH establish an SPDM session for the requesting endpoint. -/
def execSpdmKeyExchange (m : MbxId) (pl : Payload) (session : BitVec 32) (s : State) : Host.Outcome State Fault Refusal := run (fun d => spdmKeyExchange d m.toNat pl session.toNat) s

/-- SPDM_VENDOR_DEFINED_REQUEST (R382): A VENDOR_DEFINED_REQUEST in a management session loads kennel 0's link key. -/
def execSpdmVendorDefinedRequest (m : MbxId) (pl : Payload) (key : Option (BitVec 256)) (s : State) : Host.Outcome State Fault Refusal := run (fun d => spdmVendor d m.toNat pl key) s

/-- SPDM_OTHER_REQUEST (R392): Another supported SPDM request is answered, or an unsupported one gets UnsupportedRequest. -/
def execSpdmOtherRequest (m : MbxId) (pl : Payload) (session : BitVec 32) (s : State) : Host.Outcome State Fault Refusal := run (fun d => spdmOther d m.toNat pl session.toNat) s

/-- TIME_GET (R355): TIME_GET returns TIME_NOW, BEAT_NOW and TIME_STATUS. -/
def execTimeGet (m : MbxId) (s : State) : Host.Outcome State Fault Refusal := run (fun d => scp d m.toNat 0x0070 true timeGetCmd) s

end Sys2Proof.Machine
end

