-- ==== Sys2Proof/Machine/HostSide.lean ====
section
/-! DEFINITION. Host ports, functions and mailboxes (chapters 11 and 14): one meaning for each command. -/

namespace Sys2Proof.Machine

/-- ATTACH_DB (R434): A write of the attach doorbell starts an attach, or is held, or is discarded. -/
def execAttachDb (p : HostPort) (n : FnIx) (v : DWord) (s : State) : Host.Outcome State Fault Refusal := run (fun d => attachDb d p.val n.val v) s

/-- MBX_ATTACH (R339): Firmware reads and checks an MCB, writes the result into word 8 and signals CQ_VEC. -/
def execMbxAttach (p : HostPort) (n : FnIx) (mcb : Option (List Byte)) (writeOk : Bool) (s : State) : Host.Outcome State Fault Refusal := run (fun d => mbxAttach d p.val n.val mcb writeOk) s

/-- MBX_DB (R435): A mailbox doorbell write is handed to firmware, or discarded with WR_DROP. -/
def execMbxDb (p : HostPort) (n : FnIx) (m : MbxId) (v : DWord) (s : State) : Host.Outcome State Fault Refusal := run (fun d => mbxDb d p.val n.val m.toNat v) s

/-- REQUEST_BEGIN (R346): Firmware begins the next request of a mailbox once it is idle and the completion ring has room. -/
def execRequestBegin (m : MbxId) (f : Fetch) (s : State) : Host.Outcome State Fault Refusal := run (fun d => requestBegin d m.toNat f) s

/-- COMPLETION_RING_STALL (R350): A completion ring with no free entry for 10 s while requests wait detaches the mailbox. -/
def execCompletionRingStall (m : MbxId) (s : State) : Host.Outcome State Fault Refusal := run (fun d => ringStall d m.toNat) s

/-- MAILBOX_FREE (R350): A mailbox number becomes free 1 ms after its detach. -/
def execMailboxFree (m : MbxId) (s : State) : Host.Outcome State Fault Refusal := run (fun d => mailboxFree d m.toNat) s

/-- EVT_LOST (R367): Once two event entries are free after drops, firmware writes EVT_LOST with the count. -/
def execEvtLost (m : MbxId) (s : State) : Host.Outcome State Fault Refusal := run (fun d => lostDue d m.toNat) s

/-- INTERRUPT_COALESCE (R368): At the end of the COAL interval, firmware signals a vector for entries not yet signalled. -/
def execInterruptCoalesce (m : MbxId) (s : State) : Host.Outcome State Fault Refusal := run (fun d => coalesce d m.toNat) s

/-- FUNCTION_LEVEL_RESET (R426): A function-level reset detaches the function's mailboxes and resets its registers and MSI-X table. -/
def execFunctionLevelReset (p : HostPort) (n : FnIx) (s : State) : Host.Outcome State Fault Refusal := run (fun d => functionReset d p.val n.val) s

/-- BUS_MASTER_DISABLE (R426): Clearing Bus Master Enable detaches the function's mailboxes. -/
def execBusMasterDisable (p : HostPort) (n : FnIx) (s : State) : Host.Outcome State Fault Refusal := run (fun d => busMasterOff d p.val n.val) s

/-- D3HOT_ENTRY (R426): Entry of a function into D3hot detaches its mailboxes. -/
def execD3hotEntry (p : HostPort) (n : FnIx) (s : State) : Host.Outcome State Fault Refusal := run (fun d => enterD3 d p.val n.val) s

/-- MSIX_ENABLE_CLEAR (R426): Clearing MSI-X Enable while a mailbox names an enabled vector detaches the function's mailboxes. -/
def execMsixEnableClear (p : HostPort) (n : FnIx) (s : State) : Host.Outcome State Fault Refusal := run (fun d => msixOff d p.val n.val) s

/-- VF_DISABLE (R426): Clearing VF Enable or reducing NumVFs detaches the mailboxes of the removed VFs. -/
def execVfDisable (p : HostPort) (n : FnIx) (s : State) : Host.Outcome State Fault Refusal := run (fun d => vfDisable d p.val n.val) s

/-- VF_ENABLE (R425): Setting VF Enable with NumVFs brings virtual functions into existence with their registers at reset values. -/
def execVfEnable (p : HostPort) (n : FnIx) (s : State) : Host.Outcome State Fault Refusal := run (fun d => vfEnable d p.val n.val) s

/-- HOST_LINK_LOSS (R350): Loss of a host port's link or a hot reset detaches every mailbox of the port and raises HOST_LOST. -/
def execHostLinkLoss (p : HostPort) (s : State) : Host.Outcome State Fault Refusal := run (fun d => hostPortDown d p.val 2) s

/-- HOST_PORT_TRAIN (R424): A host port trains as PCIe 6.0, falling back in rate and width as the partner allows. -/
def execHostPortTrain (p : HostPort) (rate : Nat) (width : Nat) (flitMode : Bool) (s : State) : Host.Outcome State Fault Refusal := run (fun d => hostPortTrain d p.val rate width flitMode) s

/-- FN_STATUS_WRITE (R431): A host write to FN_STATUS clears W1C flags and resends a status message if the condition still holds. -/
def execFnStatusWrite (p : HostPort) (n : FnIx) (v : DWord) (s : State) : Host.Outcome State Fault Refusal := run (fun d => fnStatusWrite d p.val n.val v) s

/-- FN_INT_CTRL_WRITE (R431): A host write to FN_INT_CTRL sets enables and sends a status message if the condition holds. -/
def execFnIntCtrlWrite (p : HostPort) (n : FnIx) (v : DWord) (s : State) : Host.Outcome State Fault Refusal := run (fun d => fnIntCtrlWrite d p.val n.val v) s

/-- MSIX_UNMASK (R436): Unmasking a vector, or restoring bus mastering and D0, sends its pending message. -/
def execMsixUnmask (p : HostPort) (n : FnIx) (u : Unmask) (s : State) : Host.Outcome State Fault Refusal := run (fun d => unmask d p.val n.val u) s

end Sys2Proof.Machine
end

