-- ==== Sys2Proof/Machine/Links.lean ====
section
/-! DEFINITION. Zholin ports and their flits (chapter 8): one meaning for each command. -/

namespace Sys2Proof.Machine

/-- PORT_ENABLE (R249): Setting or clearing EN of ZL_PORT_CONFIG starts bring-up at TRAINING or disables the port. -/
def execPortEnable (p : PortId) (v : DWord) (s : State) : Host.Outcome State Fault Refusal := run (fun d => portEnable d p.toNat v) s

/-- PORT_RETRAIN (R266): A write of RETRAIN restarts the port at TRAINING and clears its tries. -/
def execPortRetrain (p : PortId) (v : DWord) (s : State) : Host.Outcome State Fault Refusal := run (fun d => portRetrain d p.toNat v) s

/-- TRAINING_COMPLETE (R249): PMD training and PCS lock complete on all lanes and the port enters QUALIFYING. -/
def execTrainingComplete (p : PortId) (s : State) : Host.Outcome State Fault Refusal := run (fun d => trainingComplete d p.toNat) s

/-- TRAINING_TIMEOUT (R249): TRAINING exceeds 500 ms and retries, or fails with cause 1 after three failures. -/
def execTrainingTimeout (p : PortId) (s : State) : Host.Outcome State Fault Refusal := run (fun d => trainingTimeout d p.toNat) s

/-- QUALIFY_WINDOW_END (R249): At the end of the 100 ms window the port enters NEGOTIATING or returns to TRAINING. -/
def execQualifyWindowEnd (p : PortId) (ucw : Nat) (csym : Nat) (syms : Nat) (s : State) : Host.Outcome State Fault Refusal := run (fun d => qualifyEnd d p.toNat ucw csym syms) s

/-- NEGOTIATE_TIMEOUT (R249): NEGOTIATING exceeds 10 ms and returns to TRAINING or fails with cause 3. -/
def execNegotiateTimeout (p : PortId) (s : State) : Host.Outcome State Fault Refusal := run (fun d => negotiateTimeout d p.toNat) s

/-- NEG_SEND (R264): In NEGOTIATING, the port sends a NEG every 16 µs until it has received one. -/
def execNegSend (p : PortId) (s : State) : Host.Outcome State Fault Refusal := run (fun d => negSend d p.toNat) s

/-- NEG (R264): A received NEG records the peer and is answered by NEG_DONE, or fails the port with cause 4 or 5. -/
def execNeg (p : PortId) (r : RxFlit) (s : State) : Host.Outcome State Fault Refusal := run (fun d => receive d p.toNat r .neg (fun d f => negTake d p.toNat f)) s

/-- NEG_DONE (R264): A received NEG_DONE with the matching CHOSEN takes the port UP. -/
def execNegDone (p : PortId) (r : RxFlit) (s : State) : Host.Outcome State Fault Refusal := run (fun d => receive d p.toNat r .negDone (fun d f => negDoneTake d p.toNat f)) s

/-- PCS_LOCK_LOSS (R250): Loss of PCS lock returns an UP port to TRAINING and faults the tasks that use it. -/
def execPcsLockLoss (p : PortId) (s : State) : Host.Outcome State Fault Refusal := run (fun d => pcsLoss d p.toNat) s

/-- DEGRADE_WINDOW (R250): A 1 ms window with a corrected-symbol ratio above 10⁻⁵ sets DEGRADED and raises LINK_DEGRADED. -/
def execDegradeWindow (p : PortId) (csym : Nat) (syms : Nat) (s : State) : Host.Outcome State Fault Refusal := run (fun d => degradeWindow d p.toNat csym syms) s

/-- IDLE (R257): A received IDLE returns credits and carries ACK and NAK. -/
def execIdle (p : PortId) (r : RxFlit) (s : State) : Host.Outcome State Fault Refusal := run (fun d => receive d p.toNat r .idle (fun d f => idleTake d p.toNat r.ack f)) s

/-- ACK_TIMEOUT (R255): No advance of ACK for 4,096 LCLK while flits are outstanding starts a replay. -/
def execAckTimeout (p : PortId) (s : State) : Host.Outcome State Fault Refusal := run (fun d => ackTimeout d p.toNat) s

/-- FLIT_SLOT (R259): In each flit slot the sender picks a replay, a required IDLE, a TC0 flit, a weighted TC1 to TC3 flit or an IDLE. -/
def execFlitSlot (p : PortId) (ofs : Nat) (s : State) : Host.Outcome State Fault Refusal := run (fun d => linkSlot d p.toNat ofs) s

/-- STRICT_WINDOW (R387): At the end of each window of 256 flit slots, kennels' Strict shares are renewed. -/
def execStrictWindow (p : PortId) (s : State) : Host.Outcome State Fault Refusal := run (fun d => strictWindow d p.toNat) s

/-- TCRED (R277): A received TCRED gives the sender tree credits for its contributions. -/
def execTcred (p : PortId) (r : RxFlit) (s : State) : Host.Outcome State Fault Refusal := run (fun d => receive d p.toNat r .tcred (fun d f => tcredTake d p.toNat f)) s

/-- BARK (R331): A received bark is counted for liveness, records LAG and yields a timing sample. -/
def execBark (p : PortId) (r : RxFlit) (arr : Nat) (s : State) : Host.Outcome State Fault Refusal := run (fun d => receive d p.toNat r .bark (fun d f => takeBark d p.toNat f.tsf arr)) s

/-- RED (R272): A received RED flit opens or joins its adder chunk entry by key and step. -/
def execRed (p : PortId) (r : RxFlit) (s : State) : Host.Outcome State Fault Refusal := run (fun d => receive d p.toNat r .red (fun d f => redFlit d p.toNat f)) s

/-- RED_X (R275): A received RED_X flit supplies the Strict containers of its RED flit's escaped elements. -/
def execRedX (p : PortId) (r : RxFlit) (s : State) : Host.Outcome State Fault Refusal := run (fun d => receive d p.toNat r .redX (fun d f => redXFlit d p.toNat f)) s

/-- LOCAL_CONTRIBUTION (R272): A local REDUCE contribution reaches the adder's combine stage. -/
def execLocalContribution (n : StreamIx) (slot : SlotId) (s : State) : Host.Outcome State Fault Refusal := run (fun d => localContribution d n.val slot.toNat) s

/-- ENTRY_LEASH_EXPIRY (R280): An entry that waits LEASH beats with every peer barking reports a task fault. -/
def execEntryLeashExpiry (t : TreeId) (s : State) : Host.Outcome State Fault Refusal := run (fun d => entryLeash d t.toNat) s

/-- MCAST (R285): A received MCAST flit is forwarded down the tree and written to the local litter. -/
def execMcast (p : PortId) (r : RxFlit) (s : State) : Host.Outcome State Fault Refusal := run (fun d => receive d p.toNat r .mcast (fun d f => mcastFlit d p.toNat f)) s

/-- READ_REQ (R287): A received READ_REQ is forwarded or served and answered with READ_RSP flits. -/
def execReadReq (p : PortId) (r : RxFlit) (ecc : Ecc) (s : State) : Host.Outcome State Fault Refusal := run (fun d => receive d p.toNat r .readReq (fun d f => readReq d p.toNat f ecc)) s

/-- READ_RSP (R287): A received READ_RSP is forwarded or delivers peer-read bytes or an error class. -/
def execReadRsp (p : PortId) (r : RxFlit) (s : State) : Host.Outcome State Fault Refusal := run (fun d => receive d p.toNat r .readRsp (fun d f => readRsp d p.toNat f)) s

/-- PEER_READ_TIMEOUT (R287): A peer read unanswered after 256 beats reports a task fault. -/
def execPeerReadTimeout (rid : BitVec 12) (s : State) : Host.Outcome State Fault Refusal := run (fun d => peerTimeout d rid.toNat) s

/-- KEY_SWITCH (R383): At SWITCH_BEAT, the next link key becomes current. -/
def execKeySwitch (k : KennelId) (s : State) : Host.Outcome State Fault Refusal := run (fun d => keySwitch d k.toNat) s

/-- OLD_KEY_ERASE (R383): 64 beats after a switch, the old current link key is erased. -/
def execOldKeyErase (k : KennelId) (s : State) : Host.Outcome State Fault Refusal := run (fun d => oldKeyErase d k.toNat) s

end Sys2Proof.Machine
end

