-- ==== Sys2Proof/Machine/Recovery.lean ====
section
/-! DEFINITION. Recovery rounds, updates and freezing (chapters 9 and 13): one meaning for each command. -/

namespace Sys2Proof.Machine

/-- RCV_ABORT (R400): An accepted ABORT flooded for a round stops the task's units and moves it to RECOVERING. -/
def execRcvAbort (p : PortId) (r : RxFlit) (s : State) : Host.Outcome State Fault Refusal := run (fun d => receiveRcv d p.toNat r 1 rcvAbort) s

/-- RCV_NBR (R398): An accepted NBR records that a neighbour stopped barking, and is flooded on. -/
def execRcvNbr (p : PortId) (r : RxFlit) (s : State) : Host.Outcome State Fault Refusal := run (fun d => receiveRcv d p.toNat r 2 rcvNbr) s

/-- RCV_QUIET (R402): The coordinator records a module's QUIET for the round. -/
def execRcvQuiet (p : PortId) (r : RxFlit) (s : State) : Host.Outcome State Fault Refusal := run (fun d => receiveRcv d p.toNat r 3 rcvQuiet) s

/-- RCV_LOST (R404): A module named LOST ends its task with SC_ABORTED, and others record the loss. -/
def execRcvLost (p : PortId) (r : RxFlit) (s : State) : Host.Outcome State Fault Refusal := run (fun d => receiveRcv d p.toNat r 4 rcvLost) s

/-- RCV_ADOPT (R412): A standby asked by ADOPT accepts by flooding JOIN and takes over the lost position. -/
def execRcvAdopt (p : PortId) (r : RxFlit) (s : State) : Host.Outcome State Fault Refusal := run (fun d => receiveRcv d p.toNat r 5 rcvAdopt) s

/-- RCV_JOIN (R412): The coordinator records a standby's acceptance of a lost position. -/
def execRcvJoin (p : PortId) (r : Rebuilding RxFlit) (s : State) : Host.Outcome State Fault Refusal := run (fun d => receiveRcv d p.toNat r.1 6 (fun d x => rcvJoin d x r.2)) s

/-- RCV_GO (R415): On GO, each module fixes the replay start beat and runs the replay prologue. -/
def execRcvGo (p : PortId) (r : RxFlit) (rebuilt : Option (List Byte)) (s : State) : Host.Outcome State Fault Refusal := run (fun d => receiveRcv d p.toNat r 7 (fun d x => rcvGo d x rebuilt)) s

/-- RCV_END (R396): An accepted END ends the task on this module with the carried status. -/
def execRcvEnd (p : PortId) (r : RxFlit) (s : State) : Host.Outcome State Fault Refusal := run (fun d => receiveRcv d p.toNat r 8 rcvEnd) s

/-- RCV_COMMITTED (R409): The coordinator records a member's commit of step c and floods SEALED when all have committed. -/
def execRcvCommitted (p : PortId) (r : RxFlit) (s : State) : Host.Outcome State Fault Refusal := run (fun d => receiveRcv d p.toNat r 9 rcvCommitted) s

/-- RCV_SEALED (R409): On SEALED, each module sets its last parity-commit step and raises BATCH_RELEASE. -/
def execRcvSealed (p : PortId) (r : RxFlit) (s : State) : Host.Outcome State Fault Refusal := run (fun d => receiveRcv d p.toNat r 10 rcvSealed) s

/-- COORDINATOR_ROUND_END (R402): The coordinator ends a round's wait on all QUIETs or after 64 beats, floods LOST, re-maps and floods GO or END. -/
def execCoordinatorRoundEnd (k : Rebuilding KennelId) (s : State) : Host.Outcome State Fault Refusal := run (fun d => roundEnd d k.1.toNat k.2) s

/-- JOIN_TIMEOUT (R412): A standby that gives no JOIN within 64 beats is passed over, or the position folds. -/
def execJoinTimeout (k : Rebuilding KennelId) (s : State) : Host.Outcome State Fault Refusal := run (fun d => joinTimeout d k.1.toNat k.2) s

/-- UPDATE_REPORT (R311): Firmware takes an owner's update report, raises UPD_POISON or UPD_SKIP and notes the completed step. -/
def execUpdateReport (k : KennelId) (q : Probed QueueId) (s : State) : Host.Outcome State Fault Refusal := run (fun d => updateReport d k.toNat q.1.toNat q.2) s

/-- FREEZE_APPLY (R306): Firmware applies the freeze schedule entries of a step to the map bits and the freeze plane. -/
def execFreezeApply (k : KennelId) (step : DWord) (s : State) : Host.Outcome State Fault Refusal := run (fun d => freezeStep d k.toNat step.toNat) s

end Sys2Proof.Machine
end

