-- ==== Sys2Proof/Machine/Slices.lean ====
section
/-! DEFINITION. The slice sequencer and the array (chapters 3 and 4), and register writes: one meaning for each command. -/

namespace Sys2Proof.Machine

/-- REGISTER_WRITE (R13): A write to a register field that has no behaviour of its own stores or ignores the value according to its access code. -/
def execRegisterWrite (reg : Reg) (v : DWord) (s : State) : Host.Outcome State Fault Refusal := runReg reg (fun d => regWrite d reg v) s

/-- SEQ_START (R109): A write of 1 to START resets the engine pair and then starts the slice list at LIST_BASE, or is ignored and sets CFG_ERR. -/
def execSeqStart (e : Eng) (v : DWord) (s : State) : Host.Outcome State Fault Refusal := runPair e (fun d => seqStart d e.val v) s

/-- SEQ_ABORT (R110): A write of 1 to ABORT stops slice issue at once, lets the array run out, cancels unstarted drains and clears RUN. -/
def execSeqAbort (e : Eng) (v : DWord) (s : State) : Host.Outcome State Fault Refusal := runPair e (fun d => seqAbort d e.val v) s

/-- SLICE_TAKE_UP (R119): The sequencer takes up the next descriptor, checks it, reads S_REG and requests its pop. -/
def execSliceTakeUp (e : Eng) (s : State) : Host.Outcome State Fault Refusal := runPair e (fun d => seqTakeUp d e.val) s

/-- BISCUIT_ARRIVAL (R119): A popped biscuit arrives at the requesting unit 8 ECLK after the request or after the queue next receives one. -/
def execBiscuitArrival (u : UnitId) (s : State) : Host.Outcome State Fault Refusal := run (fun d => biscuitArrives d u) s

/-- SLICE_ISSUE (R87): A slice issues its first issue cycle once the array rules, its biscuit, ALIGN and the throttle allow. -/
def execSliceIssue (e : Eng) (s : State) : Host.Outcome State Fault Refusal := runPair e (fun d => seqIssue d e.val) s

/-- WEIGHT_LOAD (R90): A stationary slice loads its weight tile into the shadow set once D ECLK have passed since the last swap marker. -/
def execWeightLoad (e : Eng) (s : State) : Host.Outcome State Fault Refusal := runPair e (fun d => weightLoad d e.val) s

/-- PROMOTION (R53): A cell adds its partial into the selected main bank entry after each window of P steps and clears the partial. -/
def execPromotion (e : Eng) (pc : Nat) (w : Nat) (s : State) : Host.Outcome State Fault Refusal := runPair e (fun d => promotion d e.val pc w) s

/-- DRAIN (R83): The drain reads the slice's bank row by row, applies the drain function and format, and writes each row 20 ECLK later. -/
def execDrain (e : Eng) (upsets : List Nat) (s : State) : Host.Outcome State Fault Refusal := runPair e (fun d => drainSlice d e.val upsets) s

/-- CHECK_CYCLE (R94): At the check cycle of an MXINT8 attempt, the sequencer examines the overflow flags and either replays or ends the attempt. -/
def execCheckCycle (e : Eng) (s : State) : Host.Outcome State Fault Refusal := runPair e (fun d => checkCycle d e.val) s

/-- SLICE_COMPLETION (R121): At a slice's completion point, the sequencer writes the completion record, increments SEQ_DONE_CNT and pushes or drops the biscuit. -/
def execSliceCompletion (e : Eng) (s : State) : Host.Outcome State Fault Refusal := runPair e (fun d => sliceCompletion d e.val) s

/-- HALT_DESCRIPTOR (R123): A HALT completes when every earlier slice has completed and every push is accepted, writes its record and clears RUN. -/
def execHaltDescriptor (e : Eng) (s : State) : Host.Outcome State Fault Refusal := runPair e (fun d => haltDescriptor d e.val) s

end Sys2Proof.Machine
end

