-- ==== Sys2Proof/Machine/MemCmdOps.lean ====
section
/-! DEFINITION. Memory, queue, litter, tree, slot and scalar commands (Table 11-8, R364, R376, R379). -/

namespace Sys2Proof.Machine

/-- The part of a check that comes before the device state in R347, and the part that comes after it: SC_STATE, SC_QUOTA and
SC_BUSY. -/
def early (c : Option Sc) : Option Sc :=
  match c with
  | some .state | some .quota | some .busy => none
  | c => c

/-- A command whose checks are one list, and whose effect cannot fail. -/
def checked (c : Dev → Ctx → Option Sc) (f : Dev → Ctx → Dev) : Scp where
  field := fun d z => early (c d z)
  late := c
  act := fun d z => { d := f d z }

/-! ### Mapping and migration -/

/-- Pages of a list per home M-die, against the free records of each. -/
def recordsShort (d : Dev) (z : Ctx) : Bool :=
  (List.range 4).any (fun m => (mdie d m).records.length + ((pagesAsked z).filter (fun pg => homeFor z pg == m)).length > 4194304)

def mapCmd : Scp where
  field := fun _ z => (check (mapFormat z) .format).or (pageArgs z)
  late := fun d z => firstSome [
    ((pagesAsked z).any (fun pg => (page d z.k pg).v), Sc.state),
    (!within (pagesOf d z.k) (pageCount z) (kennel d z.k).quota.pages || recordsShort d z
      || (leafUsed d).length + leavesNeeded d z.k (pagesAsked z) > 131072, Sc.quota)] (fun y => check y.1 y.2)
  act := fun d z => { d := each d (pagesAsked z) (fun d pg => mapPage d z.k pg (homeFor z pg) z.r.p2) }

def unmapCmd : Scp where
  field := fun _ z => pageArgs z
  late := fun d z => firstSome [
    ((pagesAsked z).any (fun pg => !(page d z.k pg).v), Sc.state),
    ((pagesAsked z).any (fun pg => unmapBusy d z.k pg), Sc.busy)] (fun y => check y.1 y.2)
  act := fun d z => { d := each d (pagesAsked z) (fun d pg => unmapPage d z.k pg) }

/-- Pages that n bytes from an address touch. -/
def pagesOfRange (a n : Nat) : List Nat := (List.range (ceilDiv (a % pageBytes + n) pageBytes)).map (a / pageBytes + ·)

/-- The checks of an access of kennel k to n bytes from an address. -/
def accessCheck (d : Dev) (k a n : Nat) (ok : Dev → Nat → Nat → Bool) : Option Sc :=
  (check (a + n > 2 ^ 44) .range).or (check ((pagesOfRange a n).any (fun pg => !ok d k (pg * pageBytes))) .denied)

/-- Bytes that arrived of an input payload, answered by a command that writes as they arrive (R349). -/
def partial' (p : Payload) (n : Nat) (d : Dev) : Ans :=
  { d := d, sc := if p.complete then .ok else .timeout, r0 := if p.complete then 0 else BitVec.ofNat 64 n }

/-- What a write of an input payload answers. -/
def writeIn (p : Payload) (bs : List Byte) (r : Dev × Wrote) : Ans :=
  match r with
  | (d, .lost) => { d := d, sc := .integrity }
  | (d, .denied) => { d := d, sc := .denied }
  | (d, _) => partial' p bs.length d

def memWriteCmd (p : Payload) : Scp where
  field := fun d z => (check (fld z.r.p0 5 0 != 0) .format).or (accessCheck d z.k z.r.p0.toNat (z.r.plen * 64) canWrite)
  act := fun d z => writeIn p (payBytes z p) (memWriteAll d z.k z.r.p0.toNat (payBytes z p) .firmware .clean)

def memReadCmd (ecc : Ecc) : Scp where
  field := fun d z => accessCheck d z.k z.r.p0.toNat (z.r.plen * 64) canRead
  act := fun d z =>
    match memReadAll d z.k z.r.p0.toNat (z.r.plen * 64) ecc with
    | (d, .ok, bs) => { d := putPayload d z bs }
    | (d, .denied, _) => { d := d, sc := .denied }
    | (d, _, _) => { d := d, sc := .integrity }

/-- A firmware migration of one page: a pinned page stays in its tier. -/
def askMigrate (d : Dev) (k pg : Nat) (down : Bool) : Dev :=
  let p := page d k pg
  if down then (if p.st = .near && p.policy ≠ 1 then requestMig d p.home (pageKey k pg) 6 false else d)
  else if p.st = .far && p.policy ≠ 2 then requestMig d p.home (pageKey k pg) 6 true else d

def migrateCmd : Scp where
  field := fun d z => (pageArgs z).or (check ((pagesAsked z).any (fun pg => !(page d z.k pg).v)) .denied)
  act := fun d z => { d := each d (pagesAsked z) (fun d pg => askMigrate d z.k pg (bit z.r.p2 0)) }

/-! ### Queues, litters and trees -/

def queueArg (z : Ctx) : Nat := fld z.r.p0 14 0

def hqSetCmd : Scp := checked (fun d z => hqSetCheck d z.k (queueArg z) z.r.p1) (fun d z => writeHq d (queueArg z) z.r.p1)

/-- Push biscuits in order up to the first that meets a full queue: how many went in (R364). -/
def pushAll (d : Dev) (q k : Nat) (bs : List DWord) (n : Nat) : Dev × Nat :=
  match bs with
  | [] => (d, n)
  | b :: r => match qPush d q k b d.eclk with
    | (d, .accepted) => pushAll d q k r (n + 1)
    | (d, _) => (d, n)

def pushCount (z : Ctx) : Nat := fld z.r.p0 18 16

def hqPushCmd : Scp where
  field := fun d z => (check (!hqAllows (hq d (queueArg z)) z.k) .denied).or (check (pushCount z == 0 || pushCount z > 5) .range)
  act := fun d z =>
    let (d, n) := pushAll d (queueArg z) z.k ([z.r.p1, z.r.p2, z.r.p3, z.r.p4, z.r.p5].take (pushCount z)) 0
    if n = pushCount z then { d := d } else { d := d, sc := .busy, r0 := BitVec.ofNat 64 n }

def hqFlushCmd : Scp where
  field := fun d z => check (!hqAllows (hq d (queueArg z)) z.k) .denied
  late := fun d z => check (runsTask d z.k) .state
  act := fun d z => { d := qFlush d (queueArg z) }

/-- The entry that `P1` and `P2` give. -/
def entryArg (z : Ctx) : BitVec 128 := z.r.p2 ++ z.r.p1

def litterSetCmd : Scp :=
  checked (fun d z => litterCheck d z.k (fld z.r.p0 9 0) (entryArg z)) (fun d z => setLitter d (fld z.r.p0 9 0) (entryArg z))

/-- The busy check of a tree entry that is switched on comes first (R270). -/
def treeSetCmd : Scp where
  field := fun d z =>
    let c := treeCheck d z.k (fld z.r.p0 11 0) (entryArg z)
    if ({ entry := entryArg z } : Tree).en && c = some .busy then c else early c
  late := fun d z => treeCheck d z.k (fld z.r.p0 11 0) (entryArg z)
  act := fun d z => { d := writeTree d (fld z.r.p0 11 0) (entryArg z) }

/-! ### Stream slots and scalars -/

def engArg (z : Ctx) : Nat := fld z.r.p0 6 0
def slotArg (z : Ctx) : Nat := fld z.r.p0 12 8
/-- A descriptor at the front of a payload. -/
def descIn (bs : List Byte) : Desc := descOf ((List.range 8).map (mcbWord bs))

def slotArmCmd (p : Payload) : Scp where
  field := fun d z => (check (engArg z ≥ 80) .range).or (armCheck d z.k (engArg z) (slotArg z) (descIn (payBytes z p)))
  late := fun d z => firstSome [
    (!slotHeld z.k (sslot d (engArg z) (slotArg z)) && !within (slotUse d z.k) 1 (kennel d z.k).quota.slots, Sc.quota),
    (armBusy (shadowMove d (engArg z) (slotArg z)) (engArg z) (slotArg z), Sc.busy)] (fun y => check y.1 y.2)
  act := fun d z => match arm d z.k (engArg z) (slotArg z) (descIn (payBytes z p)) z.r.p1.toNat with
    | some (d, g) => { d := d, r0 := BitVec.ofNat 64 g }
    | none => { d := d, sc := .busy }

/-- The slot holds a descriptor of another kennel, and none of this one's. -/
def slotForeign (k : Nat) (x : SSlot) : Bool := (x.act.isSome || x.shd.isSome) && !slotHeld k x

def slotDisarmCmd : Scp where
  field := fun d z => (check (engArg z ≥ 80) .range).or (check (slotForeign z.k (sslot d (engArg z) (slotArg z))) .denied)
  act := fun d z =>
    let (d, ok) := disarm d (engArg z) (slotArg z) (fld z.r.p0 31 16)
    { d := d, sc := if ok then .ok else .state, r0 := slotStatus d (engArg z) (slotArg z) }

def pairArg (z : Ctx) : Nat := fld z.r.p0 13 8

def scalarSetCmd : Scp where
  field := fun d z => (check (!present d (pairArg z)) .range).or (check (pairKennel d (pairArg z) != z.k) .denied)
  late := fun d z => check ((pair d (pairArg z)).seq.run || (pair d (pairArg z)).ve.run) .state
  act := fun d z => { d := modPair d (pairArg z) (fun p => { setScalar p (fld z.r.p0 5 0) (z.r.p1.setWidth 32) with history := [] }) }

end Sys2Proof.Machine
end

