-- ==== Sys2Proof/Machine/TaskOps.lean ====
section
/-! DEFINITION. Task commands: creation, start, stop and end, status, batches, schedule rows, freeze entries and standbys
(R306, R312, R353, R360 to R363, R412). -/

namespace Sys2Proof.Machine

/-- A test of the kennel's task; false without one. -/
def taskIs (d : Dev) (k : Nat) (p : Task → Bool) : Bool := match task d k with | some t => p t | none => false

/-! ### Creation (R360, R361) -/

/-- The state ceiling of R313. -/
def stateCeiling : Nat := 12600000000000

def createField (r : Req) (version : Nat) : Option Sc :=
  firstSome [
    (fld r.p0 5 0 != 0 || fld r.p5 39 38 ≥ 2 || (version != 0x26 && fld r.p5 37 36 == 3), Sc.format),
    (fld r.p5 51 40 > fld r.p5 63 52 || fld r.p5 34 27 == 0 || r.p0.toNat ≥ 2 ^ 44, Sc.range)] (fun y => check y.1 y.2)

/-- The task that a TASK_CREATE describes, before its manifest has been read. -/
def newTask (r : Req) : Task :=
  { manifest := r.p0.toNat, seed := r.p1, step0 := r.p2.toNat, stepLast := r.p3.toNat, footprint := r.p4.toNat, p5 := r.p5 }

def taskCreateCmd : Scp where
  field := fun _ z => createField z.r z.x.version
  late := fun d z => firstSome [
    ((task d z.k).isSome || (kennel d z.k).st != .live, Sc.state),
    (z.r.p4.toNat > stateCeiling, Sc.quota)] (fun y => check y.1 y.2)
  act := fun d z =>
    { d := raise (setTask d z.k (some (newTask z.r))) (evTaskState z.k 0xF TaskState.creating.code .ok (newTask z.r).step0) }

/-- The schedule table covers every step up to the last one (R312). -/
def scheduleShort (t : Task) : Bool :=
  (t.sec 0x08).isSome && (t.data 0x08).length < 64 * (t.stepLast + 1 - t.step0)

/-- The manifest as read ends creation with this status, or with none. `t` holds its sections. -/
def creationCheck (d : Dev) (k : Nat) (m : RawManifest) (t : Task) : Option Sc :=
  firstSome [
    check (m.cls == .denied) Sc.denied,
    check (m.cls != .ok || leNat ((m.hdr.drop 4).take 4) != (manifestCrc m.hdr m.ents t.secs).toNat) Sc.integrity,
    check (manifestFormat m.hdr m.ents t.secs t) Sc.format,
    check (scheduleShort t) Sc.range,
    manifestCheck d k t t.roster] id

/-- A task's manifest with what firmware keeps of it. -/
def loadManifest (d : Dev) (t : Task) (ss : List Sec) : Task :=
  let t := { t with secs := ss }
  let ring := manifestRoster d t
  { t with
    roster := ring
    coordinator := ring.headD 0
    freezes := (t.items 0x09).mapIdx (fun i w => { num := i, words := w })
    crc := crc32c (ss.flatMap (·.data)) }

/-- The manifest has been read: the task is CREATED, or creation ends with its refusal (R361). -/
def creationDone (d : Dev) (k : Nat) (ecc : Ecc) : Dev :=
  match task d k with
  | none => d
  | some t =>
    if t.st ≠ .creating then d
    else
      let (d, m) := readManifest d k t.manifest ecc
      let t := loadManifest d t m.secs
      match creationCheck d k m t with
      | some sc => trimUnits (dropTask d k sc 0) k
      | none => moveTask (setTask d k (some t)) k .created .ok 0

/-! ### Start, stop and end (R353, R362) -/

/-- On a standby, and in every state but CREATED, a start is refused; a ring needs kennel 0's link key (R263). -/
def startState (d : Dev) (k : Nat) : Bool :=
  !taskIs d k (fun t => t.st == .created && !t.isStandby && (t.ringSize == 1 || (kennel d 0).cur.isSome))
    || d.dstate == .draining || d.time.tstate != .locked

/-- Plans, tables and placement from start beat b (R361, R362). -/
def startTask (d : Dev) (k b : Nat) : Dev :=
  match task d k with
  | none => d
  | some t =>
    let d := loadArms (planUnits (placeSections (loadTables d k t) t) t b t.step0) k t b
    moveTask (modTask d k (fun t => { t with startBeat := b })) k .starting .ok cmdCause

def taskStartCmd : Scp where
  field := fun d z => check ((task d z.k).isSome && z.r.p0.toNat < beatNow d + 1000) .range
  late := fun d z => check (startState d z.k) .state
  act := fun d z => { d := startTask d z.k z.r.p0.toNat }

def taskStopCmd : Scp where
  field := fun d z => check (taskIs d z.k (fun t => z.r.p0.toNat < stepInProgress t || z.r.p0.toNat > t.stepLast)) .range
  late := fun d z => check (!taskIs d z.k (fun t => t.st == .running)) .state
  act := fun d z => { d := moveTask (modTask d z.k (fun t => { t with stopStep := some z.r.p0.toNat })) z.k .stopping .ok cmdCause }

def taskAbortCmd : Scp where
  late := fun d z => check (!runsTask d z.k) .state
  act := fun d z => { d := endTask d z.k .aborted }

/-- The resources of a destroyed task are released (R354, R377). -/
def taskDestroyCmd : Scp where
  late := fun d z => check (!taskIs d z.k (fun t => t.st == .created || t.st == .ended)) .state
  act := fun d z => { d := trimUnits (dropTask d z.k .ok cmdCause) z.k }

def taskStatusCmd : Scp where
  late := fun d z => check (task d z.k).isNone .state
  act := fun d z =>
    match task d z.k with
    | none => { d := d, sc := .state }
    | some t =>
      { d := { d with fresh := d.fresh + 1 }
        r0 := put 64 8 t.endSt.code ||| put 64 0 t.st.code
        r1 := BitVec.ofNat 64 (stepInProgress t) - 1
        r2 := match t.lastCommit with | some c => BitVec.ofNat 64 c | none => Config.noCommit d.fresh }

/-! ### Batches (R363) -/

/-- Where the batch table places a micro-batch. -/
def batchPlace (t : Task) (mb : Nat) : Nat := nth ((t.items 0x0B).getD mb []) 0

/-- The batches of a step have been read: its update has completed, and no replay has asked for them. -/
def batchRead (t : Task) (step mb : Nat) : Bool :=
  step < stepInProgress t && !t.batchReq.any (fun z => z.1 == step && z.2.1 == mb)

def batchField (d : Dev) (z : Ctx) : Option Sc :=
  match task d z.k with
  | none => none
  | some t => (check (fld z.r.p1 15 0 ≥ batchCount t) .range).or
      (accessCheck d z.k (batchPlace t (fld z.r.p1 15 0)) (z.r.plen * 64) canWrite)

def batchPutCmd (p : Payload) : Scp where
  field := batchField
  late := fun d z => check (!taskIs d z.k (fun t => !batchRead t z.r.p0.toNat (fld z.r.p1 15 0))) .state
  act := fun d z =>
    match task d z.k with
    | none => { d := d, sc := .state }
    | some t =>
      let bs := payBytes z p
      let a := writeIn p bs (memWriteAll d z.k (batchPlace t (fld z.r.p1 15 0)) bs .firmware .clean)
      if a.sc = .ok then
        { a with d := modTask a.d z.k (fun t => { t with batchReq := t.batchReq.filter (fun y => !(y.1 == z.r.p0.toNat && y.2.1 == fld z.r.p1 15 0)) }) }
      else a

/-- A batch that has not come `BATCH_WAIT` seconds after its request ends the task. -/
def batchTimeout (d : Dev) (k : Nat) : Dev :=
  if taskIs d k (fun t => t.batchReq.any (fun z => due d z.2.2 (ms (1000 * t.batchWait)))) then endTask d k .timeout else d

/-! ### Schedule rows, freeze entries and standbys -/

/-- A module of the ring has begun step s; this module's own progress stands for the ring's (log 32). -/
def begun (t : Task) (s : Nat) : Bool := t.began && s ≤ stepInProgress t

def rowsIn (z : Ctx) : Nat := z.r.plen

def schedField (d : Dev) (z : Ctx) : Option Sc :=
  match task d z.k with
  | none => none
  | some t =>
    (check ((z.r.p0.toNat + rowsIn z) * 64 > (t.data 0x08).length) .range).or
      (accessCheck d z.k (((t.sec 0x08).map (·.addr)).getD 0 + 64 * z.r.p0.toNat) (64 * rowsIn z) canWrite)

def schedSetCmd (p : Payload) : Scp where
  field := schedField
  late := fun d z => check (!taskIs d z.k (fun t => !begun t (t.step0 + z.r.p0.toNat))) .state
  act := fun d z =>
    match task d z.k with
    | none => { d := d, sc := .state }
    | some t =>
      match memWriteAll d z.k (((t.sec 0x08).map (·.addr)).getD 0 + 64 * z.r.p0.toNat) (payBytes z p) .firmware .clean with
      | (d, .lost) => { d := d, sc := .integrity }
      | (d, _) => { d := d }

/-- The freeze entries of a payload. -/
def freezeIn (z : Ctx) (p : Payload) : List (List DWord) := itemsOf (payBytes z p).length 0 0x09 (payBytes z p)

/-- A later entry for the same blocks takes the place of an earlier one: entries of a step apply in order. -/
def freezeSetCmd (p : Payload) : Scp where
  late := fun d z => check (!taskIs d z.k (fun t => !(freezeIn z p).any (fun w => begun t (nth w 0)))) .state
  act := fun d z => { d := modTask d z.k (fun t => { t with freezes := t.freezes ++ (freezeIn z p).mapIdx (fun i w => { num := t.freezes.length + i, words := w }) }) }

/-- Modules that `P0` to `P3` name. -/
def standbyList (r : Req) : List Nat := ([r.p0, r.p1, r.p2, r.p3].filter (fun w => bit w 63)).map (fun w => fld w 11 0)

def taskStandbyCmd : Scp where
  late := fun d z => check (task d z.k).isNone .state
  act := fun d z => { d := modTask d z.k (fun t => { t with standbys := standbyList z.r, isStandby := (standbyList z.r).contains (selfModule d) }) }


end Sys2Proof.Machine
end

