-- ==== Sys2Proof/Machine/Streams.lean ====
section
/-! DEFINITION. Handle queues, stream engines, memory and its migrations (chapters 6 and 7): one meaning for each command. -/

namespace Sys2Proof.Machine

/-- QUEUE_PUSH (R186): A push reaches its queue's home and is stored, handed to the oldest waiting pop, refused, or meets a full queue. -/
def execQueuePush (u : UnitId) (s : State) : Host.Outcome State Fault Refusal := run (fun d => runPush d u) s

/-- QUEUE_POP (R186): A pop reaches its queue's home and takes the oldest biscuit, waits on an empty queue, or is refused. -/
def execQueuePop (u : UnitId) (s : State) : Host.Outcome State Fault Refusal := run (fun d => runPop d u) s

/-- PUSH_RETRY (R187): A unit whose push met a full queue retries it every 16 ECLK until accepted. -/
def execPushRetry (u : UnitId) (s : State) : Host.Outcome State Fault Refusal := run (fun d => retryPush d u) s

/-- SLOT_ARM (R172): An arm of a stream slot is checked and becomes active, waits in the shadow position, or is refused with SC_BUSY. -/
def execSlotArm (m : MbxId) (pl : Payload) (s : State) : Host.Outcome State Fault Refusal := run (fun d => scp d m.toNat 0x0055 pl.complete (slotArmCmd pl)) s

/-- SLOT_DISARM (R175): A disarm removes the shadow or an unstarted active descriptor of the named generation, or is refused with SC_STATE. -/
def execSlotDisarm (m : MbxId) (s : State) : Host.Outcome State Fault Refusal := run (fun d => scp d m.toNat 0x0056 true slotDisarmCmd) s

/-- REPETITION_POPS (R177): A repetition requests all its pops once ALIGN and the engine's outstanding-pop limit allow. -/
def execRepetitionPops (n : StreamIx) (slot : SlotId) (s : State) : Host.Outcome State Fault Refusal := run (fun d => repPops d n.val slot.toNat) s

/-- REPETITION_READS (R197): Once every biscuit has arrived, the repetition checks them and issues its reads. -/
def execRepetitionReads (n : StreamIx) (slot : Probed SlotId) (s : State) : Host.Outcome State Fault Refusal := run (fun d => repReads d n.val slot.1.toNat slot.2) s

/-- REPETITION_COMPLETION (R177): At the last destination write, the repetition pushes its biscuits and reports any overrun. -/
def execRepetitionCompletion (n : StreamIx) (slot : SlotId) (at' : Nat) (s : State) : Host.Outcome State Fault Refusal := run (fun d => repCompletion d n.val slot.toNat at') s

/-- SHADOW_MOVE (R173): In the ECLK after a final transfer or a removal, the shadow descriptor moves into the active position. -/
def execShadowMove (n : StreamIx) (slot : SlotId) (s : State) : Host.Outcome State Fault Refusal := run (fun d => shadowMove d n.val slot.toNat) s

/-- RUNAHEAD_FETCH (R201): An engine with RUNAHEAD fetches further source bytes into free staging. -/
def execRunaheadFetch (n : StreamIx) (slot : Probed SlotId) (s : State) : Host.Outcome State Fault Refusal := run (fun d => runAhead d n.val slot.1.toNat slot.2) s

/-- WATCH_GRANT (R200): A prefetch that waited for a free watch entry takes one and issues. -/
def execWatchGrant (m : MDieId) (s : State) : Host.Outcome State Fault Refusal := run (fun d => watchGrant d m.toNat) s

/-- LEASH_EXPIRY (R203): At the leash boundary, a repetition with unstaged reads is cancelled and its biscuits pass to the fallback. -/
def execLeashExpiry (n : StreamIx) (slot : SlotId) (s : State) : Host.Outcome State Fault Refusal := run (fun d => leashExpiry d n.val slot.toNat) s

/-- MEMORY_READ (R219): A read request at the home M-die is translated and served according to the page state. -/
def execMemoryRead (n : StreamIx) (slot : SlotId) (ecc : Ecc) (s : State) : Host.Outcome State Fault Refusal := run (fun d => seMemRead d n.val slot.toNat ecc) s

/-- MEMORY_WRITE (R219): A write at the home M-die is applied according to the page state and invalidates watched staged bytes. -/
def execMemoryWrite (n : StreamIx) (slot : Probed SlotId) (s : State) : Host.Outcome State Fault Refusal := run (fun d => seMemWrite d n.val slot.1.toNat slot.2) s

/-- MIGRATION_START (R224): A waiting migration starts when fewer than eight run, in priority order. -/
def execMigrationStart (m : MDieId) (s : State) : Host.Outcome State Fault Refusal := run (fun d => migStart d m.toNat) s

/-- MIGRATION_COMPLETE (R225): At the end of a migration the page switches state and its old storage is freed; `bad` are the blocks in which its reads met UE, and those in which they met corrected errors. -/
def execMigrationComplete (k : KennelId) (pg : BitVec 23) (bad : List (BitVec 9) × List (BitVec 9)) (s : State) : Host.Outcome State Fault Refusal := run (fun d => migComplete d (page d k.toNat pg.toNat).home (pageKey k.toNat pg.toNat) (bad.1.map BitVec.toNat) (bad.2.map BitVec.toNat)) s

/-- FRAME_WAIT_TIMEOUT (R226): A demand promotion or first write with no frame freed after 16 beats ends its descriptor with SC_QUOTA. -/
def execFrameWaitTimeout (k : KennelId) (pg : BitVec 23) (s : State) : Host.Outcome State Fault Refusal := run (fun d => frameTimeout d k.toNat pg.toNat) s

/-- HINT_UPDATE (R235): Firmware writes a tensor hint entry on every M-die before the named beat. -/
def execHintUpdate (t : BitVec 16) (v : DWord) (s : State) : Host.Outcome State Fault Refusal := run (fun d => hintUpdate d t.toNat v) s

end Sys2Proof.Machine
end

