-- ==== Sys2Proof/Machine/Operands.lean ====
section
/-! DEFINITION. The data effects of the vector engine's instructions that take more than one lane at a time: loads, stores,
conversions, scans, reductions, the exact accumulator, and program flow (R143 to R162). -/

namespace Sys2Proof.Machine

/-! ### Moves, guards and comparisons -/

/-- MOV (Table 5-4): the sign bit copied, flipped, cleared or set. -/
def movSign (m : Nat) (b : Word) : Word :=
  match m with
  | 0 => b
  | 1 => b ^^^ 0x80000000#32
  | 2 => b &&& 0x7FFFFFFF#32
  | _ => b ||| 0x80000000#32

/-- SEL writes every lane (R140). -/
def selEff : VEffect := onPair (fun p w =>
  let g := guardReg p.ve (vG w)
  { p with ve := setLanes p.ve (vVD w) (mergeLanes g (bOperand p w) (lanes p.ve (vVA w))) })

/-- A comparison of VA with B into a guard. -/
def cmpEff (f : Nat → Word → Word → Bool) : VEffect := onPair (fun p w =>
  { p with ve := writeGuard p.ve w (maskOf (List.zipWith (f (vMod w)) (lanes p.ve (vVA w)) (bOperand p w))) })

/-- GLOG: AND, OR, AND-NOT, XOR (Table 5-4). -/
def guardLogic (m : Nat) (a b : BitVec 512) : BitVec 512 :=
  match m with
  | 0 => a &&& b
  | 1 => a ||| b
  | 2 => a &&& ~~~b
  | _ => a ^^^ b

def glogEff : VEffect := onPair (fun p w =>
  { p with ve := writeGuard p.ve w (guardLogic (vMod w) (guardReg p.ve (vVA w)) (guardReg p.ve (vB w))) })

/-! ### Loads and stores (R144 to R146) -/

/-- Bytes of a vector in a format. -/
def vecBytes (code : Nat) : Nat := 64 * fmtBits code

def splitBytes (fuel n : Nat) (bs : List Byte) : List (List Byte) :=
  match fuel with
  | 0 => []
  | f + 1 => bs.take n :: splitBytes f n (bs.drop n)

/-- The lanes that LD makes of the bytes: raw, or widened exactly. -/
def loadLanes (code : Nat) (bs : List Byte) : List Word :=
  (splitBytes laneCount (fmtBits code / 8) bs).map (fun b =>
    match code with
    | 0 => BitVec.ofNat 32 (leNat b)
    | 1 => widen bf16 (leNat b)
    | _ => widen fp16 (leNat b))

/-- LD (R144). Where a drain or a stream writes the same byte in the same ECLK, what the load returns is not defined; it returns
what the order of the commands makes of it (R138; DESIGN CHOICE, log 49). -/
def ldEff : VEffect := onCache 64 (fun w => vecBytes (vMod w)) (fun d e w a =>
  modPair d e (fun p => { p with ve := writeLanes p.ve w (loadLanes (vMod w) (Mem.read (cache d e) a (vecBytes (vMod w)))) }))

/-- The code that ST stores for a lane (R145). -/
def storeCode (code : Nat) (v : Word) : Nat :=
  match code with
  | 0 => v.toNat
  | 1 => toBf16 .rne v
  | 2 => toFp16 .rne v
  | c => toElem .rne c (decW v)

/-- Codes packed from the least significant bit on (R46). -/
def packCodes (w : Nat) (cs : List Nat) : Nat := cs.foldr (fun c acc => acc * 2 ^ w + c % 2 ^ w) 0

/-- The pieces that ST writes: one for each lane, or one for each lane block of an MX code, under the guard (R146). -/
def storePieces (code : Nat) (g : BitVec 512) (vs : List Word) : List (Nat × List Byte) :=
  if isMx code then
    ((cutWords 16 vs).mapIdx (fun b ws => (b, ws))).filterMap (fun z =>
      if g.getLsbD (32 * z.1) then some (z.1 * 4 * fmtBits code, leBytes (4 * fmtBits code) (packCodes (fmtBits code) (z.2.map (storeCode code)))) else none)
  else
    (vs.mapIdx (fun l v => (l, v))).filterMap (fun z =>
      if g.getLsbD z.1 then some (z.1 * (fmtBits code / 8), leBytes (fmtBits code / 8) (storeCode code z.2)) else none)
where
  cutWords (fuel : Nat) (vs : List Word) : List (List Word) :=
    match fuel with
    | 0 => []
    | f + 1 => vs.take 32 :: cutWords f (vs.drop 32)

def storeAll (d : Dev) (e a : Nat) (ps : List (Nat × List Byte)) : Dev := each d ps (fun d z => storeWrite d 2 e (a + z.1) z.2)

def stEff : VEffect := onCache 64 (fun w => vecBytes (vMod w)) (fun d e w a =>
  let x := (pair d e).ve
  storeAll d e a (storePieces (vMod w) (guardReg x (vG w)) (lanes x (vVA w))))

/-- STS writes scale byte b under the guard of lane 32b (R146). -/
def stsEff : VEffect := onCache 16 (fun _ => 16) (fun d e w a =>
  let x := (pair d e).ve
  let g := guardReg x (vG w)
  storeAll d e a ((((lanes x (vVA w)).take 16).mapIdx (fun b v => (b, [v.setWidth 8]))).filter (fun z => g.getLsbD (32 * z.1))))

def gldEff : VEffect := onCache 64 (fun _ => 64) (fun d e w a =>
  modPair d e (fun p => { p with ve := writeGuard p.ve w (BitVec.ofNat 512 (Mem.readNat (cache d e) a 64)) }))

def gstEff : VEffect := onCache 64 (fun _ => 64) (fun d e w a =>
  storeWrite d 2 e a (leBytes 64 (guardReg (pair d e).ve (vVA w)).toNat))

/-! ### Conversions (R147 to R150) -/

/-- The rounding of lane l: RNE, or its draw of R41. -/
def laneRounding (p : Pair) (w : DWord) (l : Nat) : Rounding :=
  if vSr w then
    .sr (draw p.ve.seed p.ve.step (scalarPair p (fld w 5 0) + BitVec.ofNat 64 (l / 32)) p.ve.drawId (l % 32))
  else .rne

def cvtEff : VEffect := onLanes (fun p w =>
  let f := if vMod w = 1 then bf16 else fp16
  (lanes p.ve (vVA w)).mapIdx (fun l v => widen f (f.encodeR (laneRounding p w l) (decW v))))

/-- Scale bytes and values of the sixteen lane blocks (R149). -/
def qntBlocks (p : Pair) (w : DWord) : List (Nat × List Word) :=
  let vs := lanes p.ve (vVA w)
  (List.range 16).map (fun b =>
    let z := quantBlock (fun i => laneRounding p w (32 * b + i)) (vMod w) (((vs.drop (32 * b)).take 32).map decW)
    (z.1, z.2.map (fun c => encW (decodeElem (vMod w) c))))

/-- Each bit 32b of a guard, spread over lane block b. -/
def blockGuard (g : BitVec 512) : BitVec 512 := maskOf ((List.range laneCount).map (fun l => g.getLsbD (l / 32 * 32)))

def qntEff : VEffect := onPair (fun p w =>
  let g := guardReg p.ve (vG w)
  let bl := qntBlocks p w
  let x := setLanes p.ve (vVD w) (mergeLanes (blockGuard g) (lanes p.ve (vVD w)) (bl.flatMap (·.2)))
  let old := lanes x (vVC w)
  let head := (List.zip bl (old.take 16)).mapIdx (fun b z => if g.getLsbD (32 * b) then BitVec.ofNat 32 z.1.1 else z.2)
  { p with ve := setLanes x (vVC w) (head ++ List.replicate (laneCount - 16) 0) })

/-! ### Scans and reductions (R151 to R153) -/

def scanAdd (m : Nat) : Word → Word → Word := if m = 0 then fadd else (· + ·)

/-- One level of PSUM. -/
def psumLevel (f : Word → Word → Word) (ys : List Word) (s : Nat) : List Word := ys.take s ++ List.zipWith f ys (ys.drop s)

def levels : List Nat := [1, 2, 4, 8, 16, 32, 64, 128, 256]

def psum (m : Nat) (ys : List Word) : List Word := levels.foldl (psumLevel (scanAdd m)) ys

/-- One level of SSCAN, on lanes with their head flags. -/
def sscanLevel (f : Word → Word → Word) (ys : List (Word × Bool)) (s : Nat) : List (Word × Bool) :=
  ys.take s ++ List.zipWith (fun a b => (if b.2 then b.1 else f a.1 b.1, b.2 || a.2)) ys (ys.drop s)

def sscan (m : Nat) (ys : List (Word × Bool)) : List Word := (levels.foldl (sscanLevel (scanAdd m)) ys).map (·.1)

def sscanEff : VEffect := onPair (fun p w =>
  let g := guardReg p.ve (vG w)
  let ys := (lanes p.ve (vVA w)).mapIdx (fun l v => (v, g.getLsbD l || l == 0))
  { p with ve := setLanes p.ve (vVD w) (sscan (vMod w) ys) })

/-- Neighbours combined in pairs. -/
def pairWords (f : Word → Word → Word) (xs : List Word) : List Word :=
  match xs with
  | a :: b :: r => f a b :: pairWords f r
  | _ => []

def reduceLevels (f : Word → Word → Word) (s : Nat) (xs : List Word) : List Word :=
  match s with
  | 0 => xs
  | k + 1 => reduceLevels f k (pairWords f xs)

/-- Each segment's result in every lane of the segment. -/
def reduceSegments (f : Word → Word → Word) (s : Nat) (xs : List Word) : List Word :=
  (reduceLevels f s xs).flatMap (fun v => List.replicate (2 ^ s) v)

def reduceEff (f : Word → Word → Word) : VEffect := onLanes (fun p w => reduceSegments f (vMod w) (lanes p.ve (vVA w)))

/-! ### The exact accumulator (R155 to R158) -/

def strictLimit : Nat := 2 ^ 24
def xelem (x : Ve) (i : Nat) : Strict := Tbl.get {} x.xacc i

/-- The element that lane l of an XADD contributes to. -/
def xaddElem (w : DWord) (l : Nat) : Nat := if vMod w = 0 then l % 32 else fld w 4 0

/-- The accumulator after an XADD. -/
def xaddAcc (p : Pair) (w : DWord) : Tbl Strict :=
  let g := guardReg p.ve (vG w)
  ((lanes p.ve (vVA w)).mapIdx (fun l v => (l, v))).foldl (fun t z =>
    if g.getLsbD z.1 then Tbl.modify {} t (xaddElem w z.1) (fun a => a.addFp (decW z.2)) else t) p.ve.xacc

def overLimit (t : Tbl Strict) : Bool := t.any (fun z => z.2.count > strictLimit)

/-- An XADD, refused whole where a count would pass 2²⁴ (R158). -/
def xaddEff : VEffect := fun d e w pc _ =>
  let t := xaddAcc (pair d e) w
  if overLimit t then .refuse .range true
  else .ok (modVe d e (fun x => { x with xacc := t })) (pc + 1)

def xclrEff : VEffect := onPair (fun p _ => { p with ve := { p.ve with xacc := [] } })

/-- An exact element rounded to FP32, or to BF16 held as FP32 (R61, R156). -/
def xround (m : Nat) (a : Strict) : Word := if m = 0 then encW a.value else widen bf16 (bf16.encode a.value)

def xrdEff : VEffect := onLanes (fun p w =>
  (List.range 32).map (fun i => xround (vMod w) (xelem p.ve i)) ++ List.replicate (laneCount - 32) 0)

def xstEff : VEffect := onCache 64 (fun _ => 1536) (fun d e _ a =>
  storeWrite d 2 e a ((List.range 32).flatMap (fun i => leBytes 48 (xelem (pair d e).ve i).container)))

/-- Containers read for an XMRG; none when one has a reserved bit set. -/
def readContainers (m : Mem) (a : Nat) : Option (List Strict) :=
  ((List.range 32).map (fun i => Strict.ofContainer (Mem.readNat m (a + 48 * i) 48))).foldr
    (fun x r => match x, r with | some y, some l => some (y :: l) | _, _ => none) (some [])

def mergeAll (t : Tbl Strict) (cs : List Strict) : Tbl Strict :=
  (cs.mapIdx (fun i c => (i, c))).foldl (fun t z => Tbl.modify {} t z.1 (fun a => a.merge z.2)) t

/-- An XMRG: the address, then the containers, then the counts (R163). -/
def xmrgEff : VEffect := fun d e w pc _ =>
  match accessAddr (pair d e) w 64 1536 with
  | none => .refuse .range false
  | some a =>
    match readContainers (cache d e) a with
    | none => .refuse .format false
    | some cs =>
      let t := mergeAll (pair d e).ve.xacc cs
      if overLimit t then .refuse .range true
      else .ok (modVe d e (fun x => { x with xacc := t })) (pc + 1)

/-! ### Scalars, queues and program flow (R150, R159 to R162) -/

/-- An effect that writes one scalar register. -/
def onScalar (f : Pair → DWord → Word) : VEffect := onPair (fun p w => setScalar p (vSD w) (f p w))

def sadd64Eff : VEffect := onPair (fun p w => setScalarPair p (vSD w) (scalarPair p (vSA w) + BitVec.ofInt 64 (sext 32 (vImm w))))

def smovvEff : VEffect := onScalar (fun p w => Tbl.get 0 (Tbl.get [] p.ve.v (vVS w)) (fld w 8 0))

def gblkEff : VEffect := onPair (fun p w =>
  { p with ve := setGuard p.ve (vSD w) (BitVec.allOnes 512) (maskOf ((List.range laneCount).map (fun l => (scalar p (vSA w)).getLsbD (l / 32)))) })

def rctxEff : VEffect := onPair (fun p w =>
  { p with ve := { p.ve with step := scalarPair p (vSA w), drawId := BitVec.ofNat 8 (fld w 7 0) } })

/-- LOOP: n instructions, a count of 0 skips them; nesting as R159 allows. -/
def loopEff : VEffect := fun d e w pc _ =>
  let p := pair d e
  let n := fld w 31 22
  let count := if vMod w = 0 then fld w 21 0 else (scalar p (vSA w)).toNat
  let outside := match p.ve.loops with | l :: _ => decide (l.stop < pc + 1 + n) | [] => false
  if p.ve.loops.length ≥ 2 || outside then .refuse .range false
  else if count = 0 then .ok d (pc + 1 + n)
  else .ok (modVe d e (fun x => { x with loops := ⟨pc + 1, pc + 1 + n, count⟩ :: x.loops })) (pc + 1)

def popqEff : VEffect := fun d e w pc c =>
  .ok (requestPop (modVe d e (fun x => { x with popTo := some (vSD w, pc) })) (.ve e) 0 (fld w 14 0) (pairKennel d e) c) (pc + 1)

def pushqEff : VEffect := fun d e w pc c =>
  .ok (requestPush (modVe d e (fun x => { x with pushing := true })) (.ve e) (fld w 14 0) (pairKennel d e) (scalarPair (pair d e) (vSA w)) c) (pc + 1)

/-- Close the open group at its planned end (R161, R162). -/
def closeGroup (x : Ve) (dur c : Nat) (halt : Bool) : Ve :=
  let stop := x.gStart + dur
  { x with gStart := stop, closers := x.closers ++ [{ stop := stop, ready := max c (max x.done x.visible), popWait := x.popTo.isSome, halt := halt }] }

def groupEff : VEffect := fun d e w pc c =>
  .ok (modVe d e (fun x =>
    let x := closeGroup x (fld w 7 0) c false
    { x with startMin := if bit w 8 then some x.gStart else none })) (pc + 1)

def haltEff : VEffect := fun d e w pc c =>
  if fld w 7 0 = 0 && !(pair d e).ve.afterGroup then .refuse .range false
  else .ok (modVe d e (fun x => closeGroup x (fld w 7 0) c true)) (pc + 1)

end Sys2Proof.Machine
end

