-- ==== Sys2Proof/Machine/Vectors.lean ====
section
/-! DEFINITION. The vector engine (chapter 5): one meaning for each command. -/

namespace Sys2Proof.Machine

/-- Lane by lane on VA, B and VC. -/
def triLanes (f : Word → Word → Word → Word) : VEffect := onLanes (fun p w =>
  List.zipWith (fun g c => g c) (List.zipWith f (lanes p.ve (vVA w)) (bOperand p w)) (lanes p.ve (vVC w)))

/-- VE_START (R165): A write of 1 to START resets the VE program state and starts the program at PROG_BASE, or sets CFG_ERR. -/
def execVeStart (e : Eng) (v : DWord) (s : State) : Host.Outcome State Fault Refusal := runPair e (fun d => veStart d e.val v) s

/-- VE_ABORT (R166): A write of 1 to ABORT stops VE issue at once and clears RUN within 64 ECLK. -/
def execVeAbort (e : Eng) (v : DWord) (s : State) : Host.Outcome State Fault Refusal := runPair e (fun d => veAbort d e.val v) s

/-- TASK_SEED_WRITE (R164): A write of TASK_SEED stores the seed, or is ignored and sets CFG_ERR while RUN is 1. -/
def execTaskSeedWrite (e : Eng) (v : DWord) (s : State) : Host.Outcome State Fault Refusal := runPair e (fun d => seedWrite d e.val v) s

/-- NOP (R142): The VE instruction NOP does nothing. -/
def execNop (e : Eng) (s : State) : Host.Outcome State Fault Refusal := runPair e (fun d => veIssue d e.val 0x00 (onPair (fun p _ => p))) s

/-- FADD (R143): FADD adds B to VA lane by lane in FP32. -/
def execFadd (e : Eng) (s : State) : Host.Outcome State Fault Refusal := runPair e (fun d => veIssue d e.val 0x01 (binLanes fadd)) s

/-- FSUB (R143): FSUB subtracts B from VA lane by lane in FP32. -/
def execFsub (e : Eng) (s : State) : Host.Outcome State Fault Refusal := runPair e (fun d => veIssue d e.val 0x02 (binLanes fsub)) s

/-- FMUL (R143): FMUL multiplies VA by B lane by lane in FP32. -/
def execFmul (e : Eng) (s : State) : Host.Outcome State Fault Refusal := runPair e (fun d => veIssue d e.val 0x03 (binLanes fmul)) s

/-- FMA (R143): FMA computes VA × B + VC, rounded once. -/
def execFma (e : Eng) (s : State) : Host.Outcome State Fault Refusal := runPair e (fun d => veIssue d e.val 0x04 (triLanes ffma)) s

/-- FNMA (R143): FNMA computes −(VA × B) + VC, rounded once. -/
def execFnma (e : Eng) (s : State) : Host.Outcome State Fault Refusal := runPair e (fun d => veIssue d e.val 0x05 (triLanes ffnma)) s

/-- FMIN (R37): FMIN takes the lane-wise FP32 minimum. -/
def execFmin (e : Eng) (s : State) : Host.Outcome State Fault Refusal := runPair e (fun d => veIssue d e.val 0x06 (binLanes fmin)) s

/-- FMAX (R37): FMAX takes the lane-wise FP32 maximum. -/
def execFmax (e : Eng) (s : State) : Host.Outcome State Fault Refusal := runPair e (fun d => veIssue d e.val 0x07 (binLanes fmax)) s

/-- FCMP (R142): FCMP writes a guard register from a lane-wise FP32 comparison. -/
def execFcmp (e : Eng) (s : State) : Host.Outcome State Fault Refusal := runPair e (fun d => veIssue d e.val 0x08 (cmpEff fcmp)) s

/-- SEL (R142): SEL selects VA or B lane by lane under a guard. -/
def execSel (e : Eng) (s : State) : Host.Outcome State Fault Refusal := runPair e (fun d => veIssue d e.val 0x09 selEff) s

/-- MOV (R142): MOV copies B with the sign bit copied, flipped, cleared or set. -/
def execMov (e : Eng) (s : State) : Host.Outcome State Fault Refusal := runPair e (fun d => veIssue d e.val 0x0A (onLanes (fun p w => (bOperand p w).map (movSign (vMod w))))) s

/-- IADD (R142): IADD adds integers modulo 2³². -/
def execIadd (e : Eng) (s : State) : Host.Outcome State Fault Refusal := runPair e (fun d => veIssue d e.val 0x10 (binLanes (· + ·))) s

/-- ISUB (R142): ISUB subtracts integers modulo 2³². -/
def execIsub (e : Eng) (s : State) : Host.Outcome State Fault Refusal := runPair e (fun d => veIssue d e.val 0x11 (binLanes (· - ·))) s

/-- IMIN (R142): IMIN takes the signed integer minimum. -/
def execImin (e : Eng) (s : State) : Host.Outcome State Fault Refusal := runPair e (fun d => veIssue d e.val 0x12 (binLanes (fun a b => if b.toInt < a.toInt then b else a))) s

/-- IMAX (R142): IMAX takes the signed integer maximum. -/
def execImax (e : Eng) (s : State) : Host.Outcome State Fault Refusal := runPair e (fun d => veIssue d e.val 0x13 (binLanes (fun a b => if a.toInt < b.toInt then b else a))) s

/-- ICMP (R142): ICMP writes a guard register from a signed integer comparison. -/
def execIcmp (e : Eng) (s : State) : Host.Outcome State Fault Refusal := runPair e (fun d => veIssue d e.val 0x14 (cmpEff icmp)) s

/-- CVT (R148): CVT rounds each lane to BF16 or FP16 by RNE or stochastic rounding. -/
def execCvt (e : Eng) (s : State) : Host.Outcome State Fault Refusal := runPair e (fun d => veIssue d e.val 0x18 cvtEff) s

/-- QNT (R149): QNT quantises each lane block to an MX format and writes elements and scale bytes. -/
def execQnt (e : Eng) (s : State) : Host.Outcome State Fault Refusal := runPair e (fun d => veIssue d e.val 0x19 qntEff) s

/-- ITOF (R142): ITOF converts integers to FP32 by RNE. -/
def execItof (e : Eng) (s : State) : Host.Outcome State Fault Refusal := runPair e (fun d => veIssue d e.val 0x1A (unLanes itof)) s

/-- FTOI (R143): FTOI converts FP32 to integers by RNE, with saturation and NaN to 0. -/
def execFtoi (e : Eng) (s : State) : Host.Outcome State Fault Refusal := runPair e (fun d => veIssue d e.val 0x1B (unLanes ftoi)) s

/-- LD (R144): LD loads a vector from the operand cache, widening BF16 or FP16 exactly. -/
def execLd (e : Eng) (s : State) : Host.Outcome State Fault Refusal := runPair e (fun d => veIssue d e.val 0x20 ldEff) s

/-- ST (R145): ST converts and stores VA into the operand cache under the guard. -/
def execSt (e : Eng) (s : State) : Host.Outcome State Fault Refusal := runPair e (fun d => veIssue d e.val 0x21 stEff) s

/-- STS (R146): STS stores the scale bytes in lanes 0 to 15 of VA. -/
def execSts (e : Eng) (s : State) : Host.Outcome State Fault Refusal := runPair e (fun d => veIssue d e.val 0x22 stsEff) s

/-- GLD (R144): GLD loads a guard register from 64 bytes. -/
def execGld (e : Eng) (s : State) : Host.Outcome State Fault Refusal := runPair e (fun d => veIssue d e.val 0x23 gldEff) s

/-- GST (R144): GST stores a guard register as 64 bytes. -/
def execGst (e : Eng) (s : State) : Host.Outcome State Fault Refusal := runPair e (fun d => veIssue d e.val 0x24 gstEff) s

/-- GLOG (R142): GLOG combines two guard registers by AND, OR, AND-NOT or XOR. -/
def execGlog (e : Eng) (s : State) : Host.Outcome State Fault Refusal := runPair e (fun d => veIssue d e.val 0x28 glogEff) s

/-- PSUM (R151): PSUM computes an inclusive prefix sum over the lanes. -/
def execPsum (e : Eng) (s : State) : Host.Outcome State Fault Refusal := runPair e (fun d => veIssue d e.val 0x30 (onLanes (fun p w => psum (vMod w) (lanes p.ve (vVA w))))) s

/-- SSCAN (R152): SSCAN computes a segmented inclusive prefix sum with heads from a guard. -/
def execSscan (e : Eng) (s : State) : Host.Outcome State Fault Refusal := runPair e (fun d => veIssue d e.val 0x31 sscanEff) s

/-- RSUM (R153): RSUM sums over segments of 2^s lanes in a fixed order. -/
def execRsum (e : Eng) (s : State) : Host.Outcome State Fault Refusal := runPair e (fun d => veIssue d e.val 0x32 (reduceEff fadd)) s

/-- RMIN (R153): RMIN takes the minimum over segments of 2^s lanes. -/
def execRmin (e : Eng) (s : State) : Host.Outcome State Fault Refusal := runPair e (fun d => veIssue d e.val 0x33 (reduceEff fmin)) s

/-- RMAX (R153): RMAX takes the maximum over segments of 2^s lanes. -/
def execRmax (e : Eng) (s : State) : Host.Outcome State Fault Refusal := runPair e (fun d => veIssue d e.val 0x34 (reduceEff fmax)) s

/-- EXP2 (R154): EXP2 computes a correctly rounded 2^x. -/
def execExp2 (e : Eng) (s : State) : Host.Outcome State Fault Refusal := runPair e (fun d => veIssue d e.val 0x38 (unLanes exp2W)) s

/-- LOG2 (R154): LOG2 computes a correctly rounded log₂ x. -/
def execLog2 (e : Eng) (s : State) : Host.Outcome State Fault Refusal := runPair e (fun d => veIssue d e.val 0x39 (unLanes log2W)) s

/-- RCP (R154): RCP computes a correctly rounded reciprocal. -/
def execRcp (e : Eng) (s : State) : Host.Outcome State Fault Refusal := runPair e (fun d => veIssue d e.val 0x3A (unLanes rcpW)) s

/-- RSQRT (R154): RSQRT computes a correctly rounded reciprocal square root. -/
def execRsqrt (e : Eng) (s : State) : Host.Outcome State Fault Refusal := runPair e (fun d => veIssue d e.val 0x3B (unLanes rsqrtW)) s

/-- TANH (R154): TANH computes a correctly rounded tanh. -/
def execTanh (e : Eng) (s : State) : Host.Outcome State Fault Refusal := runPair e (fun d => veIssue d e.val 0x3C (unLanes tanhW)) s

/-- XCLR (R155): XCLR clears every exact accumulator element. -/
def execXclr (e : Eng) (s : State) : Host.Outcome State Fault Refusal := runPair e (fun d => veIssue d e.val 0x40 xclrEff) s

/-- XADD (R155): XADD adds guarded lanes exactly into XACC elements, refused when a count would pass 2²⁴. -/
def execXadd (e : Eng) (s : State) : Host.Outcome State Fault Refusal := runPair e (fun d => veIssue d e.val 0x41 xaddEff) s

/-- XRD (R156): XRD writes the rounded XACC elements into lanes 0 to 31. -/
def execXrd (e : Eng) (s : State) : Host.Outcome State Fault Refusal := runPair e (fun d => veIssue d e.val 0x42 xrdEff) s

/-- XST (R157): XST stores the 32 XACC elements as Strict containers. -/
def execXst (e : Eng) (s : State) : Host.Outcome State Fault Refusal := runPair e (fun d => veIssue d e.val 0x43 xstEff) s

/-- XMRG (R157): XMRG combines 32 stored containers into XACC. -/
def execXmrg (e : Eng) (s : State) : Host.Outcome State Fault Refusal := runPair e (fun d => veIssue d e.val 0x44 xmrgEff) s

/-- SSET (R142): SSET writes an immediate into a scalar register. -/
def execSset (e : Eng) (s : State) : Host.Outcome State Fault Refusal := runPair e (fun d => veIssue d e.val 0x50 (onScalar (fun _ w => BitVec.ofNat 32 (vImm w)))) s

/-- SADD (R142): SADD adds an immediate to a scalar register modulo 2³². -/
def execSadd (e : Eng) (s : State) : Host.Outcome State Fault Refusal := runPair e (fun d => veIssue d e.val 0x51 (onScalar (fun p w => scalar p (vSA w) + BitVec.ofNat 32 (vImm w)))) s

/-- SADD64 (R142): SADD64 adds a sign-extended immediate to a scalar pair modulo 2⁶⁴. -/
def execSadd64 (e : Eng) (s : State) : Host.Outcome State Fault Refusal := runPair e (fun d => veIssue d e.val 0x52 sadd64Eff) s

/-- SMOVV (R142): SMOVV moves one vector lane into a scalar register. -/
def execSmovv (e : Eng) (s : State) : Host.Outcome State Fault Refusal := runPair e (fun d => veIssue d e.val 0x53 smovvEff) s

/-- XRDS (R156): XRDS rounds one XACC element into a scalar register. -/
def execXrds (e : Eng) (s : State) : Host.Outcome State Fault Refusal := runPair e (fun d => veIssue d e.val 0x54 (onScalar (fun p w => xround (vMod w) (xelem p.ve (fld w 4 0))))) s

/-- GBLK (R142): GBLK builds a lane-block guard from a scalar register's bits. -/
def execGblk (e : Eng) (s : State) : Host.Outcome State Fault Refusal := runPair e (fun d => veIssue d e.val 0x55 gblkEff) s

/-- LOOP (R159): LOOP repeats the following n instructions a counted number of times. -/
def execLoop (e : Eng) (s : State) : Host.Outcome State Fault Refusal := runPair e (fun d => veIssue d e.val 0x58 loopEff) s

/-- RCTX (R150): RCTX loads the rounding context's step and draw identifier. -/
def execRctx (e : Eng) (s : State) : Host.Outcome State Fault Refusal := runPair e (fun d => veIssue d e.val 0x59 rctxEff) s

/-- POPQ (R160): POPQ requests a pop from a handle queue into a scalar pair. -/
def execPopq (e : Eng) (s : State) : Host.Outcome State Fault Refusal := runPair e (fun d => veIssue d e.val 0x5A popqEff) s

/-- PUSHQ (R160): PUSHQ pushes the biscuit in a scalar pair once earlier stores are visible, holding later issue until accepted. -/
def execPushq (e : Eng) (s : State) : Host.Outcome State Fault Refusal := runPair e (fun d => veIssue d e.val 0x5B pushqEff) s

/-- GROUP (R161): GROUP closes a VE beat group and may hold the next instruction until the next group's planned start. -/
def execGroup (e : Eng) (s : State) : Host.Outcome State Fault Refusal := runPair e (fun d => veIssue d e.val 0x5C groupEff) s

/-- HALT (R161): The VE instruction HALT closes the last beat group and ends the program. -/
def execHalt (e : Eng) (s : State) : Host.Outcome State Fault Refusal := runPair e (fun d => veIssue d e.val 0x5D haltEff) s

/-- VE_GROUP_COMPLETION (R162): At a GROUP's or HALT's completion point, the VE reports any overrun and, for HALT, sets HALTED and clears RUN. -/
def execVeGroupCompletion (e : Eng) (s : State) : Host.Outcome State Fault Refusal := runPair e (fun d => veGroupCompletion d e.val) s

end Sys2Proof.Machine
end

