-- ==== Sys2Proof/Machine/WorkCommands.lean ====
section
/-! DEFINITION. Memory, table and task commands (chapters 11 and 13): one meaning for each command. -/

namespace Sys2Proof.Machine

/-- MAP (R379): MAP maps pages of the kennel, taking leaf tables and page records as needed. -/
def execMap (m : MbxId) (s : State) : Host.Outcome State Fault Refusal := run (fun d => scp d m.toNat 0x0040 true mapCmd) s

/-- UNMAP (R379): UNMAP clears PTEs and returns empty leaf tables. -/
def execUnmap (m : MbxId) (s : State) : Host.Outcome State Fault Refusal := run (fun d => scp d m.toNat 0x0041 true unmapCmd) s

/-- MEM_WRITE (R349): MEM_WRITE writes payload bytes into kennel memory as they arrive. -/
def execMemWrite (m : MbxId) (pl : Payload) (s : State) : Host.Outcome State Fault Refusal := run (fun d => scp d m.toNat 0x0042 true (memWriteCmd pl)) s

/-- MEM_READ (R355): MEM_READ copies kennel memory into the payload. -/
def execMemRead (m : MbxId) (ecc : Ecc) (s : State) : Host.Outcome State Fault Refusal := run (fun d => scp d m.toNat 0x0043 true (memReadCmd ecc)) s

/-- MIGRATE (R224): MIGRATE requests promotion or demotion of pages at firmware priority. -/
def execMigrate (m : MbxId) (s : State) : Host.Outcome State Fault Refusal := run (fun d => scp d m.toNat 0x0044 true migrateCmd) s

/-- HQ_SET (R184): HQ_SET writes a handle queue's HQ_CONFIG after its state and quota checks. -/
def execHqSet (m : MbxId) (s : State) : Host.Outcome State Fault Refusal := run (fun d => scp d m.toNat 0x0050 true hqSetCmd) s

/-- HQ_PUSH (R364): HQ_PUSH pushes up to five biscuits in order, stopping at a full queue with SC_BUSY. -/
def execHqPush (m : MbxId) (s : State) : Host.Outcome State Fault Refusal := run (fun d => scp d m.toNat 0x0051 true hqPushCmd) s

/-- HQ_FLUSH (R189): HQ_FLUSH discards a queue's biscuits and cancels its waiting pops. -/
def execHqFlush (m : MbxId) (s : State) : Host.Outcome State Fault Refusal := run (fun d => scp d m.toNat 0x0052 true hqFlushCmd) s

/-- LITTER_SET (R192): LITTER_SET writes a litter entry after its busy, range and kennel checks. -/
def execLitterSet (m : MbxId) (s : State) : Host.Outcome State Fault Refusal := run (fun d => scp d m.toNat 0x0053 true litterSetCmd) s

/-- TREE_SET (R270): TREE_SET writes a tree entry, and enabling a reduction tree sends TCREDs to its children. -/
def execTreeSet (m : MbxId) (s : State) : Host.Outcome State Fault Refusal := run (fun d => scp d m.toNat 0x0054 true treeSetCmd) s

/-- SCALAR_SET (R137): SCALAR_SET writes a scalar register while both sequencer and VE are stopped. -/
def execScalarSet (m : MbxId) (s : State) : Host.Outcome State Fault Refusal := run (fun d => scp d m.toNat 0x0057 true scalarSetCmd) s

/-- TASK_CREATE (R360): TASK_CREATE accepts a task's parameters and begins reading its manifest in CREATING. -/
def execTaskCreate (m : MbxId) (s : State) : Host.Outcome State Fault Refusal := run (fun d => scp d m.toNat 0x0060 true taskCreateCmd) s

/-- TASK_CREATION_DONE (R361): When the manifest has been read and checked, the task becomes CREATED or creation ends with its refusal. -/
def execTaskCreationDone (k : Probed KennelId) (s : State) : Host.Outcome State Fault Refusal := run (fun d => creationDone d k.1.toNat k.2) s

/-- TASK_START (R362): TASK_START sets every unit's plan from the start beat and moves the task to STARTING. -/
def execTaskStart (m : MbxId) (s : State) : Host.Outcome State Fault Refusal := run (fun d => scp d m.toNat 0x0061 true taskStartCmd) s

/-- TASK_STOP (R355): TASK_STOP sets a stop step and moves the task to STOPPING. -/
def execTaskStop (m : MbxId) (s : State) : Host.Outcome State Fault Refusal := run (fun d => scp d m.toNat 0x0062 true taskStopCmd) s

/-- TASK_ABORT (R353): TASK_ABORT ends the task with SC_ABORTED on every module. -/
def execTaskAbort (m : MbxId) (s : State) : Host.Outcome State Fault Refusal := run (fun d => scp d m.toNat 0x0063 true taskAbortCmd) s

/-- TASK_DESTROY (R353): TASK_DESTROY removes a CREATED or ENDED task and releases its resources. -/
def execTaskDestroy (m : MbxId) (s : State) : Host.Outcome State Fault Refusal := run (fun d => scp d m.toNat 0x0064 true taskDestroyCmd) s

/-- TASK_STATUS (R355): TASK_STATUS returns the task state, ending status, last step and last commit. -/
def execTaskStatus (m : MbxId) (s : State) : Host.Outcome State Fault Refusal := run (fun d => scp d m.toNat 0x0065 true taskStatusCmd) s

/-- BATCH_PUT (R363): BATCH_PUT writes a micro-batch of a step at the place that the batch table names. -/
def execBatchPut (m : MbxId) (pl : Payload) (s : State) : Host.Outcome State Fault Refusal := run (fun d => scp d m.toNat 0x0066 true (batchPutCmd pl)) s

/-- BATCH_WAIT_TIMEOUT (R363): A requested batch missing BATCH_WAIT seconds after BATCH_REQ ends the task with SC_TIMEOUT. -/
def execBatchWaitTimeout (k : KennelId) (s : State) : Host.Outcome State Fault Refusal := run (fun d => batchTimeout d k.toNat) s

/-- SCHED_SET (R312): SCHED_SET replaces schedule rows of steps not yet begun. -/
def execSchedSet (m : MbxId) (pl : Payload) (s : State) : Host.Outcome State Fault Refusal := run (fun d => scp d m.toNat 0x0067 pl.complete (schedSetCmd pl)) s

/-- FREEZE_SET (R306): FREEZE_SET adds or changes freeze schedule entries of steps not yet begun. -/
def execFreezeSet (m : MbxId) (pl : Payload) (s : State) : Host.Outcome State Fault Refusal := run (fun d => scp d m.toNat 0x0068 pl.complete (freezeSetCmd pl)) s

/-- TASK_STANDBY (R412): TASK_STANDBY names the standby modules, or makes this module a standby. -/
def execTaskStandby (m : MbxId) (s : State) : Host.Outcome State Fault Refusal := run (fun d => scp d m.toNat 0x0069 true taskStandbyCmd) s

end Sys2Proof.Machine
end

