-- ==== Sys2Proof/Machine/Dispatch.lean ====
section
/-! DEFINITION. The dispatch: one arm for each command. -/

namespace Sys2Proof.Machine

def exec (i : Instr) (s : State) : Host.Outcome State Fault Refusal :=
  match i with
  | .registerWrite reg v => Sys2Proof.Machine.execRegisterWrite reg v s
  | .seqStart e v => Sys2Proof.Machine.execSeqStart e v s
  | .seqAbort e v => Sys2Proof.Machine.execSeqAbort e v s
  | .sliceTakeUp e => Sys2Proof.Machine.execSliceTakeUp e s
  | .biscuitArrival u => Sys2Proof.Machine.execBiscuitArrival u s
  | .sliceIssue e => Sys2Proof.Machine.execSliceIssue e s
  | .weightLoad e => Sys2Proof.Machine.execWeightLoad e s
  | .promotion e pc w => Sys2Proof.Machine.execPromotion e pc w s
  | .drain e upsets => Sys2Proof.Machine.execDrain e upsets s
  | .checkCycle e => Sys2Proof.Machine.execCheckCycle e s
  | .sliceCompletion e => Sys2Proof.Machine.execSliceCompletion e s
  | .haltDescriptor e => Sys2Proof.Machine.execHaltDescriptor e s
  | .queuePush u => Sys2Proof.Machine.execQueuePush u s
  | .queuePop u => Sys2Proof.Machine.execQueuePop u s
  | .pushRetry u => Sys2Proof.Machine.execPushRetry u s
  | .veStart e v => Sys2Proof.Machine.execVeStart e v s
  | .veAbort e v => Sys2Proof.Machine.execVeAbort e v s
  | .taskSeedWrite e v => Sys2Proof.Machine.execTaskSeedWrite e v s
  | .nop e => Sys2Proof.Machine.execNop e s
  | .fadd e => Sys2Proof.Machine.execFadd e s
  | .fsub e => Sys2Proof.Machine.execFsub e s
  | .fmul e => Sys2Proof.Machine.execFmul e s
  | .fma e => Sys2Proof.Machine.execFma e s
  | .fnma e => Sys2Proof.Machine.execFnma e s
  | .fmin e => Sys2Proof.Machine.execFmin e s
  | .fmax e => Sys2Proof.Machine.execFmax e s
  | .fcmp e => Sys2Proof.Machine.execFcmp e s
  | .sel e => Sys2Proof.Machine.execSel e s
  | .mov e => Sys2Proof.Machine.execMov e s
  | .iadd e => Sys2Proof.Machine.execIadd e s
  | .isub e => Sys2Proof.Machine.execIsub e s
  | .imin e => Sys2Proof.Machine.execImin e s
  | .imax e => Sys2Proof.Machine.execImax e s
  | .icmp e => Sys2Proof.Machine.execIcmp e s
  | .cvt e => Sys2Proof.Machine.execCvt e s
  | .qnt e => Sys2Proof.Machine.execQnt e s
  | .itof e => Sys2Proof.Machine.execItof e s
  | .ftoi e => Sys2Proof.Machine.execFtoi e s
  | .ld e => Sys2Proof.Machine.execLd e s
  | .st e => Sys2Proof.Machine.execSt e s
  | .sts e => Sys2Proof.Machine.execSts e s
  | .gld e => Sys2Proof.Machine.execGld e s
  | .gst e => Sys2Proof.Machine.execGst e s
  | .glog e => Sys2Proof.Machine.execGlog e s
  | .psum e => Sys2Proof.Machine.execPsum e s
  | .sscan e => Sys2Proof.Machine.execSscan e s
  | .rsum e => Sys2Proof.Machine.execRsum e s
  | .rmin e => Sys2Proof.Machine.execRmin e s
  | .rmax e => Sys2Proof.Machine.execRmax e s
  | .exp2 e => Sys2Proof.Machine.execExp2 e s
  | .log2 e => Sys2Proof.Machine.execLog2 e s
  | .rcp e => Sys2Proof.Machine.execRcp e s
  | .rsqrt e => Sys2Proof.Machine.execRsqrt e s
  | .tanh e => Sys2Proof.Machine.execTanh e s
  | .xclr e => Sys2Proof.Machine.execXclr e s
  | .xadd e => Sys2Proof.Machine.execXadd e s
  | .xrd e => Sys2Proof.Machine.execXrd e s
  | .xst e => Sys2Proof.Machine.execXst e s
  | .xmrg e => Sys2Proof.Machine.execXmrg e s
  | .sset e => Sys2Proof.Machine.execSset e s
  | .sadd e => Sys2Proof.Machine.execSadd e s
  | .sadd64 e => Sys2Proof.Machine.execSadd64 e s
  | .smovv e => Sys2Proof.Machine.execSmovv e s
  | .xrds e => Sys2Proof.Machine.execXrds e s
  | .gblk e => Sys2Proof.Machine.execGblk e s
  | .loop e => Sys2Proof.Machine.execLoop e s
  | .rctx e => Sys2Proof.Machine.execRctx e s
  | .popq e => Sys2Proof.Machine.execPopq e s
  | .pushq e => Sys2Proof.Machine.execPushq e s
  | .group e => Sys2Proof.Machine.execGroup e s
  | .halt e => Sys2Proof.Machine.execHalt e s
  | .veGroupCompletion e => Sys2Proof.Machine.execVeGroupCompletion e s
  | .slotArm m pl => Sys2Proof.Machine.execSlotArm m pl s
  | .slotDisarm m => Sys2Proof.Machine.execSlotDisarm m s
  | .repetitionPops n slot => Sys2Proof.Machine.execRepetitionPops n slot s
  | .repetitionReads n slot => Sys2Proof.Machine.execRepetitionReads n slot s
  | .repetitionCompletion n slot at' => Sys2Proof.Machine.execRepetitionCompletion n slot at' s
  | .shadowMove n slot => Sys2Proof.Machine.execShadowMove n slot s
  | .runaheadFetch n slot => Sys2Proof.Machine.execRunaheadFetch n slot s
  | .watchGrant m => Sys2Proof.Machine.execWatchGrant m s
  | .leashExpiry n slot => Sys2Proof.Machine.execLeashExpiry n slot s
  | .memoryRead n slot ecc => Sys2Proof.Machine.execMemoryRead n slot ecc s
  | .memoryWrite n slot => Sys2Proof.Machine.execMemoryWrite n slot s
  | .migrationStart m => Sys2Proof.Machine.execMigrationStart m s
  | .migrationComplete k pg ues => Sys2Proof.Machine.execMigrationComplete k pg ues s
  | .frameWaitTimeout k pg => Sys2Proof.Machine.execFrameWaitTimeout k pg s
  | .hintUpdate t v => Sys2Proof.Machine.execHintUpdate t v s
  | .portEnable p v => Sys2Proof.Machine.execPortEnable p v s
  | .portRetrain p v => Sys2Proof.Machine.execPortRetrain p v s
  | .trainingComplete p => Sys2Proof.Machine.execTrainingComplete p s
  | .trainingTimeout p => Sys2Proof.Machine.execTrainingTimeout p s
  | .qualifyWindowEnd p ucw csym syms => Sys2Proof.Machine.execQualifyWindowEnd p ucw csym syms s
  | .negotiateTimeout p => Sys2Proof.Machine.execNegotiateTimeout p s
  | .negSend p => Sys2Proof.Machine.execNegSend p s
  | .neg p r => Sys2Proof.Machine.execNeg p r s
  | .negDone p r => Sys2Proof.Machine.execNegDone p r s
  | .pcsLockLoss p => Sys2Proof.Machine.execPcsLockLoss p s
  | .degradeWindow p csym syms => Sys2Proof.Machine.execDegradeWindow p csym syms s
  | .idle p r => Sys2Proof.Machine.execIdle p r s
  | .ackTimeout p => Sys2Proof.Machine.execAckTimeout p s
  | .flitSlot p ofs => Sys2Proof.Machine.execFlitSlot p ofs s
  | .strictWindow p => Sys2Proof.Machine.execStrictWindow p s
  | .tcred p r => Sys2Proof.Machine.execTcred p r s
  | .bark p r arr => Sys2Proof.Machine.execBark p r arr s
  | .red p r => Sys2Proof.Machine.execRed p r s
  | .redX p r => Sys2Proof.Machine.execRedX p r s
  | .localContribution n slot => Sys2Proof.Machine.execLocalContribution n slot s
  | .entryLeashExpiry t => Sys2Proof.Machine.execEntryLeashExpiry t s
  | .mcast p r => Sys2Proof.Machine.execMcast p r s
  | .readReq p r ecc => Sys2Proof.Machine.execReadReq p r ecc s
  | .readRsp p r => Sys2Proof.Machine.execReadRsp p r s
  | .peerReadTimeout rid => Sys2Proof.Machine.execPeerReadTimeout rid s
  | .keySwitch k => Sys2Proof.Machine.execKeySwitch k s
  | .oldKeyErase k => Sys2Proof.Machine.execOldKeyErase k s
  | .rcvAbort p r => Sys2Proof.Machine.execRcvAbort p r s
  | .rcvNbr p r => Sys2Proof.Machine.execRcvNbr p r s
  | .rcvQuiet p r => Sys2Proof.Machine.execRcvQuiet p r s
  | .rcvLost p r => Sys2Proof.Machine.execRcvLost p r s
  | .rcvAdopt p r => Sys2Proof.Machine.execRcvAdopt p r s
  | .rcvJoin p r => Sys2Proof.Machine.execRcvJoin p r s
  | .rcvGo p r rebuilt => Sys2Proof.Machine.execRcvGo p r rebuilt s
  | .rcvEnd p r => Sys2Proof.Machine.execRcvEnd p r s
  | .rcvCommitted p r => Sys2Proof.Machine.execRcvCommitted p r s
  | .rcvSealed p r => Sys2Proof.Machine.execRcvSealed p r s
  | .coordinatorRoundEnd k => Sys2Proof.Machine.execCoordinatorRoundEnd k s
  | .joinTimeout k => Sys2Proof.Machine.execJoinTimeout k s
  | .updateReport k q => Sys2Proof.Machine.execUpdateReport k q s
  | .freezeApply k step => Sys2Proof.Machine.execFreezeApply k step s
  | .ptpSync domain ident logInt t1 t2 inTime => Sys2Proof.Machine.execPtpSync domain ident logInt t1 t2 inTime s
  | .ptpAnnounce domain ident prio steps logInt => Sys2Proof.Machine.execPtpAnnounce domain ident prio steps logInt s
  | .ptpDelayResp domain delay => Sys2Proof.Machine.execPtpDelayResp domain delay s
  | .delayReqTimeout => Sys2Proof.Machine.execDelayReqTimeout s
  | .syncTimeout => Sys2Proof.Machine.execSyncTimeout s
  | .announceTimeout => Sys2Proof.Machine.execAnnounceTimeout s
  | .ppsEdge t low high => Sys2Proof.Machine.execPpsEdge t low high s
  | .ppsTimeout => Sys2Proof.Machine.execPpsTimeout s
  | .parentBarkTimeout => Sys2Proof.Machine.execParentBarkTimeout s
  | .holdoverExpiry => Sys2Proof.Machine.execHoldoverExpiry s
  | .ppsOutput => Sys2Proof.Machine.execPpsOutput s
  | .beatBoundary => Sys2Proof.Machine.execBeatBoundary s
  | .startBeat k => Sys2Proof.Machine.execStartBeat k s
  | .attachDb p n v => Sys2Proof.Machine.execAttachDb p n v s
  | .mbxAttach p n mcb writeOk => Sys2Proof.Machine.execMbxAttach p n mcb writeOk s
  | .mbxDb p n m v => Sys2Proof.Machine.execMbxDb p n m v s
  | .requestBegin m f => Sys2Proof.Machine.execRequestBegin m f s
  | .completionRingStall m => Sys2Proof.Machine.execCompletionRingStall m s
  | .mailboxFree m => Sys2Proof.Machine.execMailboxFree m s
  | .evtLost m => Sys2Proof.Machine.execEvtLost m s
  | .interruptCoalesce m => Sys2Proof.Machine.execInterruptCoalesce m s
  | .nopCommand m => Sys2Proof.Machine.execNopCommand m s
  | .devInfo m => Sys2Proof.Machine.execDevInfo m s
  | .devState m => Sys2Proof.Machine.execDevState m s
  | .mbxDetach m => Sys2Proof.Machine.execMbxDetach m s
  | .eventMask m => Sys2Proof.Machine.execEventMask m s
  | .readUnit m => Sys2Proof.Machine.execReadUnit m s
  | .devReady m => Sys2Proof.Machine.execDevReady m s
  | .devConfig m => Sys2Proof.Machine.execDevConfig m s
  | .devDrain m => Sys2Proof.Machine.execDevDrain m s
  | .devSafe m => Sys2Proof.Machine.execDevSafe m s
  | .devResume m => Sys2Proof.Machine.execDevResume m s
  | .devReset m => Sys2Proof.Machine.execDevReset m s
  | .cfgGet m => Sys2Proof.Machine.execCfgGet m s
  | .cfgStage m pl => Sys2Proof.Machine.execCfgStage m pl s
  | .cfgCommit m writeOk applyOk backOk => Sys2Proof.Machine.execCfgCommit m writeOk applyOk backOk s
  | .cfgRollback m applyOk => Sys2Proof.Machine.execCfgRollback m applyOk s
  | .cfgDiscard m => Sys2Proof.Machine.execCfgDiscard m s
  | .imgWrite m pl => Sys2Proof.Machine.execImgWrite m pl s
  | .imgActivate m chk => Sys2Proof.Machine.execImgActivate m chk s
  | .kennelCreate m pl => Sys2Proof.Machine.execKennelCreate m pl s
  | .kennelDestroy m => Sys2Proof.Machine.execKennelDestroy m s
  | .kennelTeardownDone k => Sys2Proof.Machine.execKennelTeardownDone k s
  | .unitClearDone die u => Sys2Proof.Machine.execUnitClearDone die u s
  | .quotaSet m pl => Sys2Proof.Machine.execQuotaSet m pl s
  | .kennelKey m pl key => Sys2Proof.Machine.execKennelKey m pl key s
  | .spdmMsg m pl => Sys2Proof.Machine.execSpdmMsg m pl s
  | .spdmGetMeasurements m pl => Sys2Proof.Machine.execSpdmGetMeasurements m pl s
  | .spdmKeyExchange m pl session => Sys2Proof.Machine.execSpdmKeyExchange m pl session s
  | .spdmVendorDefinedRequest m pl key => Sys2Proof.Machine.execSpdmVendorDefinedRequest m pl key s
  | .spdmOtherRequest m pl session => Sys2Proof.Machine.execSpdmOtherRequest m pl session s
  | .map m => Sys2Proof.Machine.execMap m s
  | .unmap m => Sys2Proof.Machine.execUnmap m s
  | .memWrite m pl => Sys2Proof.Machine.execMemWrite m pl s
  | .memRead m ecc => Sys2Proof.Machine.execMemRead m ecc s
  | .migrate m => Sys2Proof.Machine.execMigrate m s
  | .hqSet m => Sys2Proof.Machine.execHqSet m s
  | .hqPush m => Sys2Proof.Machine.execHqPush m s
  | .hqFlush m => Sys2Proof.Machine.execHqFlush m s
  | .litterSet m => Sys2Proof.Machine.execLitterSet m s
  | .treeSet m => Sys2Proof.Machine.execTreeSet m s
  | .scalarSet m => Sys2Proof.Machine.execScalarSet m s
  | .taskCreate m => Sys2Proof.Machine.execTaskCreate m s
  | .taskCreationDone k => Sys2Proof.Machine.execTaskCreationDone k s
  | .taskStart m => Sys2Proof.Machine.execTaskStart m s
  | .taskStop m => Sys2Proof.Machine.execTaskStop m s
  | .taskAbort m => Sys2Proof.Machine.execTaskAbort m s
  | .taskDestroy m => Sys2Proof.Machine.execTaskDestroy m s
  | .taskStatus m => Sys2Proof.Machine.execTaskStatus m s
  | .batchPut m pl => Sys2Proof.Machine.execBatchPut m pl s
  | .batchWaitTimeout k => Sys2Proof.Machine.execBatchWaitTimeout k s
  | .schedSet m pl => Sys2Proof.Machine.execSchedSet m pl s
  | .freezeSet m pl => Sys2Proof.Machine.execFreezeSet m pl s
  | .taskStandby m => Sys2Proof.Machine.execTaskStandby m s
  | .timeGet m => Sys2Proof.Machine.execTimeGet m s
  | .watchdogExpiry => Sys2Proof.Machine.execWatchdogExpiry s
  | .functionLevelReset p n => Sys2Proof.Machine.execFunctionLevelReset p n s
  | .busMasterDisable p n => Sys2Proof.Machine.execBusMasterDisable p n s
  | .d3hotEntry p n => Sys2Proof.Machine.execD3hotEntry p n s
  | .msixEnableClear p n => Sys2Proof.Machine.execMsixEnableClear p n s
  | .vfDisable p n => Sys2Proof.Machine.execVfDisable p n s
  | .hostLinkLoss p => Sys2Proof.Machine.execHostLinkLoss p s
  | .hostPortTrain p rate width flitMode => Sys2Proof.Machine.execHostPortTrain p rate width flitMode s
  | .fnStatusWrite p n v => Sys2Proof.Machine.execFnStatusWrite p n v s
  | .fnIntCtrlWrite p n v => Sys2Proof.Machine.execFnIntCtrlWrite p n v s
  | .msixUnmask p n u => Sys2Proof.Machine.execMsixUnmask p n u s
  | .vinInRange => Sys2Proof.Machine.execVinInRange s
  | .pwrEnRise => Sys2Proof.Machine.execPwrEnRise s
  | .railStepGood => Sys2Proof.Machine.execRailStepGood s
  | .railFault rail => Sys2Proof.Machine.execRailFault rail s
  | .railPowerLoss rail => Sys2Proof.Machine.execRailPowerLoss rail s
  | .pwrEnFall => Sys2Proof.Machine.execPwrEnFall s
  | .inputLoss => Sys2Proof.Machine.execInputLoss s
  | .inputOvercurrent => Sys2Proof.Machine.execInputOvercurrent s
  | .sensorTrip id => Sys2Proof.Machine.execSensorTrip id s
  | .railOffStep => Sys2Proof.Machine.execRailOffStep s
  | .modRst held => Sys2Proof.Machine.execModRst held s
  | .hpPerst p => Sys2Proof.Machine.execHpPerst p s
  | .boot b => Sys2Proof.Machine.execBoot b s
  | .sensorSample id v => Sys2Proof.Machine.execSensorSample id v s
  | .sensorTimeout id => Sys2Proof.Machine.execSensorTimeout id s
  | .limitCleared id => Sys2Proof.Machine.execLimitCleared id s
  | .throttleUpdate => Sys2Proof.Machine.execThrottleUpdate s
  | .throttleWindow => Sys2Proof.Machine.execThrottleWindow s
  | .throttleSafe => Sys2Proof.Machine.execThrottleSafe s
  | .pldmSetEffecter watts => Sys2Proof.Machine.execPldmSetEffecter watts s
  | .pldmGetSensor id => Sys2Proof.Machine.execPldmGetSensor id s
  | .pldmFruRead => Sys2Proof.Machine.execPldmFruRead s
  | .pldmRequestUpdate => Sys2Proof.Machine.execPldmRequestUpdate s
  | .pldmActivate chk => Sys2Proof.Machine.execPldmActivate chk s
  | .imgSlotHoldTimeout => Sys2Proof.Machine.execImgSlotHoldTimeout s
  | .i3cEntdaa addr => Sys2Proof.Machine.execI3cEntdaa addr s
  | .mctpPacket pkt => Sys2Proof.Machine.execMctpPacket pkt s
  | .mctpReassemblyTimeout => Sys2Proof.Machine.execMctpReassemblyTimeout s
  | .ethSeekTimeout => Sys2Proof.Machine.execEthSeekTimeout s
  | .ethLockLoss => Sys2Proof.Machine.execEthLockLoss s
  | .ethFrame f => Sys2Proof.Machine.execEthFrame f s
  | .securityCoreFault => Sys2Proof.Machine.execSecurityCoreFault s
  | .emergencyLatchRelease => Sys2Proof.Machine.execEmergencyLatchRelease s
  | .ethLinkLock slow => Sys2Proof.Machine.execEthLinkLock slow s
  | .ptpDelayReqSend => Sys2Proof.Machine.execPtpDelayReqSend s
  | .mctpSetEndpointId eid => Sys2Proof.Machine.execMctpSetEndpointId eid s
  | .pldmCancelUpdate => Sys2Proof.Machine.execPldmCancelUpdate s
  | .pldmFirmwareData ofs bytes => Sys2Proof.Machine.execPldmFirmwareData ofs bytes s
  | .vfEnable p n => Sys2Proof.Machine.execVfEnable p n s

end Sys2Proof.Machine
end

