-- ==== Sys2Proof/WellFormed.lean ====
section
/-! DEFINITION. What the operands of a command must satisfy beyond their types: unit numbers, flit fields and sizes that
the spec gives. A meaning is defined on every term; an ill-formed one stands for no event of the hardware. -/

namespace Sys2Proof

open Sys2Proof.Machine

/-- The unit exists: 48 sequencers and VEs, 80 stream engines of 32 slots, 16 ports (R16, Table 6-1). -/
def Machine.UnitId.wf (u : UnitId) : Bool :=
  match u with
  | .fw => true
  | .seq e => e < 48
  | .ve e => e < 48
  | .se n slot => n < 80 && slot < 32
  | .zl p => p < 16

/-- The fields of a flit fit their places (Tables 8-3 and 8-4). -/
def Machine.RxFlit.wf (r : RxFlit) : Bool :=
  r.flit.ftype < 16 && r.flit.tc < 4 && r.flit.ktag < 64 && r.flit.pay.length ≤ 256 && r.seq < 1024 && r.ack < 1024

/-- A BAR access is 4 or 8 bytes, aligned (R428). -/
def Machine.Reg.wf (r : Reg) : Bool :=
  match r with
  | .bar _ _ ofs size => (size == 4 || size == 8) && ofs.toNat % size.toNat == 0
  | _ => true

/-- A failed channel is one of 12 stacks or 48 far channels, a failed self-test names a pair or no engine (Table 15-5). -/
def Machine.BootIn.wf (b : BootIn) : Bool :=
  b.memFail.all (fun c => c < 12 || (0x100 ≤ c && c < 0x130)) && b.selfTest.all (fun e => e < 48 || e == 0xFFFF)

/-- The command is one that the hardware's surroundings can send. -/
def Instr.wf (i : Instr) : Bool :=
  match i with
  | .registerWrite reg _ => reg.wf
  | .seqStart _ _ => true
  | .seqAbort _ _ => true
  | .sliceTakeUp _ => true
  | .biscuitArrival u => u.wf
  | .sliceIssue _ => true
  | .weightLoad _ => true
  | .promotion _ _ _ => true
  | .drain _ upsets => upsets.all (· < 65536)
  | .checkCycle _ => true
  | .sliceCompletion _ => true
  | .haltDescriptor _ => true
  | .queuePush u => u.wf
  | .queuePop u => u.wf
  | .pushRetry u => u.wf
  | .veStart _ _ => true
  | .veAbort _ _ => true
  | .taskSeedWrite _ _ => true
  | .nop _ => true
  | .fadd _ => true
  | .fsub _ => true
  | .fmul _ => true
  | .fma _ => true
  | .fnma _ => true
  | .fmin _ => true
  | .fmax _ => true
  | .fcmp _ => true
  | .sel _ => true
  | .mov _ => true
  | .iadd _ => true
  | .isub _ => true
  | .imin _ => true
  | .imax _ => true
  | .icmp _ => true
  | .cvt _ => true
  | .qnt _ => true
  | .itof _ => true
  | .ftoi _ => true
  | .ld _ => true
  | .st _ => true
  | .sts _ => true
  | .gld _ => true
  | .gst _ => true
  | .glog _ => true
  | .psum _ => true
  | .sscan _ => true
  | .rsum _ => true
  | .rmin _ => true
  | .rmax _ => true
  | .exp2 _ => true
  | .log2 _ => true
  | .rcp _ => true
  | .rsqrt _ => true
  | .tanh _ => true
  | .xclr _ => true
  | .xadd _ => true
  | .xrd _ => true
  | .xst _ => true
  | .xmrg _ => true
  | .sset _ => true
  | .sadd _ => true
  | .sadd64 _ => true
  | .smovv _ => true
  | .xrds _ => true
  | .gblk _ => true
  | .loop _ => true
  | .rctx _ => true
  | .popq _ => true
  | .pushq _ => true
  | .group _ => true
  | .halt _ => true
  | .veGroupCompletion _ => true
  | .slotArm _ _ => true
  | .slotDisarm _ => true
  | .repetitionPops _ _ => true
  | .repetitionReads _ _ => true
  | .repetitionCompletion _ _ _ => true
  | .shadowMove _ _ => true
  | .runaheadFetch _ _ => true
  | .watchGrant _ => true
  | .leashExpiry _ _ => true
  | .memoryRead _ _ _ => true
  | .memoryWrite _ _ => true
  | .migrationStart _ => true
  | .migrationComplete _ _ _ => true
  | .frameWaitTimeout _ _ => true
  | .hintUpdate _ _ => true
  | .portEnable _ _ => true
  | .portRetrain _ _ => true
  | .trainingComplete _ => true
  | .trainingTimeout _ => true
  | .qualifyWindowEnd _ _ _ _ => true
  | .negotiateTimeout _ => true
  | .negSend _ => true
  | .neg _ r => r.wf
  | .negDone _ r => r.wf
  | .pcsLockLoss _ => true
  | .degradeWindow _ _ _ => true
  | .idle _ r => r.wf
  | .ackTimeout _ => true
  | .flitSlot _ _ => true
  | .strictWindow _ => true
  | .tcred _ r => r.wf
  | .bark _ r _ => r.wf
  | .red _ r => r.wf
  | .redX _ r => r.wf
  | .localContribution _ _ => true
  | .entryLeashExpiry _ => true
  | .mcast _ r => r.wf
  | .readReq _ r _ => r.wf
  | .readRsp _ r => r.wf
  | .peerReadTimeout _ => true
  | .keySwitch _ => true
  | .oldKeyErase _ => true
  | .rcvAbort _ r => r.wf
  | .rcvNbr _ r => r.wf
  | .rcvQuiet _ r => r.wf
  | .rcvLost _ r => r.wf
  | .rcvAdopt _ r => r.wf
  | .rcvJoin _ r => r.1.wf
  | .rcvGo _ r _ => r.wf
  | .rcvEnd _ r => r.wf
  | .rcvCommitted _ r => r.wf
  | .rcvSealed _ r => r.wf
  | .coordinatorRoundEnd _ => true
  | .joinTimeout _ => true
  | .updateReport _ _ => true
  | .freezeApply _ _ => true
  | .ptpSync _ _ _ _ _ _ => true
  | .ptpAnnounce _ _ _ _ _ => true
  | .ptpDelayResp _ _ => true
  | .delayReqTimeout => true
  | .syncTimeout => true
  | .announceTimeout => true
  | .ppsEdge _ _ _ => true
  | .ppsTimeout => true
  | .parentBarkTimeout => true
  | .holdoverExpiry => true
  | .ppsOutput => true
  | .beatBoundary => true
  | .startBeat _ => true
  | .attachDb _ _ _ => true
  | .mbxAttach _ _ mcb _ => mcb.all (·.length == 64)
  | .mbxDb _ _ _ _ => true
  | .requestBegin _ _ => true
  | .completionRingStall _ => true
  | .mailboxFree _ => true
  | .evtLost _ => true
  | .interruptCoalesce _ => true
  | .nopCommand _ => true
  | .devInfo _ => true
  | .devState _ => true
  | .mbxDetach _ => true
  | .eventMask _ => true
  | .readUnit _ => true
  | .devReady _ => true
  | .devConfig _ => true
  | .devDrain _ => true
  | .devSafe _ => true
  | .devResume _ => true
  | .devReset _ => true
  | .cfgGet _ => true
  | .cfgStage _ _ => true
  | .cfgCommit _ _ _ _ => true
  | .cfgRollback _ _ => true
  | .cfgDiscard _ => true
  | .imgWrite _ _ => true
  | .imgActivate _ _ => true
  | .kennelCreate _ _ => true
  | .kennelDestroy _ => true
  | .kennelTeardownDone _ => true
  | .unitClearDone _ _ => true
  | .quotaSet _ _ => true
  | .kennelKey _ _ _ => true
  | .spdmMsg _ _ => true
  | .spdmGetMeasurements _ _ => true
  | .spdmKeyExchange _ _ _ => true
  | .spdmVendorDefinedRequest _ _ _ => true
  | .spdmOtherRequest _ _ _ => true
  | .map _ => true
  | .unmap _ => true
  | .memWrite _ _ => true
  | .memRead _ _ => true
  | .migrate _ => true
  | .hqSet _ => true
  | .hqPush _ => true
  | .hqFlush _ => true
  | .litterSet _ => true
  | .treeSet _ => true
  | .scalarSet _ => true
  | .taskCreate _ => true
  | .taskCreationDone _ => true
  | .taskStart _ => true
  | .taskStop _ => true
  | .taskAbort _ => true
  | .taskDestroy _ => true
  | .taskStatus _ => true
  | .batchPut _ _ => true
  | .batchWaitTimeout _ => true
  | .schedSet _ _ => true
  | .freezeSet _ _ => true
  | .taskStandby _ => true
  | .timeGet _ => true
  | .watchdogExpiry => true
  | .functionLevelReset _ _ => true
  | .busMasterDisable _ _ => true
  | .d3hotEntry _ _ => true
  | .msixEnableClear _ _ => true
  | .vfDisable _ _ => true
  | .hostLinkLoss _ => true
  | .hostPortTrain _ _ width _ => 1 ≤ width && width ≤ 16
  | .fnStatusWrite _ _ _ => true
  | .fnIntCtrlWrite _ _ _ => true
  | .msixUnmask _ _ _ => true
  | .vinInRange => true
  | .pwrEnRise => true
  | .railStepGood => true
  | .railFault _ => true
  | .railPowerLoss _ => true
  | .pwrEnFall => true
  | .inputLoss => true
  | .inputOvercurrent => true
  | .sensorTrip id => id.val != 0
  | .railOffStep => true
  | .modRst _ => true
  | .hpPerst _ => true
  | .boot b => b.wf
  | .sensorSample id _ => id.val != 0
  | .sensorTimeout id => id.val != 0
  | .limitCleared id => id.val != 0
  | .throttleUpdate => true
  | .throttleWindow => true
  | .throttleSafe => true
  | .pldmSetEffecter _ => true
  | .pldmGetSensor _ => true
  | .pldmFruRead => true
  | .pldmRequestUpdate => true
  | .pldmActivate _ => true
  | .imgSlotHoldTimeout => true
  | .i3cEntdaa _ => true
  | .mctpPacket _ => true
  | .mctpReassemblyTimeout => true
  | .ethSeekTimeout => true
  | .ethLockLoss => true
  | .ethFrame _ => true
  | .securityCoreFault => true
  | .emergencyLatchRelease => true
  | .ethLinkLock _ => true
  | .ptpDelayReqSend => true
  | .mctpSetEndpointId _ => true
  | .pldmCancelUpdate => true
  | .pldmFirmwareData _ _ => true
  | .vfEnable _ _ => true

end Sys2Proof
end

