-- ==== Sys2Proof/Safety.lean ====
section
/-! DEFINITION. The terms in which claims say that a run is safe. -/

namespace Sys2Proof.Machine

/-- Nothing waits to be acted on at once: no fault report (R394), no result completed at a root (R284), no round whose
units are quiet without its QUIET sent (R401), no commit whose parity stripes are being exchanged (R409). -/
def Calm (d : Dev) : Prop := (d.reports = [] ∧ d.delivered = []) ∧ quietDue d = false ∧ parityDue d = false

/-- Every report that a unit has made has been acted on (R394). -/
def State.answered (s : State) : Prop := s.d.reports = []

/-- A run is safe while every step answers a next state. -/
def State.steps (s : State) : Prop := ∃ t, step s = .next t

end Sys2Proof.Machine
end

