-- ==== Sys2Proof/Certificates/Slice0/Obligations.lean ====
section
/-! DEFINITION. The statements: what the spec's rules say the commands do, for the provers. -/

/-! ### Terms of the statements -/

namespace Sys2Proof.Machine

/-- The module has power, and nothing waits to be acted on. -/
def Awake (d : Dev) : Prop := d.dstate ≠ .off ∧ Calm d

/-- The command has completed: the device is `d`, and the queue is as before. -/
abbrev becomes (s : State) (d : Dev) : Host.Outcome State Fault Refusal := .next { s with d := d }

/-- A pair with its VE replaced. -/
abbrev withVe (p : Pair) (x : Ve) : Pair := { p with ve := x }

/-- The VE of a present pair runs and its next instruction, with word `w` and row `i` of Table 5-4, passes its checks and is
not held (R141, R163). -/
def VeReady (d : Dev) (e : Eng) (w : DWord) (i : VInfo) : Prop :=
  Awake d ∧ present d e.val = true ∧ (pair d e.val).ve.run = true ∧ veFetchFits (pair d e.val).ve = true ∧ veFetch d e.val = w
    ∧ vInfo w = some i ∧ veBlocked d (pair d e.val).ve i w = false ∧ wordCheck w = none

/-- The ECLK in which that instruction issues. -/
def veTime (d : Dev) (e : Eng) (w : DWord) (i : VInfo) : Nat := veIssueAt d (pair d e.val).ve i w

/-- The index of that instruction. -/
def vePlace (d : Dev) (e : Eng) : Nat := (pair d e.val).ve.pcNext

/-- The device after that instruction has issued: the pair is `p` with the bookkeeping of an issue, and everything else is
as in `d`. -/
def veAfter (d : Dev) (e : Eng) (w : DWord) (i : VInfo) (p : Pair) (next : Nat) : Dev :=
  modPair d e.val (fun _ => { p with
    ve := veIssued p.ve i w (vePlace d e) (veTime d e w i) next
    history := (noteScalars d.eclk (pair d e.val) (scalarWrites i w) (veTime d e w i + vLat i w)).history })

end Sys2Proof.Machine

/-! ### The vector engine (chapter 5) -/

namespace Sys2Proof.Machine

/-- Instructions that combine VA and B lane by lane, with their opcodes (Table 5-4). -/
def binRows (e : Eng) : List (Nat × Instr × (Word → Word → Word)) :=
  [(0x01, .fadd e, fadd), (0x02, .fsub e, fsub), (0x03, .fmul e, fmul), (0x06, .fmin e, fmin), (0x07, .fmax e, fmax),
    (0x10, .iadd e, fun a b => a + b), (0x11, .isub e, fun a b => a - b),
    (0x12, .imin e, fun a b => if b.toInt < a.toInt then b else a), (0x13, .imax e, fun a b => if a.toInt < b.toInt then b else a)]

/-- Instructions that write vector lanes from the pair's registers. -/
def laneRows (e : Eng) : List (Nat × Instr × (Pair → DWord → List Word)) :=
  [(0x04, .fma e, fun p w => List.zipWith (fun g c => g c) (List.zipWith ffma (lanes p.ve (vVA w)) (bOperand p w)) (lanes p.ve (vVC w))),
    (0x05, .fnma e, fun p w => List.zipWith (fun g c => g c) (List.zipWith ffnma (lanes p.ve (vVA w)) (bOperand p w)) (lanes p.ve (vVC w))),
    (0x0A, .mov e, fun p w => (bOperand p w).map (movSign (vMod w))),
    (0x18, .cvt e, fun p w => (lanes p.ve (vVA w)).mapIdx (fun l v =>
      widen (if vMod w = 1 then bf16 else fp16) ((if vMod w = 1 then bf16 else fp16).encodeR (laneRounding p w l) (decW v)))),
    (0x1A, .itof e, fun p w => (lanes p.ve (vVA w)).map itof), (0x1B, .ftoi e, fun p w => (lanes p.ve (vVA w)).map ftoi),
    (0x30, .psum e, fun p w => psum (vMod w) (lanes p.ve (vVA w))),
    (0x32, .rsum e, fun p w => reduceSegments fadd (vMod w) (lanes p.ve (vVA w))),
    (0x33, .rmin e, fun p w => reduceSegments fmin (vMod w) (lanes p.ve (vVA w))),
    (0x34, .rmax e, fun p w => reduceSegments fmax (vMod w) (lanes p.ve (vVA w))),
    (0x38, .exp2 e, fun p w => (lanes p.ve (vVA w)).map exp2W), (0x39, .log2 e, fun p w => (lanes p.ve (vVA w)).map log2W),
    (0x3A, .rcp e, fun p w => (lanes p.ve (vVA w)).map rcpW), (0x3B, .rsqrt e, fun p w => (lanes p.ve (vVA w)).map rsqrtW),
    (0x3C, .tanh e, fun p w => (lanes p.ve (vVA w)).map tanhW),
    (0x42, .xrd e, fun p w => (List.range 32).map (fun i => xround (vMod w) (xelem p.ve i)) ++ List.replicate 480 0)]

/-- Instructions that write a guard, or vector registers in a way of their own: the pair after them. -/
def guardRows (e : Eng) : List (Nat × Instr × (Pair → DWord → Pair)) :=
  [(0x00, .nop e, fun p _ => p),
    (0x08, .fcmp e, fun p w => { p with ve := writeGuard p.ve w (maskOf (List.zipWith (fcmp (vMod w)) (lanes p.ve (vVA w)) (bOperand p w))) }),
    (0x14, .icmp e, fun p w => { p with ve := writeGuard p.ve w (maskOf (List.zipWith (icmp (vMod w)) (lanes p.ve (vVA w)) (bOperand p w))) }),
    (0x28, .glog e, fun p w => { p with ve := writeGuard p.ve w (guardLogic (vMod w) (guardReg p.ve (vVA w)) (guardReg p.ve (vB w))) }),
    (0x09, .sel e, fun p w => { p with ve := setLanes p.ve (vVD w) (mergeLanes (guardReg p.ve (vG w)) (bOperand p w) (lanes p.ve (vVA w))) }),
    (0x31, .sscan e, fun p w => withVe p (setLanes p.ve (vVD w)
      (sscan (vMod w) ((lanes p.ve (vVA w)).mapIdx (fun l v => (v, (guardReg p.ve (vG w)).getLsbD l || l == 0)))))),
    (0x40, .xclr e, fun p _ => { p with ve := { p.ve with xacc := [] } }),
    (0x19, .qnt e, fun p w =>
      let x := setLanes p.ve (vVD w) (mergeLanes (blockGuard (guardReg p.ve (vG w))) (lanes p.ve (vVD w)) ((qntBlocks p w).flatMap (·.2)))
      withVe p (setLanes x (vVC w) ((List.zip (qntBlocks p w) ((lanes x (vVC w)).take 16)).mapIdx (fun b z =>
        if (guardReg p.ve (vG w)).getLsbD (32 * b) then BitVec.ofNat 32 z.1.1 else z.2) ++ List.replicate 496 0)))]

/-- Instructions that write scalar registers, the rounding context or a guard from a scalar: the pair after them. -/
def scalarRows (e : Eng) : List (Nat × Instr × (Pair → DWord → Pair)) :=
  [(0x50, .sset e, fun p w => setScalar p (vSD w) (BitVec.ofNat 32 (vImm w))),
    (0x51, .sadd e, fun p w => setScalar p (vSD w) (scalar p (vSA w) + BitVec.ofNat 32 (vImm w))),
    (0x52, .sadd64 e, fun p w => setScalarPair p (vSD w) (scalarPair p (vSA w) + BitVec.ofInt 64 (sext 32 (vImm w)))),
    (0x53, .smovv e, fun p w => setScalar p (vSD w) (Tbl.get 0 (Tbl.get [] p.ve.v (vVS w)) (fld w 8 0))),
    (0x54, .xrds e, fun p w => setScalar p (vSD w) (xround (vMod w) (xelem p.ve (fld w 4 0)))),
    (0x55, .gblk e, fun p w => withVe p (setGuard p.ve (vSD w) (BitVec.allOnes 512)
      (maskOf ((List.range 512).map (fun l => (scalar p (vSA w)).getLsbD (l / 32)))))),
    (0x59, .rctx e, fun p w => { p with ve := { p.ve with step := scalarPair p (vSA w), drawId := BitVec.ofNat 8 (fld w 7 0) } })]

/-- Loads from the operand cache: unit of the address, bytes, and the pair after them from the bytes read (R144). -/
def loadRows (e : Eng) : List (Nat × Instr × (DWord → Nat) × (Pair → DWord → List Byte → Pair)) :=
  [(0x20, .ld e, fun w => vecBytes (vMod w), fun p w bs => { p with ve := writeLanes p.ve w (loadLanes (vMod w) bs) }),
    (0x23, .gld e, fun _ => 64, fun p w bs => { p with ve := writeGuard p.ve w (BitVec.ofNat 512 (leNat bs)) })]

/-- Stores to the operand cache: unit of the address, bytes within its range, and the pieces written, by offset (R145, R146,
R157). -/
def storeRows (e : Eng) : List (Nat × Instr × Nat × (DWord → Nat) × (Pair → DWord → List (Nat × List Byte))) :=
  [(0x21, .st e, 64, fun w => vecBytes (vMod w), fun p w => storePieces (vMod w) (guardReg p.ve (vG w)) (lanes p.ve (vVA w))),
    (0x22, .sts e, 16, fun _ => 16, fun p w =>
      (((lanes p.ve (vVA w)).take 16).mapIdx (fun b v => (b, [v.setWidth 8]))).filter (fun z => (guardReg p.ve (vG w)).getLsbD (32 * z.1))),
    (0x24, .gst e, 64, fun _ => 64, fun p w => [(0, leBytes 64 (guardReg p.ve (vVA w)).toNat)]),
    (0x43, .xst e, 64, fun _ => 1536, fun p _ => [(0, (List.range 32).flatMap (fun i => leBytes 48 (xelem p.ve i).container))])]

end Sys2Proof.Machine

open Sys2Proof Sys2Proof.Machine

/-- Table 5-4, R140, R143: lane by lane on VA and B, into VD under the guard; nothing else but the VE's bookkeeping changes. -/
def Sys2Proof.Claim.VeBinaryLanes : Prop :=
  ∀ (e : Eng) (s : State) (w : DWord) (i : VInfo), VeReady s.d e w i → ∀ r ∈ binRows e, vOp w = r.1 →
    exec r.2.1 s = becomes s (veAfter s.d e w i
      (withVe (pair s.d e.val) (writeLanes (pair s.d e.val).ve w
          (List.zipWith r.2.2 (lanes (pair s.d e.val).ve (vVA w)) (bOperand (pair s.d e.val) w)))) (vePlace s.d e + 1))

/-- Table 5-4: the other instructions that write vector lanes. -/
def Sys2Proof.Claim.VeLaneResults : Prop :=
  ∀ (e : Eng) (s : State) (w : DWord) (i : VInfo), VeReady s.d e w i → ∀ r ∈ laneRows e, vOp w = r.1 →
    exec r.2.1 s = becomes s (veAfter s.d e w i
      (withVe (pair s.d e.val) (writeLanes (pair s.d e.val).ve w (r.2.2 (pair s.d e.val) w))) (vePlace s.d e + 1))

/-- Table 5-4: comparisons, guard logic, SEL, SSCAN, XCLR and NOP. -/
def Sys2Proof.Claim.VeGuardResults : Prop :=
  ∀ (e : Eng) (s : State) (w : DWord) (i : VInfo), VeReady s.d e w i → ∀ r ∈ guardRows e, vOp w = r.1 →
    exec r.2.1 s = becomes s (veAfter s.d e w i (r.2.2 (pair s.d e.val) w) (vePlace s.d e + 1))

/-- Table 5-4: scalar registers, GBLK and the rounding context. -/
def Sys2Proof.Claim.VeScalarResults : Prop :=
  ∀ (e : Eng) (s : State) (w : DWord) (i : VInfo), VeReady s.d e w i → ∀ r ∈ scalarRows e, vOp w = r.1 →
    exec r.2.1 s = becomes s (veAfter s.d e w i (r.2.2 (pair s.d e.val) w) (vePlace s.d e + 1))

/-- R144: a load reads the operand cache at scalar plus offset and writes no byte. -/
def Sys2Proof.Claim.VeLoads : Prop :=
  ∀ (e : Eng) (s : State) (w : DWord) (i : VInfo), VeReady s.d e w i → ∀ r ∈ loadRows e, vOp w = r.1 →
    ∀ a, accessAddr (pair s.d e.val) w 64 (r.2.2.1 w) = some a →
      exec r.2.1 s = becomes s (veAfter s.d e w i
        (r.2.2.2 (pair s.d e.val) w (Mem.read (cache s.d e.val) a (r.2.2.1 w))) (vePlace s.d e + 1))

/-- R144 to R146, R157: a store writes the named pieces of the pair's operand cache, no other byte of it, and nothing else but
the VE's bookkeeping. -/
def Sys2Proof.Claim.VeStores : Prop :=
  ∀ (e : Eng) (s : State) (w : DWord) (i : VInfo), VeReady s.d e w i → ∀ r ∈ storeRows e, vOp w = r.1 →
    ∀ a, accessAddr (pair s.d e.val) w r.2.2.1 (r.2.2.2.1 w) = some a →
      ∃ c, exec r.2.1 s = becomes s ({ veAfter s.d e w i (pair s.d e.val) (vePlace s.d e + 1) with caches := c })
        ∧ Tbl.get [] c e.val = (r.2.2.2.2 (pair s.d e.val) w).foldl (fun m z => Mem.write m (a + z.1) z.2) (cache s.d e.val)
        ∧ ∀ j, j ≠ e.val → Tbl.get [] c j = cache s.d j

/-- R155, R157, R158: XADD adds the guarded lanes of VA into the exact accumulator, and XMRG merges 32 stored containers;
where a count would pass 2²⁴ the instruction is refused whole with `XLIMIT`, and so is an XMRG of a container with a reserved
bit set. -/
def Obligations.VeExactAccumulator : Prop :=
  ∀ (e : Eng) (s : State) (w : DWord) (i : VInfo), VeReady s.d e w i →
    (vOp w = 0x41 →
      exec (.xadd e) s = if overLimit (xaddAcc (pair s.d e.val) w) then runPair e (fun d => veRefuse d e.val (vePlace s.d e) .range true) s
        else becomes s (veAfter s.d e w i
          (withVe (pair s.d e.val) ({ (pair s.d e.val).ve with xacc := xaddAcc (pair s.d e.val) w })) (vePlace s.d e + 1))) ∧
    (vOp w = 0x44 → ∀ a, accessAddr (pair s.d e.val) w 64 1536 = some a →
      exec (.xmrg e) s = match readContainers (cache s.d e.val) a with
        | none => runPair e (fun d => veRefuse d e.val (vePlace s.d e) .format false) s
        | some cs =>
          if overLimit (mergeAll (pair s.d e.val).ve.xacc cs) then runPair e (fun d => veRefuse d e.val (vePlace s.d e) .range true) s
          else becomes s (veAfter s.d e w i
            (withVe (pair s.d e.val) ({ (pair s.d e.val).ve with xacc := mergeAll (pair s.d e.val).ve.xacc cs })) (vePlace s.d e + 1)))

/-- R159 to R161: LOOP nests at most twice and within the enclosing body, a count of 0 skips it; POPQ and PUSHQ send their
request to the queue's home; GROUP and HALT close the beat group. -/
def Sys2Proof.Claim.VeProgramFlow : Prop :=
  ∀ (e : Eng) (s : State) (w : DWord) (i : VInfo), VeReady s.d e w i →
    let p := pair s.d e.val
    let pc := vePlace s.d e
    let c := veTime s.d e w i
    let count := if vMod w = 0 then fld w 21 0 else (scalar p (vSA w)).toNat
    (vOp w = 0x58 → p.ve.loops.length < 2 → (∀ l ∈ p.ve.loops.head?, pc + 1 + fld w 31 22 ≤ l.stop) →
      exec (.loop e) s = becomes s (veAfter s.d e w i
        (if count = 0 then p else { p with ve := { p.ve with loops := ⟨pc + 1, pc + 1 + fld w 31 22, count⟩ :: p.ve.loops } })
        (if count = 0 then pc + 1 + fld w 31 22 else pc + 1))) ∧
    (vOp w = 0x5A → exec (.popq e) s = becomes s ({ veAfter s.d e w i { p with ve := { p.ve with popTo := some (vSD w, pc) } } (pc + 1) with
      popReqs := s.d.popReqs ++ [⟨.ve e.val, 0, fld w 14 0, pairKennel s.d e.val, c⟩] })) ∧
    (vOp w = 0x5B → exec (.pushq e) s = becomes s ({ veAfter s.d e w i { p with ve := { p.ve with pushing := true } } (pc + 1) with
      pushReqs := s.d.pushReqs ++ [⟨.ve e.val, fld w 14 0, pairKennel s.d e.val, scalarPair p (vSA w), c, false⟩] })) ∧
    (vOp w = 0x5C → exec (.group e) s = becomes s (veAfter s.d e w i
      { p with ve := { closeGroup p.ve (fld w 7 0) c false with
        startMin := if bit w 8 then some (p.ve.gStart + fld w 7 0) else none } } (pc + 1))) ∧
    (vOp w = 0x5D → (fld w 7 0 ≠ 0 ∨ p.ve.afterGroup = true) → exec (.halt e) s = becomes s (veAfter s.d e w i
      { p with ve := closeGroup p.ve (fld w 7 0) c true } (pc + 1)))

/-- R163: an instruction that fails its own checks, or lies outside the tile store, is refused by whichever VE command is
sent: `RUN` clears, `REFUSED` sets, `REFUSE_SC` and `PC` say why and where, and the lanes, guards, accumulator, scalars and
operand cache keep their contents. A task of the kennel ends with the code. -/
def Sys2Proof.Claim.VeRefusal : Prop :=
  ∀ (e : Eng) (s : State) (op : Nat) (eff : VEffect) (c : Sc),
    Awake s.d → present s.d e.val = true → (pair s.d e.val).ve.run = true → veHeld s.d (pair s.d e.val).ve = false →
    (veFetchFits (pair s.d e.val).ve = false ∧ c = .range
      ∨ veFetchFits (pair s.d e.val).ve = true ∧ vInfo (veFetch s.d e.val) = none ∧ c = .format) →
    let d := modPair s.d e.val (fun p => { p with ve := { p.ve with refused := true, refuseSc := c.code, pc := p.ve.pcNext, run := false } })
    runPair e (fun d => veIssue d e.val op eff) s = becomes s (settle (taskEnding d (pairKennel s.d e.val) c))
      ∧ (runsTask s.d (pairKennel s.d e.val) = false → settle (taskEnding d (pairKennel s.d e.val) c) = d)

/-- R164 to R166: `START` resets the program state and starts at `PROG_BASE` while `RUN` is 0, and sets `CFG_ERR` while it is
1; `ABORT` clears `RUN`; `TASK_SEED` stores the seed while `RUN` is 0. -/
def Sys2Proof.Claim.VeControl : Prop :=
  ∀ (e : Eng) (s : State) (v : DWord), Awake s.d → present s.d e.val = true →
    let x := (pair s.d e.val).ve
    (x.run = false → ∃ t, exec (.veStart e v) s = .next t ∧
      (pair t.d e.val).ve = { cfg := accWrite veRw 0 x.cfg v, run := true, refuseSc := x.refuseSc, refused := x.refused, halted := x.halted
                              cfgErr := x.cfgErr, xlimit := x.xlimit, beat0 := x.beat0, seed := x.seed, overrunCnt := x.overrunCnt
                              base := fld (accWrite veRw 0 x.cfg v) 17 0, issueMin := s.d.eclk + 32, done := s.d.eclk + 32
                              visible := s.d.eclk + 32, gStart := x.beat0.toNat }
      ∧ (pair t.d e.val).scalars = (pair s.d e.val).scalars ∧ (pair t.d e.val).seq = (pair s.d e.val).seq ∧ t.d.caches = s.d.caches
      ∧ ∀ j, j ≠ e.val → pair t.d j = pair s.d j) ∧
    (x.run = true → exec (.veStart e v) s = becomes s (modPair s.d e.val (fun p =>
      { p with ve := { p.ve with cfg := accWrite veRw 0 x.cfg v, cfgErr := true } }))) ∧
    (x.run = true → ∃ t, exec (.veAbort e v) s = .next t ∧ (pair t.d e.val).ve.run = false ∧ (pair t.d e.val).ve.v = x.v
      ∧ (pair t.d e.val).ve.xacc = x.xacc ∧ (pair t.d e.val).ve.popTo = x.popTo ∧ t.d.popReqs = s.d.popReqs ∧ t.d.hqs = s.d.hqs
      ∧ t.d.pushReqs = s.d.pushReqs.filter (fun r => r.unit != .ve e.val) ∧ t.d.caches = s.d.caches ∧ ∀ j, j ≠ e.val → pair t.d j = pair s.d j) ∧
    (x.run = false → exec (.taskSeedWrite e v) s = becomes s (modPair s.d e.val (fun p => { p with ve := { p.ve with seed := v } }))) ∧
    (x.run = true → exec (.taskSeedWrite e v) s = becomes s (modPair s.d e.val (fun p => { p with ve := { p.ve with cfgErr := true } })))

/-- R162: at the completion point of a GROUP or HALT, an overrun is counted when work ended after the planned end, and a HALT
sets `HALTED` and clears `RUN`. -/
def Sys2Proof.Claim.VeGroupCompletes : Prop :=
  ∀ (e : Eng) (s : State) (c : Closer) (r : List Closer), Awake s.d → present s.d e.val = true →
    (pair s.d e.val).ve.closers = c :: r → c.popWait = false →
    exec (.veGroupCompletion e) s = becomes s (modPair s.d e.val (fun p => { p with ve := { p.ve with
      closers := r
      overrunCnt := if beatEclk s.d c.stop < c.ready then p.ve.overrunCnt + 1 else p.ve.overrunCnt
      lag := overrunBeats s.d (c.ready - beatEclk s.d c.stop)
      halted := p.ve.halted || c.halt, run := p.ve.run && !c.halt } }))

/-! ### The Strict format (chapter 2) -/

namespace Sys2Proof.Machine

/-- A way to group contributions: some taken one after another, or two groups combined (R58, R60). -/
inductive SumTree where
  | leaf (contributions : List Fp)
  | node (left right : SumTree)
deriving DecidableEq, Repr

/-- The accumulator that a grouping leaves. -/
def SumTree.total (t : SumTree) : Strict :=
  match t with
  | .leaf l => l.foldl Strict.addFp {}
  | .node a b => Strict.merge a.total b.total

/-- The contributions of a grouping, left to right. -/
def SumTree.contributions (t : SumTree) : List Fp :=
  match t with
  | .leaf l => l
  | .node a b => a.contributions ++ b.contributions

end Sys2Proof.Machine

/-- R62: a Strict result depends only on the multiset of contributions and on the output format: two groupings of the same contributions, in whatever order and shape, leave the
same accumulator, and so round to the same bits. -/
def Obligations.StrictOrderFree : Prop :=
  ∀ (a b : SumTree), a.contributions.Perm b.contributions → a.total = b.total ∧ encW a.total.value = encW b.total.value ∧ a.total.container = b.total.container

/-! ### Outer-product engines and slice sequencers (chapters 3 and 4) -/

namespace Sys2Proof.Machine

/-- Every engine pair but `e` is as before, and every scalar register and the VE of `e` too. -/
def OnlyArray (d d' : Dev) (e : Nat) : Prop :=
  (∀ j, j ≠ e → pair d' j = pair d j) ∧ (pair d' e).ve = (pair d e).ve ∧ (pair d' e).scalars = (pair d e).scalars

/-- A present pair's sequencer runs with no descriptor taken up, and its next descriptor is `x` (R107, R119). -/
def NextDesc (d : Dev) (e : Eng) (x : SDesc) : Prop :=
  Awake d ∧ present d e.val = true ∧ (pair d e.val).seq.run = true ∧ (pair d e.val).seq.cur = none
    ∧ descFits (pair d e.val).seq.addr = true ∧ fetchDesc (tile d e.val) (pair d e.val).seq.addr = x

/-- A byte that the drain of a slice may write: its rows at the destination with their scale bytes, and the rows of its stash
(R84, R117, R125). -/
def drainTouches (e : Nat) (x : SDesc) (sp u a : Nat) : Prop :=
  ∃ r < x.m,
    (drainStore e x = (sp, u) ∧ (x.dstAddr * 64 + r * x.dstPitch * 64 ≤ a ∧ a < x.dstAddr * 64 + r * x.dstPitch * 64 + ceilDiv (x.n * fmtBits x.drainFmt) 8
      ∨ isMx x.drainFmt = true ∧ x.dstSAddr * 16 + 8 * r ≤ a ∧ a < x.dstSAddr * 16 + 8 * r + ceilDiv x.n 32))
    ∨ (sp = 1 ∧ u = e ∧ x.auxMode = 2 ∧ x.auxAddr * 64 + r * x.auxPitch * 64 ≤ a
      ∧ a < x.auxAddr * 64 + r * x.auxPitch * 64 + ceilDiv (x.n * fmtBits x.auxFmt) 8)

end Sys2Proof.Machine

/-- R108 to R110: `START` on a stopped sequencer with a `SEQ_CONFIG` in range clears the accumulators, zeroes `SEQ_DONE_CNT` and
runs from `LIST_BASE`; otherwise it sets `CFG_ERR` and changes nothing else but the configuration. `ABORT` ends the list: what has
entered the array runs out, and with nothing in the array the banks keep their contents. -/
def Sys2Proof.Claim.SeqStartAndAbort : Prop :=
  ∀ (e : Eng) (s : State) (v : DWord), Awake s.d → present s.d e.val = true →
    let q := (pair s.d e.val).seq
    let c := accWrite seqRw 0 q.cfg v
    let good := 4 ≤ fld c 55 52 ∧ fld c 55 52 ≤ 12 ∧ fld c 35 18 * 64 + 16 * 2 ^ fld c 55 52 ≤ tileBytes
    (q.run = false → good → ∃ t, exec (.seqStart e v) s = .next t ∧ OnlyArray s.d t.d e.val ∧ t.d = { s.d with pairs := t.d.pairs }
      ∧ (pair t.d e.val).seq.run = true ∧ (pair t.d e.val).seq.cfg = c ∧ (pair t.d e.val).seq.doneCnt = 0 ∧ (pair t.d e.val).seq.pc = 0
      ∧ (pair t.d e.val).seq.addr = fld c 17 0 ∧ (pair t.d e.val).seq.flight = [] ∧ (pair t.d e.val).seq.cur = none
      ∧ (pair t.d e.val).seq.overrunCnt = q.overrunCnt ∧ (pair t.d e.val).seq.halted = q.halted ∧ (pair t.d e.val).seq.refused = q.refused
      ∧ (pair t.d e.val).ope = { (pair s.d e.val).ope with
          bank0 := [], bank1 := [], acc := false, wAct := {}, wShd := {}, shadowPend := false, part := [], loadFrom := 0, loadTo := 0 }) ∧
    (q.run = true ∨ ¬ good → exec (.seqStart e v) s = becomes s (modSeq s.d e.val (fun q => { q with cfg := c, cfgErr := true }))) ∧
    (q.run = false → exec (.seqAbort e v) s = becomes s (modSeq s.d e.val (fun q => { q with cfg := c }))) ∧
    (q.run = true → ∃ t, exec (.seqAbort e v) s = .next t ∧ OnlyArray s.d t.d e.val
      ∧ t.d = { s.d with pairs := t.d.pairs, popReqs := t.d.popReqs, pushReqs := t.d.pushReqs, arrivals := t.d.arrivals, hqs := t.d.hqs }
      ∧ (let o := (pair s.d e.val).ope
        let o' := (pair t.d e.val).ope
        o'.acc = o.acc ∧ o'.wAct = o.wAct ∧ o'.wShd = o.wShd ∧ o'.shadowPend = o.shadowPend ∧ o'.replayCnt = o.replayCnt ∧ o'.ovfCnt = o.ovfCnt
          ∧ o'.parityCnt = o.parityCnt ∧ o'.draining = o.draining ∧ (q.flight = [] → o' = { o with busy := o'.busy }))
      ∧ (pair t.d e.val).seq = { q with cfg := c, run := false, cur := none, flight := [], pushQ := [], pushing := none })

/-- R107, R119: taking up a LINK moves to the address it names, at index `PC` plus 1. -/
def Sys2Proof.Claim.SliceTakesUpLink : Prop :=
  ∀ (e : Eng) (s : State) (x : SDesc), NextDesc s.d e x → x.kind = 2 → linkCheck x = none →
    exec (.sliceTakeUp e) s = becomes s (modSeq s.d e.val (fun q => { q with
      pc := q.pcNext, pcNext := q.pcNext + 1, addr := x.link, takeAt := q.takeAt + q.lastLink.toNat, linkCost := q.linkCost + q.lastLink.toNat
      lastLink := true }))

/-- R119, R122: taking up a SLICE or a HALT that passes its checks: the scalar is read, the list moves on, and the pop of
`WAIT_EN` is requested, or waits while the sequencer holds four biscuits. -/
def Sys2Proof.Claim.SliceTakesUpWork : Prop :=
  ∀ (e : Eng) (s : State) (x : SDesc), NextDesc s.d e x →
    (x.kind = 1 ∧ sliceCheck (pair s.d e.val).ope (pair s.d e.val).seq x = none) ∨ (x.kind = 3 ∧ haltCheck x = none) →
    let q := (pair s.d e.val).seq
    let pops := x.kind = 1 ∧ x.waitEn = true
    ∃ t u, exec (.sliceTakeUp e) s = .next t ∧ OnlyArray s.d t.d e.val ∧ t.d = { s.d with pairs := t.d.pairs, popReqs := t.d.popReqs } ∧ (pair t.d e.val).ope = (pair s.d e.val).ope
      ∧ (pair t.d e.val).seq.cur = some u ∧ u.d = x ∧ u.pc = q.pcNext ∧ u.sval = scalar (pair s.d e.val) x.sReg ∧ u.time = q.takeAt
      ∧ u.biscuit = none ∧ u.refused = none ∧ (u.popHeld = true ↔ pops ∧ 4 ≤ seqHeld q)
      ∧ (pair t.d e.val).seq.pc = q.pcNext ∧ (pair t.d e.val).seq.pcNext = q.pcNext + 1 ∧ (pair t.d e.val).seq.addr = q.addr + 1
      ∧ (pair t.d e.val).seq.doneCnt = q.doneCnt ∧ (pair t.d e.val).seq.flight.length = q.flight.length
      ∧ (pops → seqHeld q < 4 → t.d.popReqs = s.d.popReqs ++ [⟨.seq e.val, 0, x.waitQ, pairKennel s.d e.val, q.takeAt⟩])
      ∧ (¬ pops ∨ 4 ≤ seqHeld q → t.d.popReqs = s.d.popReqs)

/-- R120: a descriptor outside the tile store, of another kind, or that fails its checks is refused: with nothing in the array
and no push under way the list ends, `REFUSED`, `REFUSE_SC` and `PC` say why and where, and a record is counted. -/
def Sys2Proof.Claim.SliceRefusal : Prop :=
  ∀ (e : Eng) (s : State) (c : Sc), Awake s.d → present s.d e.val = true → runsTask s.d (pairKennel s.d e.val) = false →
    let q := (pair s.d e.val).seq
    let x := fetchDesc (tile s.d e.val) q.addr
    q.run = true → q.cur = none → q.flight = [] → q.pushQ = [] → q.pushing = none →
    (descFits q.addr = false ∧ c = .range ∨ descFits q.addr = true ∧
      (x.kind = 1 ∧ sliceCheck (pair s.d e.val).ope q x = some c ∨ x.kind = 2 ∧ linkCheck x = some c ∨ x.kind = 3 ∧ haltCheck x = some c
        ∨ (x.kind = 0 ∨ 3 < x.kind) ∧ c = .format)) →
    ∃ t, exec (.sliceTakeUp e) s = .next t ∧ OnlyArray s.d t.d e.val ∧ (pair t.d e.val).ope = (pair s.d e.val).ope
      ∧ (pair t.d e.val).seq.run = false ∧ (pair t.d e.val).seq.refused = true ∧ (pair t.d e.val).seq.refuseSc = c.code
      ∧ (pair t.d e.val).seq.pc = q.pcNext ∧ (pair t.d e.val).seq.doneCnt = q.doneCnt + 1
      ∧ t.d = { s.d with pairs := t.d.pairs, tiles := t.d.tiles }

/-- R81, R82, R87, R93, R119: a slice that nothing holds issues in the first cycle that the array's rules, its biscuit, `ALIGN`
and the throttle allow; its marker changes banks, and it joins the array. That a clearing marker leaves no entry of its bank is the
model's choice (log 85). -/
def Sys2Proof.Claim.SliceIssues : Prop :=
  ∀ (e : Eng) (s : State) (u : Upcoming), Awake s.d → present s.d e.val = true → (pair s.d e.val).seq.run = true →
    (pair s.d e.val).seq.cur = some u → issueBlocked s.d (pair s.d e.val).ope (pair s.d e.val).seq u = false →
    let q := (pair s.d e.val).seq
    let o := (pair s.d e.val).ope
    let c := firstIssue s.d o q u
    ∃ t f, exec (.sliceIssue e) s = .next t ∧ OnlyArray s.d t.d e.val ∧ t.d = { s.d with pairs := t.d.pairs }
      ∧ (pair t.d e.val).seq.flight.getLast? = some f ∧ (pair t.d e.val).seq.flight.length = q.flight.length + 1
      ∧ f.t = u ∧ f.first = c ∧ f.cL = lastIssue s.d.throttle u.d c ∧ f.loadDue = u.d.wLoad ∧ f.drainDue = u.d.drain
      ∧ f.bank = (pair t.d e.val).ope.acc ∧ (pair t.d e.val).ope.acc = (if u.d.swap then !o.acc else o.acc)
      ∧ (pair t.d e.val).ope.mode = u.d.stat
      ∧ (u.d.stat = true → u.d.wSwap = true → (pair t.d e.val).ope.wAct = o.wShd ∧ (pair t.d e.val).ope.wShd = o.wAct)
      ∧ (u.d.stat = false ∨ u.d.wSwap = false → (pair t.d e.val).ope.wAct = o.wAct ∧ (pair t.d e.val).ope.wShd = o.wShd)
      ∧ (u.d.acc = false → u.d.stat = false → bankOf (pair t.d e.val).ope f.bank = [])
      ∧ (pair t.d e.val).seq.cur = none ∧ (pair t.d e.val).seq.doneCnt = q.doneCnt ∧ (pair t.d e.val).seq.prevMode = some u.d.stat

/-- R86, R91: no issue comes before the bounds that the last slice, a change of mode, a drain of the bank and a weight load
set, nor in a cycle that the throttle withholds (R458). -/
def Sys2Proof.Claim.IssueKeepsBounds : Prop :=
  ∀ (d : Dev) (o : Ope) (q : Seq) (u : Upcoming), d.throttle < 8 →
    let c := firstIssue d o q u
    q.prevCL < c ∧ q.minIssue ≤ c ∧ u.time ≤ c ∧ (q.prevMode = some (!u.d.stat) → q.prevCL + 2 * depthD ≤ c)
      ∧ (writesBank u.d = true → targetBank o u.d = false → 0 < q.drain0 → q.drain0 < c)
      ∧ (writesBank u.d = true → targetBank o u.d = true → 0 < q.drain1 → q.drain1 < c)
      ∧ (∀ l, q.load0 = some l → u.d.wSwap = true → l < c)
      ∧ (u.d.align = true → beatEclk d u.gStart ≤ c) ∧ c % 8 < 8 - d.throttle

/-- R88, R90: the oldest due weight load fills the shadow set from the tile store, D ECLK or more after the last swap marker. -/
def Sys2Proof.Claim.WeightTileLoads : Prop :=
  ∀ (e : Eng) (s : State) (f : Flight), Awake s.d → present s.d e.val = true → (pair s.d e.val).seq.flight.find? (·.loadDue) = some f →
    let q := (pair s.d e.val).seq
    let l := match q.swapAt with | some w => max f.first (w + depthD) | none => f.first
    exec (.weightLoad e) s = becomes s (modPair s.d e.val (fun p => { p with
      ope := { p.ope with wShd := loadTile (tile s.d e.val) f.t.d, shadowPend := true, loadFrom := l, loadTo := l + depthD }
      seq := { p.seq with load0 := some l, flight := modFlight q.flight (·.loadDue) (fun f => { f with loadDue := false }) } }))

/-- R53, R80: promotion of the next window adds each partial below M and N into its bank entry, with valid parity, and no
other entry, bank, weight or status of the engine changes. -/
def Sys2Proof.Claim.WindowPromotes : Prop :=
  ∀ (e : Eng) (s : State) (f : Flight), Awake s.d → present s.d e.val = true →
    (pair s.d e.val).seq.flight.find? (fun f => f.win < windows f.t.d) = some f → f.t.d.n ≤ 256 →
    let o := (pair s.d e.val).ope
    ∃ t, exec (.promotion e f.t.pc f.win) s = .next t ∧ OnlyArray s.d t.d e.val ∧ t.d = { s.d with pairs := t.d.pairs }
      ∧ (∀ r < f.t.d.m, ∀ j < f.t.d.n, Tbl.get {} (bankOf (pair t.d e.val).ope f.bank) (cellKey r j)
          = entryOf (promoteEntry f (Tbl.get {} f.part (cellKey r j)) (Tbl.get {} (bankOf o f.bank) (cellKey r j)).v))
      ∧ (∀ r j, j < 256 → (f.t.d.m ≤ r ∨ f.t.d.n ≤ j) →
          Tbl.get {} (bankOf (pair t.d e.val).ope f.bank) (cellKey r j) = Tbl.get {} (bankOf o f.bank) (cellKey r j))
      ∧ setBank (setBank (pair t.d e.val).ope f.bank []) f.bank (bankOf o f.bank) = o
      ∧ (pair t.d e.val).seq.flight.length = (pair s.d e.val).seq.flight.length

/-- R94, R95, R97: at the check cycle an overflowed attempt that is not the last is begun again with T plus 1, its bank cleared;
otherwise the attempt ends and its replays and overflow are reported. That the marker of the replay clears the whole bank and is not gated is
the model's choice (logs 85, 86). -/
def Obligations.CheckCycleReplays : Prop :=
  ∀ (e : Eng) (s : State) (f : Flight), Awake s.d → present s.d e.val = true →
    (pair s.d e.val).seq.flight.find? (fun f => !f.settled) = some f → windows f.t.d ≤ f.win →
    let o := (pair s.d e.val).ope
    ∃ t, exec (.checkCycle e) s = .next t ∧ OnlyArray s.d t.d e.val ∧ t.d = { s.d with pairs := t.d.pairs }
      ∧ (f.over' = true → finalAttempt f = false → bankOf (pair t.d e.val).ope f.bank = [] ∧ (pair t.d e.val).ope.replayCnt = o.replayCnt + 1
          ∧ (pair t.d e.val).ope.lastReplays = f.replays + 1
          ∧ (pair t.d e.val).ope.ovfFinal = o.ovfFinal
          ∧ ∃ g, (pair t.d e.val).seq.flight.find? (fun f => !f.settled) = some g ∧ g.tRef = f.tRef + 1 ∧ g.replays = f.replays + 1 ∧ g.win = 0)
      ∧ (f.over' = false ∨ finalAttempt f = true → (pair t.d e.val).ope = { o with
            lastReplays := f.replays, ovfFinal := o.ovfFinal || f.over', ovfCnt := if f.over' then o.ovfCnt + 1 else o.ovfCnt }
          ∧ (pair t.d e.val).seq.flight = modFlight (pair s.d e.val).seq.flight (fun f => !f.settled)
              (fun f => { f with settled := true, ovfFinal := f.over' }))

/-- R83 to R86, R103, R125: the oldest due drain reads its bank without changing its values and writes each row below M by its
function and format, its scale bytes and its stash, and no other byte; a parity error is counted once, sets its flag and is one
task fault. That a row is written before the next one's auxiliary elements are read is the model's choice (log 87). -/
def Sys2Proof.Claim.DrainWrites : Prop :=
  ∀ (e : Eng) (s : State) (upsets : List Nat) (f : Flight), Awake s.d → present s.d e.val = true →
    (pair s.d e.val).seq.flight.find? (·.drainDue) = some f → f.settled = true → windows f.t.d ≤ f.win →
    let o := (pair s.d e.val).ope
    let bank := upsetBank (bankOf o f.bank) upsets
    let ds := max (f.cL + 2 * depthD) (pair s.d e.val).seq.pathFree
    ∃ d, exec (.drain e upsets) s = becomes s (if badEntries bank then settle (taskFault d (pairKennel s.d e.val) .task) else d)
      ∧ OnlyArray s.d d e.val ∧ d = { s.d with pairs := d.pairs, tiles := d.tiles, caches := d.caches, dies := d.dies }
      ∧ (pair d e.val).ope = { setBank o f.bank bank with
          draining := addSpan s.d o.draining ds (ds + 276), parityErr := o.parityErr || badEntries bank, parityCnt := if badEntries bank then o.parityCnt + 1 else o.parityCnt }
      ∧ (pair d e.val).seq.pathFree = ds + 256 ∧ (pair d e.val).seq.doneCnt = (pair s.d e.val).seq.doneCnt
      ∧ (pair d e.val).seq.flight = modFlight (pair s.d e.val).seq.flight (·.drainDue)
          (fun f => { f with drainDue := false, complAt := ds + 275, parityErr := badEntries bank })
      ∧ (∀ sp ∈ [1, 2, 3], ∀ u, store d sp u = store (drainRows s.d e.val f.t.d f.t.sval bank) sp u)
      ∧ ∀ sp ∈ [1, 2, 3], ∀ u a, ¬ drainTouches e.val f.t.d sp u a → Mem.byte (store d sp u) a = Mem.byte (store s.d sp u) a

/-- R121, R122, R124: at the completion point of the oldest slice its record is written to the ring, `SEQ_DONE_CNT` counts it, its
biscuit is pushed when `PUSH_EN` is 1 and dropped otherwise, and a pop that the limit held may then be requested. A refused descriptor
that waited for it ends the list next (R120). -/
def Sys2Proof.Claim.SliceCompletes : Prop :=
  ∀ (e : Eng) (s : State) (f : Flight) (r : List Flight), Awake s.d → present s.d e.val = true →
    (pair s.d e.val).seq.flight = f :: r → f.settled = true → windows f.t.d ≤ f.win → f.loadDue = false → f.drainDue = false →
    let q := (pair s.d e.val).seq
    let ovr := overrunOf s.d f.complAt f.t.planEnd
    let ring := fld q.cfg 35 18 * 64 + q.doneCnt.toNat % 2 ^ fld q.cfg 55 52 * 16
    ∃ d, exec (.sliceCompletion e) s = becomes s (settle (seqFinishRefusal d e.val))
      ∧ ((∀ u, q.cur = some u → u.refused = none) → settle (seqFinishRefusal d e.val) = d)
      ∧ OnlyArray s.d d e.val ∧ (pair d e.val).ope = (pair s.d e.val).ope
      ∧ (pair d e.val).seq.flight = r ∧ (pair d e.val).seq.doneCnt = q.doneCnt + 1 ∧ (pair d e.val).seq.run = q.run
      ∧ (pair d e.val).seq.overrunCnt = (if ovr > 0 then q.overrunCnt + 1 else q.overrunCnt)
      ∧ (let w := BitVec.ofNat 128 (Mem.readNat (tile d e.val) ring 16)
        fld w 10 0 = f.t.d.tag ∧ fld w 38 11 = 0 ∧ bit w 39 = f.parityErr ∧ bit w 40 = f.ovfFinal ∧ fld w 43 41 = f.replays % 8
          ∧ fld w 51 44 = Sc.ok.code ∧ fld w 71 52 = f.t.pc % 2 ^ 20 ∧ fld w 95 72 = min ovr (2 ^ 24 - 1) ∧ fld w 127 96 = timeAt s.d f.complAt % 2 ^ 32)
      ∧ (∀ a, a < ring ∨ ring + 16 ≤ a → Mem.byte (tile d e.val) a = Mem.byte (tile s.d e.val) a)
      ∧ (∀ j, j ≠ e.val → tile d j = tile s.d j) ∧ d = { s.d with pairs := d.pairs, tiles := d.tiles, pushReqs := d.pushReqs, popReqs := d.popReqs }
      ∧ (∀ b at', f.t.biscuit = some (b, at') → f.t.d.pushEn = true → q.pushing = none → q.pushQ = [] →
          ∃ w, f.complAt < w ∧ d.pushReqs = s.d.pushReqs ++ [⟨.seq e.val, f.t.d.pushQ, pairKennel s.d e.val, b, w, false⟩]
            ∧ (pair d e.val).seq.pushing = some f.t.pc)
      ∧ (f.t.biscuit = none ∨ f.t.d.pushEn = false → d.pushReqs = s.d.pushReqs)
      ∧ ((∀ u, q.cur = some u → u.popHeld = false) → d.popReqs = s.d.popReqs)
      ∧ (∀ u b at', q.cur = some u → u.popHeld = true → f.t.biscuit = some (b, at') → f.t.d.pushEn = false →
          (r.filter (fun f => f.t.biscuit.isSome)).length + q.pushQ.length + q.pushing.isSome.toNat < 4 →
          d.popReqs = s.d.popReqs ++ [⟨.seq e.val, 0, u.d.waitQ, pairKennel s.d e.val, max f.complAt q.lastRec + 1⟩])

/-- R123, R124: a HALT with every earlier slice complete and every push accepted writes its record with SC_OK at that point, counts
it, sets `HALTED` and clears `RUN`. -/
def Sys2Proof.Claim.HaltCompletes : Prop :=
  ∀ (e : Eng) (s : State) (u : Upcoming), Awake s.d → present s.d e.val = true →
    let q := (pair s.d e.val).seq
    q.cur = some u → u.d.kind = 3 → u.refused = none → q.flight = [] → q.pushQ = [] → q.pushing = none →
    let ring := fld q.cfg 35 18 * 64 + q.doneCnt.toNat % 2 ^ fld q.cfg 55 52 * 16
    let c := max u.time q.lastDone
    let ovr := overrunOf s.d c u.planEnd
    ∃ t, exec (.haltDescriptor e) s = .next t ∧ OnlyArray s.d t.d e.val ∧ (pair t.d e.val).ope = (pair s.d e.val).ope
      ∧ (pair t.d e.val).seq.halted = true ∧ (pair t.d e.val).seq.run = false ∧ (pair t.d e.val).seq.cur = none
      ∧ (pair t.d e.val).seq.doneCnt = q.doneCnt + 1 ∧ (pair t.d e.val).seq.refused = q.refused ∧ (pair t.d e.val).seq.cfgErr = q.cfgErr
      ∧ (pair t.d e.val).seq.overrunCnt = (if ovr > 0 then q.overrunCnt + 1 else q.overrunCnt) ∧ (pair t.d e.val).seq.lag = overrunBeats s.d ovr
      ∧ (let w := BitVec.ofNat 128 (Mem.readNat (tile t.d e.val) ring 16)
        fld w 10 0 = u.d.tag ∧ fld w 43 11 = 0 ∧ fld w 51 44 = Sc.ok.code ∧ fld w 71 52 = u.pc % 2 ^ 20 ∧ fld w 95 72 = min ovr (2 ^ 24 - 1)
          ∧ fld w 127 96 = timeAt s.d c % 2 ^ 32)
      ∧ (∀ a, a < ring ∨ ring + 16 ≤ a → Mem.byte (tile t.d e.val) a = Mem.byte (tile s.d e.val) a)
      ∧ (∀ j, j ≠ e.val → tile t.d j = tile s.d j) ∧ t.d = { s.d with pairs := t.d.pairs, tiles := t.d.tiles }


/-! ### Handle queues, stream engines and memory (chapters 6 and 7) -/

namespace Sys2Proof.Machine

/-- A push command of unit `u` brings the request `r` to its home, where nothing goes before it, and `rest` stays on its way: a first
push, or a retry of one that met the full queue (R186, R187). -/
def PushComes (d : Dev) (u : UnitId) (c : Instr) (r : PushReq) (rest : List PushReq) : Prop :=
  pushFirst d r = true ∧
    ((c = .queuePush u ∧ takeFirst d.pushReqs (fun x => x.unit == u && !x.retry) = some (r, rest))
      ∨ (c = .pushRetry u ∧ takeFirst d.pushReqs (fun x => x.unit == u && x.retry) = some (r, rest)))

/-- A slot's active descriptor. -/
def InSlot (d : Dev) (n : StreamIx) (slot : SlotId) (a : Active) : Prop := (sslot d n.val slot.toNat).act = some a

/-- Every slot but the named one is as before. -/
def OtherSlots (d d' : Dev) (n : StreamIx) (slot : SlotId) : Prop :=
  ∀ i j, (i, j) ≠ (n.val, slot.toNat) → sslot d' i j = sslot d i j

/-- From device `d0` the descriptor `a` of a slot ends with status `c`: the position empties, a record counts and says why, what the slot
had on its way is gone, and the kennel's task ends with the status, if there is one (R178, R180, R205). -/
def Ends (d0 d' : Dev) (n : StreamIx) (slot : SlotId) (a : Active) (c : Sc) : Prop :=
  ∃ d, d' = settle (taskEnding d a.kennel c) ∧ (runsTask d0 a.kennel = false → d' = d)
    ∧ (sslot d n.val slot.toNat).act = none ∧ (se d n.val).doneCnt = (se d0 n.val).doneCnt + 1
    ∧ (let w := Tbl.get 0 (se d n.val).ring ((se d0 n.val).doneCnt.toNat % 256)
      fld w 55 48 = c.code ∧ fld w 36 32 = slot.toNat ∧ fld w 10 0 = a.desc.tag)
    ∧ (∀ x ∈ d.popReqs, x.unit ≠ .se n.val slot.toNat) ∧ (∀ x ∈ d.pushReqs, x.unit ≠ .se n.val slot.toNat)
    ∧ (∀ q, (hq d q).items = (hq d0 q).items)
    ∧ d = { d0 with ses := d.ses, mdies := d.mdies, watchQ := d.watchQ, reads := d.reads
                    popReqs := d.popReqs, pushReqs := d.pushReqs, arrivals := d.arrivals, hqs := d.hqs }

/-- The store, and the byte in it, lie in row i of a repetition's destination (R170, R177). -/
def rowTouches (x : Desc) (r : Rep) (sp u b : Nat) : Prop :=
  let p := placeOf x r false
  p.sp = sp ∧ unitOf p.sp p.eng = u ∧ ∃ i < rowsOut x r, (dstRow x r i).toNat ≤ b ∧ b < (dstRow x r i).toNat + rowBytes x

/-- The bytes of row i of a source in a store. -/
def storeRow (d : Dev) (x : Desc) (r : Rep) (i : Nat) : List Byte :=
  let p := placeOf x r true
  Mem.read (store d p.sp (unitOf p.sp p.eng)) (srcRow x r i).toNat (rowBytes x)

/-- The repetition with number m of a slot's descriptor, changed. -/
def withRep (a : Active) (m : Nat) (f : Rep → Rep) : Active := { a with reps := a.reps.map (fun r => if r.num = m then f r else r) }

/-- The repetition with the bytes of the read at place `off` staged. -/
def withBytes (r : Rep) (off : Nat) (bs : List Byte) : Rep :=
  { r with pieces := r.pieces.map (fun q => if q.off = off then { q with bytes := some bs, again := false } else q) }

end Sys2Proof.Machine

/-- R185, R186: a pop that its queue admits takes the oldest biscuit, which is on its way for 8 ECLK, or takes the last place among
the waiting pops of an empty queue; no other queue and nothing else changes. It waits while a request that goes before it is on its
way to that queue. -/
def Sys2Proof.Claim.QueuePopTakes : Prop :=
  ∀ (u : UnitId) (s : State) (r : PopReq) (rest : List PopReq), Awake s.d →
    takeFirst s.d.popReqs (fun x => x.unit == u) = some (r, rest) →
    (popFirst s.d r = false → exec (.queuePop u) s = becomes s s.d) ∧
    (∀ b bs, popFirst s.d r = true → hqAllows (hq s.d r.q) r.kennel = true → (hq s.d r.q).items = b :: bs →
      exec (.queuePop u) s = becomes s { modHq s.d r.q (fun x => { x with items := bs, popCnt := x.popCnt + 1 }) with
        popReqs := rest, arrivals := s.d.arrivals ++ [⟨u, r.role, b, r.at' + 8⟩] }) ∧
    (popFirst s.d r = true → hqAllows (hq s.d r.q) r.kennel = true → (hq s.d r.q).items = [] → exec (.queuePop u) s = becomes s
      { modHq s.d r.q (fun x => { x with waiters := x.waiters ++ [⟨u, r.role, r.at'⟩] }) with popReqs := rest })

/-- R186, R187: a push that its queue admits goes to the oldest waiting pop, or is stored behind the others, and its unit goes on; one
that meets the full queue is kept to be tried again 16 ECLK later. -/
def Sys2Proof.Claim.QueuePushStores : Prop :=
  ∀ (u : UnitId) (c : Instr) (s : State) (r : PushReq) (rest : List PushReq), Awake s.d → PushComes s.d u c r rest →
    hqAllows (hq s.d r.q) r.kennel = true →
    let q := hq s.d r.q
    let accepts (d : Dev) := exec c s = becomes s (settle (pushed d u r.at')) ∧
      ((∀ e x, u = .seq e → (pair s.d e).seq.cur = some x → x.refused = none) → settle (pushed d u r.at') = pushed d u r.at'
        ∧ (pushed d u r.at').hqs = d.hqs ∧ (pushed d u r.at').arrivals = d.arrivals)
    (∀ w ws, q.waiters = w :: ws → accepts
      { modHq s.d r.q (fun q => { q with waiters := ws, pushCnt := q.pushCnt + 1, popCnt := q.popCnt + 1 }) with
        pushReqs := rest, arrivals := s.d.arrivals ++ [⟨w.unit, w.role, r.biscuit, max r.at' w.at' + 8⟩] }) ∧
    (q.waiters = [] → q.items.length < q.depth → accepts
      { modHq s.d r.q (fun q => { q with items := q.items ++ [r.biscuit], pushCnt := q.pushCnt + 1 }) with pushReqs := rest }) ∧
    (q.waiters = [] → q.depth ≤ q.items.length → exec c s = becomes s
      { modHq s.d r.q (fun x => { x with fullSeen := true, fullCnt := x.fullCnt + 1 }) with
        pushReqs := rest ++ [{ r with at' := r.at' + 16, retry := true }] })

/-- R185, R120: a pop of a sequencer that R185 refuses counts at the queue and refuses its descriptor with `SC_DENIED`. -/
def Sys2Proof.Claim.QueuePopDenied : Prop :=
  ∀ (e : Eng) (s : State) (r : PopReq) (rest : List PopReq) (x : Upcoming), Awake s.d →
    takeFirst s.d.popReqs (fun x => x.unit == .seq e.val) = some (r, rest) → popFirst s.d r = true → hqAllows (hq s.d r.q) r.kennel = false →
    (pair s.d e.val).seq.cur = some x → (pair s.d e.val).seq.flight ≠ [] →
    exec (.queuePop (.seq e.val)) s = becomes s
      { modSeq (modHq s.d r.q (fun q => { q with denied := true, denyCnt := q.denyCnt + 1 })) e.val (fun q => { q with
          refused := true, refuseSc := Sc.denied.code, pc := x.pc, cur := some { x with refused := some .denied, popHeld := false } })
        with popReqs := rest }

/-- R119, R152, R177, R194: the oldest biscuit on its way to a unit arrives there: at a sequencer, a VE, the repetition of a stream slot
that asked for it, or a port's take-up that waits for more of them. -/
def Sys2Proof.Claim.BiscuitArrives : Prop :=
  ∀ (u : UnitId) (s : State) (a : Arrival) (rest : List Arrival), Awake s.d → takeFirst s.d.arrivals (fun a => a.unit == u) = some (a, rest) →
    (∀ e, u = .seq e → exec (.biscuitArrival u) s = becomes s { modSeq s.d e (fun q => { q with
        cur := q.cur.map (fun t => { t with biscuit := some (a.biscuit, a.at') }) }) with arrivals := rest }) ∧
    (∀ e r pc, u = .ve e → (pair s.d e).ve.popTo = some (r, pc) → ∃ t, exec (.biscuitArrival u) s = .next t
      ∧ (pair t.d e).ve.popTo = none ∧ (pair t.d e).scalars = (setScalarPair (pair s.d e) r a.biscuit).scalars
      ∧ (pair t.d e).seq = (pair s.d e).seq ∧ (pair t.d e).ope = (pair s.d e).ope ∧ (pair t.d e).ve.v = (pair s.d e).ve.v
      ∧ (∀ j, j ≠ e → pair t.d j = pair s.d j) ∧ t.d = { s.d with pairs := t.d.pairs, arrivals := rest }) ∧
    (∀ n i x, u = .se n i → (sslot s.d n i).act = some x → exec (.biscuitArrival u) s = becomes s
      { modSlot s.d n i (fun y => { y with act := some (withRep x (a.role / 100) (fun r => { r with
          biscuits := r.biscuits ++ [(a.role % 100, a.biscuit)], popsLeft := r.popsLeft - 1, lastArrival := max r.lastArrival a.at' })) })
        with arrivals := rest }) ∧
    (∀ p t r, u = .zl p → takeUps s.d p = t :: r → t.asked = true → t.pushing = 0 → 1 < t.popsLeft → exec (.biscuitArrival u) s = becomes s
      { setTakeUps s.d p ({ t with biscuits := t.biscuits ++ [(a.role, a.biscuit)], popsLeft := t.popsLeft - 1 } :: r) with arrivals := rest }) ∧
    (u = .fw → takesReports s.d a.role = false → exec (.biscuitArrival u) s = becomes s { s.d with arrivals := rest })

/-- R173, R175: a shadow descriptor moves into an empty active position and into no other. -/
def Sys2Proof.Claim.ShadowMoves : Prop :=
  ∀ (n : StreamIx) (slot : SlotId) (s : State), Awake s.d →
    let x := sslot s.d n.val slot.toNat
    (∀ ds g k t, x.act = none → x.shd = some (ds, g, k, t) → exec (.shadowMove n slot) s = becomes s
      (modSlot s.d n.val slot.toNat (fun y => { y with act := some { desc := ds, gen := g, kennel := k, plan := x.movePlan, waiting := ds.dormant }, shd := none }))) ∧
    (x.act ≠ none ∨ x.shd = none → exec (.shadowMove n slot) s = becomes s s.d)

/-- R177, R188: a repetition whose turn and `ALIGN` boundary have come, with room within 64 outstanding pops, begins and requests all its
pops; until then nothing happens. -/
def Sys2Proof.Claim.RepetitionPopsRequested : Prop :=
  ∀ (n : StreamIx) (slot : SlotId) (s : State) (a : Active), Awake s.d → InSlot s.d n slot a →
    let now := a.waiting = false ∧ a.next ≤ a.desc.rep ∧ (∀ r, a.reps.getLast? = some r → readsIssued a.desc r = true)
      ∧ (a.desc.align = true → repStart a a.next ≤ beatNow s.d) ∧ popsOutstanding s.d (seUnit n.val) + (popList s.d a.desc).length ≤ 64
    (now → exec (.repetitionPops n slot) s = becomes s
      { modSlot s.d n.val slot.toNat (fun y => { y with act := some { a with
          next := a.next + 1
          started := a.started || !(popList s.d a.desc).isEmpty
          reps := a.reps ++ [{ num := a.next, popsLeft := (popList s.d a.desc).length, lastArrival := s.d.eclk }] } }) with
        popReqs := s.d.popReqs ++ (popList s.d a.desc).map (fun z => ⟨.se n.val slot.toNat, 100 * a.next + z.1, z.2, a.kennel, s.d.eclk⟩) }) ∧
    (¬ now → exec (.repetitionPops n slot) s = becomes s s.d)

/-- R168, R170, R177, R178: a COPY from a store, on the slot whose turn it is, checks its biscuits and reads every row at its pitch: it
stages them for a destination in memory, and writes them at their pitch, and no other byte, into a destination store. A biscuit that
fails its checks ends the descriptor with that status. That one command issues all the reads that staging has room for is the model's choice
(log 96). -/
def Sys2Proof.Claim.RepetitionReadsStage : Prop :=
  ∀ (n : StreamIx) (slot : SlotId) (s : State) (a : Active) (r : Rep) (ecc : Ecc), Awake s.d → InSlot s.d n slot a →
    nextSlot s.d n.val = some slot.toNat → a.reps = [r] → r.popsLeft = 0 → r.reading = false →
    (∀ c, repCheck s.d a.kennel a.desc r = some c →
      ∃ d', exec (.repetitionReads n (slot, ecc)) s = becomes s d' ∧ Ends s.d d' n slot a c) ∧
    (repCheck s.d a.kennel a.desc r = none → a.desc.kind = 1 → isStore (placeOf a.desc r true).sp = true → 0 ≤ (placeOf a.desc r true).base →
      r.cursor = 0 → r.pieces = [] → r.pushes = none → r.stopRow = none → 0 < repBytes a.desc r →
      let done (ps : List Piece) : Active := { a with started := true, reps := [{ r with reading := true, frozen := [], cursor := repBytes a.desc r, pieces := ps }] }
      (destMem a.desc r = true → repBytes a.desc r ≤ stageRoom s.d n.val → ∃ t ps, exec (.repetitionReads n (slot, ecc)) s = .next t
        ∧ InSlot t.d n slot (done ps) ∧ (∀ p ∈ ps, p.bytes.isSome = true ∧ p.issued.isSome = true)
        ∧ ps.flatMap (fun p => p.bytes.getD []) = (List.range a.desc.rows).flatMap (storeRow s.d a.desc r)
        ∧ OtherSlots s.d t.d n slot ∧ t.d = { s.d with ses := t.d.ses, mdies := t.d.mdies, watchQ := t.d.watchQ }) ∧
      (let q := placeOf a.desc r false
       let p := placeOf a.desc r true
       isStore q.sp = true → (q.sp, unitOf q.sp q.eng) ≠ (p.sp, unitOf p.sp p.eng) → 0 ≤ q.base → 64 ≤ stageRoom s.d n.val →
        (a.desc.rows ≤ 1 ∨ a.desc.rowLen ≤ a.desc.dstPitch) → ∃ t, exec (.repetitionReads n (slot, ecc)) s = .next t
        ∧ InSlot t.d n slot (done [])
        ∧ (∀ i < a.desc.rows, Mem.read (store t.d q.sp (unitOf q.sp q.eng)) (dstRow a.desc r i).toNat (rowBytes a.desc) = storeRow s.d a.desc r i)
        ∧ (∀ sp ∈ [1, 2, 3], ∀ u b, ¬ rowTouches a.desc r sp u b → Mem.byte (store t.d sp u) b = Mem.byte (store s.d sp u) b)
        ∧ OtherSlots s.d t.d n slot ∧ t.d = { s.d with
            ses := t.d.ses, mdies := t.d.mdies, watchQ := t.d.watchQ, tiles := t.d.tiles, caches := t.d.caches, dies := t.d.dies }))

/-- R208, R219, R234, R238, R245: the read of a slot that goes first at its M-die is served there: zeros of a ZERO page and the bytes of
any other, with those of the writes that wait, are staged for it, and no byte of memory changes. One that translation denies ends the
descriptor with `SC_DENIED`; one that meets poison without a leash faults the task and is counted. -/
def Sys2Proof.Claim.MemoryReadServes : Prop :=
  ∀ (n : StreamIx) (slot : SlotId) (s : State) (a : Active) (m : Nat) (p : Piece), Awake s.d → InSlot s.d n slot a →
    firstRead a = some (m, p) → (∀ q ∈ mdieReads s.d (homeOf s.d a.kennel p.addr), goesFirst q p = false) → tableBad s.d a.kennel p.addr = false →
    let pg := page s.d a.kennel (p.addr / pageBytes)
    let found := peek s.d a.kennel p.addr p.len
    (canRead s.d a.kennel p.addr = false → ∃ d', exec (.memoryRead n slot .clean) s = becomes s d' ∧ Ends s.d d' n slot a .denied) ∧
    (∀ bs, canRead s.d a.kennel p.addr = true →
      (pg.st = .zero ∧ bs = seeWaits s.d a.kennel p.addr (zeros p.len) ∨ pg.st ≠ .zero ∧ pg.st ≠ .lost ∧ found = (.ok, bs)) →
      ∃ d, exec (.memoryRead n slot .clean) s = becomes s (goOn d n.val slot.toNat) ∧ InSlot d n slot (withRep a m (fun r => withBytes r p.off bs))
        ∧ OtherSlots s.d d n slot ∧ d = { s.d with ses := d.ses, pages := d.pages, mdies := d.mdies }) ∧
    (canRead s.d a.kennel p.addr = true → pg.st ≠ .zero → pg.st ≠ .lost → found.1 = .poison → a.desc.leash = 0 →
      ∃ d, exec (.memoryRead n slot .clean) s = becomes s (settle (taskFault d a.kennel .task))
        ∧ (mdie d pg.home).cnt.poisonRd = (mdie s.d pg.home).cnt.poisonRd + 1 ∧ d = { s.d with pages := d.pages, mdies := d.mdies })

/-- The oldest staged bytes of a slot, of read `p` of repetition r, are what it writes next, at byte `addr` of memory (R168, R177). -/
def Sys2Proof.Machine.WritesNext (d : Dev) (n : StreamIx) (slot : SlotId) (a : Active) (r : Rep) (p : Piece) (ps : List Piece) (bs : List Byte) (addr : Nat) : Prop :=
  InSlot d n slot a ∧ nextSlot d n.val = some slot.toNat ∧ writer a = some r ∧ a.desc.kind ≠ 4 ∧ destMem a.desc r = true ∧ r.results = []
    ∧ r.pieces = p :: ps ∧ p.bytes = some bs ∧ inSpace (dstByte a.desc r p.off) p.len = some addr
    ∧ 0 < bs.length ∧ addr % pageBytes + bs.length ≤ pageBytes ∧ tableBad d a.kennel addr = false

/-- R219, R220: a write to a NEAR page that the kennel may write changes the named bytes of that kennel's memory and no other byte of
memory or of a store, and its piece is done with; one to a page under promotion waits for it. -/
def Sys2Proof.Claim.MemoryWriteApplies : Prop :=
  ∀ (n : StreamIx) (slot : SlotId) (s : State) (a : Active) (r : Rep) (p : Piece) (ps : List Piece) (bs : List Byte) (addr : Nat), Awake s.d →
    WritesNext s.d n slot a r p ps bs addr → canWrite s.d a.kennel addr = true →
    let pg := page s.d a.kennel (addr / pageBytes)
    let left (d : Dev) := ∃ b r', InSlot d n slot b ∧ writer b = some r' ∧ b.desc = a.desc ∧ r'.pieces.length = ps.length
    (pg.st = .near → ∃ d, exec (.memoryWrite n (slot, .clean)) s = becomes s (settle d) ∧ (d.reports = [] → settle d = d)
      ∧ kmem d a.kennel = Mem.write (kmem s.d a.kennel) addr bs ∧ (∀ k, k ≠ a.kennel → kmem d k = kmem s.d k) ∧ left d
      ∧ d = { s.d with ses := d.ses, mdies := d.mdies, watchQ := d.watchQ, mem := d.mem, pages := d.pages, reports := d.reports }) ∧
    (pg.st = .promoting → ∃ t, exec (.memoryWrite n (slot, .clean)) s = .next t ∧ left t.d
      ∧ t.d.waits = s.d.waits ++ [⟨a.kennel, addr, bs, .stream n.val slot.toNat, s.d.eclk⟩]
      ∧ t.d = { s.d with ses := t.d.ses, mdies := t.d.mdies, watchQ := t.d.watchQ, waits := t.d.waits })

/-- R211, R238, R205: a write that translation denies ends the descriptor with `SC_DENIED` and changes no byte. -/
def Sys2Proof.Claim.MemoryWriteDenied : Prop :=
  ∀ (n : StreamIx) (slot : SlotId) (s : State) (a : Active) (r : Rep) (p : Piece) (ps : List Piece) (bs : List Byte) (addr : Nat), Awake s.d →
    WritesNext s.d n slot a r p ps bs addr → canWrite s.d a.kennel addr = false →
    ∃ d', exec (.memoryWrite n (slot, .clean)) s = becomes s d' ∧ Ends s.d d' n slot a .denied

/-- R177, R180, R195, R332: at its completion point, the ECLK of its last write and not before the one after its last biscuit came, a
repetition requests its first push one ECLK later; without pushes it counts as done, and the last one leaves the position empty and a
record. What comes after its planned end is overrun. A gather that stopped at an index ends with `SC_RANGE`; a repetition that is not
complete goes on. The completion point of a repetition without rows is the model's reading (log 94). -/
def Sys2Proof.Claim.RepetitionCompletes : Prop :=
  ∀ (n : StreamIx) (slot : SlotId) (at' : Nat) (s : State) (a : Active) (r : Rep), Awake s.d → InSlot s.d n slot a → writer a = some r →
    (repComplete s.d n.val slot.toNat a.desc r = false → exec (.repetitionCompletion n slot at') s = becomes s s.d) ∧
    (repComplete s.d n.val slot.toNat a.desc r = true →
      (r.stopRow.isSome = true → ∃ d', exec (.repetitionCompletion n slot at') s = becomes s d' ∧ Ends s.d d' n slot a .range) ∧
      (r.stopRow = none → a.reps = [r] →
        let t' := if a.desc.rows = 0 then r.lastArrival + 1 else max at' (r.lastArrival + 1)
        let late := t' - beatEclk s.d (repEnd a r.num)
        ∃ t, exec (.repetitionCompletion n slot at') s = .next t
          ∧ (se t.d n.val).overrunCnt = (if late > 0 then (se s.d n.val).overrunCnt + 1 else (se s.d n.val).overrunCnt)
          ∧ (sslot t.d n.val slot.toNat).lag = overrunBeats s.d late ∧ OtherSlots s.d t.d n slot
          ∧ t.d = { s.d with ses := t.d.ses, mdies := t.d.mdies, watchQ := t.d.watchQ, pushReqs := t.d.pushReqs }
          ∧ (∀ z zs, pushList s.d a.desc r = z :: zs → t.d.pushReqs = s.d.pushReqs ++ [⟨.se n.val slot.toNat, z.1, a.kennel, z.2, t' + 1, false⟩]
              ∧ InSlot t.d n slot { a with overrun := late, reps := [{ r with pushes := some (z :: zs), complAt := t' }] })
          ∧ (pushList s.d a.desc r = [] → t.d.pushReqs = s.d.pushReqs ∧
              (a.next ≤ a.desc.rep → (se t.d n.val).doneCnt = (se s.d n.val).doneCnt
                ∧ InSlot t.d n slot { a with overrun := late, reps := [], repDone := a.repDone + 1 }) ∧
              (a.desc.rep < a.next → (sslot t.d n.val slot.toNat).act = none ∧ (se t.d n.val).doneCnt = (se s.d n.val).doneCnt + 1 ∧
                (let w := Tbl.get 0 (se t.d n.val).ring ((se s.d n.val).doneCnt.toNat % 256)
                fld w 10 0 = a.desc.tag ∧ fld w 31 21 = a.fallbacks % 2 ^ 11 ∧ fld w 36 32 = slot.toNat ∧ fld w 47 37 = (a.repDone + 1) % 2 ^ 11
                  ∧ fld w 55 48 = Sc.ok.code ∧ fld w 71 56 = a.gen % 2 ^ 16 ∧ fld w 95 72 = min late (2 ^ 24 - 1)
                  ∧ fld w 127 96 = timeAt s.d t' % 2 ^ 32)))))

/-- R198, R200 to R202: run-ahead stages up to 4 KiB beyond the source under a watch entry, within its bound, its block and free staging;
without an entry it waits in turn and is counted, and at a page that it may not read it stops and is counted (log 106). -/
def Sys2Proof.Claim.RunaheadFetches : Prop :=
  ∀ (n : StreamIx) (slot : SlotId) (s : State) (a : Active) (r : Rep) (addr : Nat), Awake s.d → InSlot s.d n slot a → a.reps.getLast? = some r →
    let y := sslot s.d n.val slot.toNat
    let start := sourceEnd a.desc r
    let me := (homeOf s.d a.kennel addr, n.val, slot.toNat, blockNo addr)
    y.ahead.length < a.desc.runahead * 4096 → y.aheadStop = false → readsIssued a.desc r = true → (placeOf a.desc r true).sp = 4 →
    (y.ahead = [] ∨ start = (y.aheadAt : Int)) → 0 < stageRoom s.d n.val → inSpace (start + y.ahead.length) 1 = some addr →
    let len := min (min 4096 (a.desc.runahead * 4096 - y.ahead.length)) (min (stageRoom s.d n.val) (65536 - addr % 65536))
    (aheadPage s.d a.kennel addr = false → ∃ t, exec (.runaheadFetch n (slot, .clean)) s = .next t
      ∧ sslot t.d n.val slot.toNat = { y with aheadStop := true } ∧ (se t.d n.val).pfStop = (se s.d n.val).pfStop + 1
      ∧ OtherSlots s.d t.d n slot ∧ t.d = { s.d with ses := t.d.ses }) ∧
    (aheadPage s.d a.kennel addr = true → (takeEntry s.d n.val slot.toNat a.kennel addr).2 = true → (peek s.d a.kennel addr len).1 = .ok →
      ∃ t, exec (.runaheadFetch n (slot, .clean)) s = .next t ∧ sslot t.d n.val slot.toNat = { y with
          aheadKennel := a.kennel, aheadAt := if y.ahead = [] then addr else y.aheadAt, ahead := y.ahead ++ (peek s.d a.kennel addr len).2 }
        ∧ OtherSlots s.d t.d n slot ∧ t.d = { s.d with ses := t.d.ses, mdies := t.d.mdies, watchQ := t.d.watchQ, pages := t.d.pages }) ∧
    (aheadPage s.d a.kennel addr = true → (takeEntry s.d n.val slot.toNat a.kennel addr).2 = false → me ∉ s.d.watchQ →
      ∃ t, exec (.runaheadFetch n (slot, .clean)) s = .next t ∧ sslot t.d n.val slot.toNat = y ∧ (se t.d n.val).pfWait = (se s.d n.val).pfWait + 1
        ∧ t.d.watchQ = s.d.watchQ ++ [me] ∧ OtherSlots s.d t.d n slot ∧ t.d = { s.d with ses := t.d.ses, watchQ := t.d.watchQ })

/-- R200, R245: the prefetch that has waited longest among those for which an entry is free takes it, and its reads under the block
arrive at the M-die; without such a prefetch nothing happens. -/
def Sys2Proof.Claim.WatchGranted : Prop :=
  ∀ (m : MDieId) (s : State), Awake s.d →
    (s.d.watchQ.find? (waiterReady s.d m.toNat) = none → exec (.watchGrant m) s = becomes s s.d) ∧
    (∀ n i b a, s.d.watchQ.find? (waiterReady s.d m.toNat) = some (m.toNat, n, i, b) → (sslot s.d n i).act = some a →
      let mine (p : Piece) : Bool := p.src == .memory && unwatched p && blockNo p.addr == b
      a.reps.any (fun r => r.pieces.any mine) = true →
      ∃ t, exec (.watchGrant m) s = .next t ∧ t.d.watchQ = s.d.watchQ.filter (· != (m.toNat, n, i, b)) ∧ t.d.arrived = s.d.arrived + 1
        ∧ (sslot t.d n i).act = some { a with reps := a.reps.map (fun r => { r with pieces := r.pieces.map (fun p => if mine p then
            { p with issued := some (beatNow s.d), deadline := (if a.desc.leash ≠ 0 then repStart a r.num + a.desc.leash else beatNow s.d + 64), order := s.d.arrived } else p) }) }
        ∧ (∃ w ∈ (mdie t.d m.toNat).watches, w.kennel = a.kennel ∧ w.block = b ∧ (n, i) ∈ w.holders)
        ∧ (∀ j, j ≠ m.toNat → mdie t.d j = mdie s.d j)
        ∧ t.d = { s.d with ses := t.d.ses, mdies := t.d.mdies, watchQ := t.d.watchQ, arrived := t.d.arrived })

/-- R203, R204: at the leash boundary a repetition with a read that issued before it and has not come is cancelled and counted; a dormant
descriptor of the same kennel in `FB_SLOT` goes on with its biscuits, and without one the task has a fault. Before the boundary nothing
happens. -/
def Sys2Proof.Claim.LeashFires : Prop :=
  ∀ (n : StreamIx) (slot : SlotId) (s : State) (a : Active) (r : Rep), Awake s.d → InSlot s.d n slot a → a.reps = [r] →
    let late := a.desc.leash ≠ 0 ∧ repStart a r.num + a.desc.leash ≤ beatNow s.d ∧ leashLate a r = true
    let fb := a.desc.fbSlot
    (¬ late → exec (.leashExpiry n slot) s = becomes s s.d) ∧
    (late → ∃ d, (se d n.val).leashCnt = (se s.d n.val).leashCnt + 1
      ∧ d = { s.d with ses := d.ses, mdies := d.mdies, watchQ := d.watchQ, reads := d.reads } ∧
      (∀ f, (sslot s.d n.val fb).act = some f → a.desc.fbEn = true → f.waiting = true → f.kennel = a.kennel → fb ≠ slot.toNat →
        exec (.leashExpiry n slot) s = becomes s d
        ∧ (sslot d n.val fb).act = some { f with
            waiting := false, plan := repStart a r.num, next := 1, reps := [{ num := 0, biscuits := r.biscuits, lastArrival := s.d.eclk }] }
        ∧ (a.next ≤ a.desc.rep → InSlot d n slot { a with reps := [], repDone := a.repDone + 1, fallbacks := a.fallbacks + 1 })
        ∧ (a.desc.rep < a.next → (sslot d n.val slot.toNat).act = none ∧ (se d n.val).doneCnt = (se s.d n.val).doneCnt + 1)) ∧
      (a.desc.fbEn = false ∨ fb = slot.toNat ∨ (∀ f, (sslot s.d n.val fb).act = some f → f.waiting = false ∨ f.kennel ≠ a.kennel) →
        exec (.leashExpiry n slot) s = becomes s (settle (taskFault d a.kennel .task)) ∧ InSlot d n slot { a with reps := [] }))

/-- R218, R224, R225, R242: of the waiting migrations that can start, the first of the highest priority does while fewer than eight run.
The end of a promotion frees the far granules, and the page reads as its image decodes; the end of a demotion stores the page's image
in free granules and gives its frame back. Blocks in which a migration's reads met UE go on poisoned. -/
def Sys2Proof.Claim.MigrationsMovePages : Prop :=
  ∀ (m : MDieId) (k : KennelId) (pg : BitVec 23) (ues : List (BitVec 9)) (s : State) (g : Mig), Awake s.d → g.key = pageKey k.toNat pg.toNat →
    let p := page s.d k.toNat pg.toNat
    let base := pg.toNat * pageBytes
    let others (d : Dev) := (∀ j, j ≠ k.toNat → kmem d j = kmem s.d j)
      ∧ (∀ x, x < base ∨ base + pageBytes ≤ x → Mem.byte (kmem d k.toNat) x = Mem.byte (kmem s.d k.toNat) x)
      ∧ (∀ j, j ≠ g.key → Tbl.get {} d.pages j = Tbl.get {} s.d.pages j)
    p.home = m.toNat →
    (∀ l1 l2, ((mdie s.d m.toNat).migs.filter (·.running)).length < 8 →
      (mdie s.d m.toNat).migs.filter (canStart s.d m.toNat) = l1 ++ g :: l2 → (∀ h ∈ l1, g.prio < h.prio) → (∀ h ∈ l2, g.prio ≤ h.prio) →
      (∀ key ∈ wantFrame s.d m.toNat, frameReady s.d m.toNat (key / 8388608) = true) → ∃ t, exec (.migrationStart m) s = .next t
      ∧ (page t.d k.toNat pg.toNat).st = (if g.up then .promoting else .demoting) ∧ { g with running := true } ∈ (mdie t.d m.toNat).migs
      ∧ (mdie t.d m.toNat).frames.length = (mdie s.d m.toNat).frames.length + (if g.up then 1 else 0)
      ∧ others t.d ∧ t.d = { s.d with pages := t.d.pages, mdies := t.d.mdies }) ∧
    ((mdie s.d m.toNat).migs.find? (fun x => x.key == g.key && x.running) = some g → (∀ w ∈ s.d.waits, waitKey w ≠ g.key) →
      (g.up = true → mapBad p = false → ∃ d, exec (.migrationComplete k pg (ues, [])) s = becomes s (settle d) ∧ (d.reports = [] → settle d = d)
        ∧ (page d k.toNat pg.toNat).st = .near ∧ (page d k.toNat pg.toNat).extent = [] ∧ (page d k.toNat pg.toNat).frame = p.frame
        ∧ (mdie d m.toNat).far = (mdie s.d m.toNat).far.filter (fun x => !p.extent.contains x)
        ∧ (∀ b < 512, ∀ x < 4096, BitVec.ofNat 9 b ∉ ues → (decodeBlock (imageBlock p.image b)).1 = .ok →
            Mem.byte (kmem d k.toNat) (base + 4096 * b + x) = (decodeBlock (imageBlock p.image b)).2.getD x 0)
        ∧ (∀ b < 512, BitVec.ofNat 9 b ∈ ues → ∀ l < 64, 64 * b + l ∈ (page d k.toNat pg.toNat).poison) ∧ others d) ∧
      (g.up = true → mapBad p = true → ∃ d, exec (.migrationComplete k pg (ues, [])) s = becomes s (settle d) ∧ (page d k.toNat pg.toNat).st = .lost
        ∧ others d) ∧
      (g.up = false → wantFrame s.d m.toNat = [] → ∃ d, exec (.migrationComplete k pg (ues, [])) s = becomes s (settle d) ∧ (d.reports = [] → settle d = d)
        ∧ (page d k.toNat pg.toNat).st = .far
        ∧ (let img := ues.foldl (fun i b => Tbl.set {} i b.toNat (poisonBlock p.etype)) (pageImage s.d g.key)
          let gs := pickGranules (imageGranules img) (takenGranules (mdie s.d m.toNat)) p.pid 0
          (page d k.toNat pg.toNat).image = img ∧ (page d k.toNat pg.toNat).extent = gs ∧ (mdie d m.toNat).far = (mdie s.d m.toNat).far ++ gs)
        ∧ (mdie d m.toNat).frames = (mdie s.d m.toNat).frames.filter (· != p.frame) ∧ others d))

/-- R226: a write of a stream slot that has waited 16 beats for a frame, with none free or freed since, ends its descriptor with
`SC_QUOTA`; where a frame is at hand, nothing ends. -/
def Sys2Proof.Claim.FrameWaitEnds : Prop :=
  ∀ (k : KennelId) (pg : BitVec 23) (s : State) (w : MemWait) (n : StreamIx) (slot : SlotId) (a : Active), Awake s.d →
    let p := page s.d k.toNat pg.toNat
    (frameReady s.d p.home k.toNat = true → exec (.frameWaitTimeout k pg) s = becomes s s.d) ∧
    (p.st = .zero ∨ p.st = .far → frameReady s.d p.home k.toNat = false → (∀ t, (mdie s.d p.home).freedAt = some t → t < w.since) →
      s.d.waits = [w] → w.by' = .stream n.val slot.toNat → waitKey w = pageKey k.toNat pg.toNat →
      due s.d w.since (16 * beatPeriod s.d * 3 / 2) = true → InSlot s.d n slot a →
      ∃ d', exec (.frameWaitTimeout k pg) s = becomes s d' ∧ Ends { s.d with waits := [] } d' n slot a .quota)

/-- R221, R235: a tensor hint is written on every M-die, but for entry 0, which reads with `EN` 0; no other hint changes. -/
def Sys2Proof.Claim.HintsUpdate : Prop :=
  ∀ (t : BitVec 16) (v : DWord) (s : State), Awake s.d →
    ∃ u, exec (.hintUpdate t v) s = .next u ∧ (∀ m < 4, hint u.d m t.toNat = if t = 0 then 0 else v)
      ∧ (∀ m x, x ≠ t.toNat → hint u.d m x = hint s.d m x) ∧ u.d = { s.d with mdies := u.d.mdies }

/-! ### Zholin ports, trees and recovery (chapters 8, 9 and 13) -/

namespace Sys2Proof.Machine

/-- A flit as the receiver holds it. -/
abbrev held (r : RxFlit) : Flit := { r.flit with origin := none }

/-- A flit that every check before its own admits, and the device after those checks (R253 to R262). -/
def Received (d : Dev) (p : PortId) (r : RxFlit) (row : FlitRow) (d' : Dev) : Prop :=
  Awake d ∧ flitRow r.flit = row ∧ rxCheck d p.toNat r = (d', some (held r))

/-- What an event of the host changes: rings and interrupts, and nothing else (R366). -/
abbrev hostOf (d d' : Dev) : Dev := { d with mbx := d'.mbx, out := d'.out, fns := d'.fns }

/-- Every port but `p` is as before. -/
def OtherPorts (d d' : Dev) (p : Nat) : Prop := ∀ q, q ≠ p → port d' q = port d q

/-- Entries of reduction trees toward port `p` free once their flits have gone (R277). -/
def slotFrees (d : Dev) (p : Nat) : Dev :=
  each d (d.trees.keys.filter (fun tn => let t := tree d tn; t.en && !t.mcast && !t.root && t.upPort == p)) freeAccepted

/-- The commands that bring a received flit, with the row of Table 8-5 that each takes. -/
def flitCommands (p : PortId) (r : RxFlit) (arr : Nat) (ecc : Ecc) (rebuilt : Option (List Byte)) : List (Instr × FlitRow) :=
  [(.idle p r, .idle), (.neg p r, .neg), (.negDone p r, .negDone), (.tcred p r, .tcred), (.bark p r arr, .bark), (.red p r, .red),
    (.redX p r, .redX), (.mcast p r, .mcast), (.readReq p r ecc, .readReq), (.readRsp p r, .readRsp), (.rcvAbort p r, .rcv 1),
    (.rcvNbr p r, .rcv 2), (.rcvQuiet p r, .rcv 3), (.rcvLost p r, .rcv 4), (.rcvAdopt p r, .rcv 5), (.rcvJoin p (r, rebuilt), .rcv 6),
    (.rcvGo p r rebuilt, .rcv 7), (.rcvEnd p r, .rcv 8), (.rcvCommitted p r, .rcv 9), (.rcvSealed p r, .rcv 10)]

/-- An accepted RCV about task `t` that this module has not seen: what it says, and the device that has noted it and flooded it on
(R398). -/
def RcvActs (d : Dev) (p : PortId) (r : RxFlit) (x : Rcv) (t : Task) (d' : Dev) : Prop :=
  ∃ d1, Received d p r (.rcv x.code) d1 ∧ rcvTake d1 p.toNat r.flit = (d', some x) ∧ task d x.k = some t ∧ rcvOf r.flit.tsf = x

/-- The task of kennel k has ended with status `c`. -/
def EndedWith (d : Dev) (k : Nat) (c : Sc) : Prop := ∃ t, task d k = some t ∧ t.st = .ended ∧ t.endSt = c

end Sys2Proof.Machine

/-- R249, R250, R266: bring-up. Each port event moves the state as Table 8-2 says, and no other port or unit changes. -/
def Sys2Proof.Claim.PortBringUp : Prop :=
  ∀ (p : PortId) (s : State) (v : DWord), Awake s.d →
    let x := port s.d p.toNat
    let moves (c : Instr) (q : Port → Prop) := ∃ t, exec c s = .next t ∧ q (port t.d p.toNat) ∧ OtherPorts s.d t.d p.toNat
      ∧ t.d = { hostOf s.d t.d with ports := t.d.ports }
    (x.st ≠ .up → bit v 63 = true → (bit x.cfg 63 = false ∨ x.st = .failed) → moves (.portEnable p v) (fun y => y.st = .training ∧ y.tries = 0)) ∧
    (x.st ≠ .up → bit v 63 = false → x.st ≠ .disabled → moves (.portEnable p v) (fun y => y.st = .disabled)) ∧
    (x.st ≠ .up → bit v 63 = true → moves (.portRetrain p v) (fun y => y.st = .training ∧ y.tries = 0 ∧ y.trainFails = 0)) ∧
    (x.st = .training → moves (.trainingComplete p) (fun y => y.st = .qualifying ∧ y.trainFails = 0)) ∧
    (x.st = .training → due s.d x.since (ms 500) = true → moves (.trainingTimeout p) (fun y => y.trainFails = x.trainFails + 1
      ∧ y.st = (if x.trainFails + 1 ≥ 3 then .failed else .training) ∧ (x.trainFails + 1 ≥ 3 → y.cause = 1))) ∧
    (x.st = .negotiating → due s.d x.since (ms 10) = true → moves (.negotiateTimeout p) (fun y => y.tries = x.tries + 1
      ∧ y.st = (if x.tries + 1 ≥ 3 then .failed else .training) ∧ (x.tries + 1 ≥ 3 → y.cause = 3)))

/-- R249, R254, R255, R258, R385: a clean qualifying window enters NEGOTIATING with the link layer afresh, what waits to be sent kept and
the link epoch one more; a window with an uncorrectable codeword or too many corrected symbols fails the try. Its codewords and symbols
count. -/
def Sys2Proof.Claim.QualifyingEnds : Prop :=
  ∀ (p : PortId) (s : State) (ucw csym syms : Nat), Awake s.d → (port s.d p.toNat).st = .qualifying → due s.d (port s.d p.toNat).since (ms 100) = true →
    let x := port s.d p.toNat
    let frees (q : List Flit) : List Flit := q.map (fun f => if f.origin.any (fun o => o.1 == p.toNat) then { f with origin := none } else f)
    ∃ t, exec (.qualifyWindowEnd p ucw csym syms) s = .next t ∧ t.d = { hostOf s.d t.d with ports := t.d.ports }
      ∧ (port t.d p.toNat).cnt = { x.cnt with fecUcw := x.cnt.fecUcw + BitVec.ofNat 32 ucw, fecCsym := x.cnt.fecCsym + BitVec.ofNat 32 csym }
      ∧ (ucw = 0 → csym * 1000000 ≤ syms → (port t.d p.toNat).st = .negotiating
          ∧ (port t.d p.toNat).link = { ackAt := s.d.eclk, q0 := x.link.q0.filter isTcred, q1 := x.link.q1, q2 := frees x.link.q2, q3 := x.link.q3 }
          ∧ (port t.d p.toNat).epoch = (x.epoch + 1) % 256 ∧ (port t.d p.toNat).nonces = []
          ∧ (∀ k < 64, Tbl.get 0 (port t.d p.toNat).kEpochs k
              = if k ≠ 0 ∧ bit x.kmask k = true ∧ (kennel s.d k).cur.isSome = true then min 256 (Tbl.get 0 x.kEpochs k + 1) else Tbl.get 0 x.kEpochs k)
          ∧ ∀ q < 16, q ≠ p.toNat → port t.d q = { port s.d q with link := { (port s.d q).link with q2 := frees (port s.d q).link.q2 } })
      ∧ (0 < ucw ∨ syms < csym * 1000000 → (port t.d p.toNat).tries = x.tries + 1
          ∧ (port t.d p.toNat).st = (if x.tries + 1 ≥ 3 then .failed else .training) ∧ OtherPorts s.d t.d p.toNat)

/-- R264: NEG is sent at once and then every 16 µs until one has been received. A NEG with no common version fails the port with cause 4,
one from another peer than the configured one with cause 5; the first one with a common version is answered by NEG_DONE. A NEG_DONE with
the version chosen here, where this port's own has left, takes the port UP; otherwise it is noted. -/
def Obligations.NegotiationAgrees : Prop :=
  ∀ (p : PortId) (s : State) (r : RxFlit) (d' : Dev),
    let x := port s.d p.toNat
    (Awake s.d → x.st = .negotiating → x.link.chosen = none → (∀ t, x.link.negAt = some t → due s.d t (us 16) = true) →
      exec (.negSend p) s = becomes s
        (modPort s.d p.toNat (fun y => { y with link := { y.link with q0 := y.link.q0 ++ [negFlit s.d p.toNat], negAt := some s.d.eclk } }))) ∧
    (Awake s.d → x.st ≠ .negotiating ∨ x.link.chosen ≠ none ∨ (∃ t, x.link.negAt = some t ∧ due s.d t (us 16) = false) →
      exec (.negSend p) s = becomes s s.d) ∧
    (Received s.d p r .neg d' →
      let y := port d' p.toNat
      let offer := fld r.flit.tsf 55 54 &&& fld y.cfg 61 60
      let other := bit y.cfg 59 = true ∧ (fld r.flit.tsf 53 42 ≠ fld y.cfg 58 47 ∨ fld r.flit.tsf 41 38 ≠ fld y.cfg 46 43)
      (y.st ≠ .negotiating → exec (.neg p r) s = becomes s d') ∧
      (y.st = .negotiating → offer = 0 ∨ other → ∃ t, exec (.neg p r) s = .next t
        ∧ (port t.d p.toNat).st = .failed ∧ (port t.d p.toNat).cause = (if offer = 0 then 4 else 5)
        ∧ (port t.d p.toNat).peerMod = fld r.flit.tsf 53 42 ∧ (port t.d p.toNat).peerPort = fld r.flit.tsf 41 38
        ∧ OtherPorts d' t.d p.toNat ∧ t.d = { hostOf d' t.d with ports := t.d.ports }) ∧
      (y.st = .negotiating → offer ≠ 0 → ¬ other → exec (.neg p r) s = becomes s (modPort d' p.toNat (fun z => { z with
        peerMod := fld r.flit.tsf 53 42
        peerPort := fld r.flit.tsf 41 38
        link := if z.link.chosen.isSome then z.link else { z.link with
          q0 := z.link.q0 ++ [negDoneFlit (if offer ≥ 2 then 2 else 1)], chosen := some (if offer ≥ 2 then 2 else 1) } })))) ∧
    (Received s.d p r .negDone d' →
      let y := port d' p.toNat
      let v := fld r.flit.tsf 55 54
      (y.st ≠ .negotiating → exec (.negDone p r) s = becomes s d') ∧
      (y.st = .negotiating → y.link.chosen ≠ some v ∨ y.link.doneSent = false → exec (.negDone p r) s = becomes s
        (modPort d' p.toNat (fun z => { z with link := { z.link with doneRcvd := some v } }))) ∧
      (y.st = .negotiating → y.link.chosen = some v → y.link.doneSent = true → ∃ d, exec (.negDone p r) s = becomes s (settle d)
        ∧ (v ≠ 1 → settle d = d) ∧ (port d p.toNat).st = .up ∧ (port d p.toNat).version = v ∧ (port d p.toNat).bark.alive = true
        ∧ OtherPorts d' d p.toNat ∧ d = { hostOf d' d with ports := d.ports, reports := d.reports }))

/-- R250, R331: loss of PCS lock takes an UP port to TRAINING; its neighbour no longer barks, and every task that uses the port has a
fault. Another port's loss changes nothing. -/
def Sys2Proof.Claim.PcsLossRetrains : Prop :=
  ∀ (p : PortId) (s : State), Awake s.d →
    ((port s.d p.toNat).st ≠ .up → exec (.pcsLockLoss p) s = becomes s s.d) ∧
    ((port s.d p.toNat).st = .up → ∃ d, exec (.pcsLockLoss p) s = becomes s (settle d) ∧ (s.d.tasks = [] → settle d = { d with reports := [] })
      ∧ (port d p.toNat).st = .training ∧ (port d p.toNat).version = 0 ∧ (port d p.toNat).bark.alive = false
      ∧ .neighbour (port s.d p.toNat).peerMod ∈ d.reports ∧ (∀ k ∈ tasksThrough s.d p.toNat, runsTask s.d k = true → .fault k .task ∈ d.reports)
      ∧ OtherPorts s.d d p.toNat ∧ d = { hostOf s.d d with ports := d.ports, reports := d.reports })

/-- R250, R255, R387: a window with more than one corrected symbol in 100,000 sets `DEGRADED`; 4,096 LCLK without an advance of
`ACK` replay every outstanding flit, and after eight such replays the port trains again; a window of 256 slots renews the Strict shares. -/
def Sys2Proof.Claim.LinkTimers : Prop :=
  ∀ (p : PortId) (s : State) (csym syms : Nat), Awake s.d →
    let x := port s.d p.toNat
    (x.st = .up → syms < csym * 100000 → ∃ t, exec (.degradeWindow p csym syms) s = .next t ∧ port t.d p.toNat = { x with degraded := true }
      ∧ OtherPorts s.d t.d p.toNat ∧ t.d = { hostOf s.d t.d with ports := t.d.ports }) ∧
    (x.st = .up ∨ x.st = .negotiating → x.link.unacked ≠ [] → due s.d x.link.ackAt (lclk 4096) = true →
      (x.link.replays < 8 → exec (.ackTimeout p) s = becomes s (modPort s.d p.toNat (fun y => { y with
        retryF := true
        cnt := { y.cnt with retry := y.cnt.retry + 1 }
        link := { y.link with resend := y.link.unacked.map (·.1), replays := y.link.replays + 1, ackAt := s.d.eclk } }))) ∧
      (8 ≤ x.link.replays → ∃ d, exec (.ackTimeout p) s = becomes s (settle d) ∧ (port d p.toNat).st = .training ∧ (port d p.toNat).version = 0
        ∧ OtherPorts s.d d p.toNat)) ∧
    (x.st = .up → 256 ≤ x.slot → exec (.strictWindow p) s = becomes s (modPort s.d p.toNat (fun y => { y with slot := y.slot - 256, strictUsed := [] })))

/-- R254, R255, R257: a damaged flit is discarded and counted; one that is not the next in sequence is discarded and sets `NAK`. No
command that brings a flit does anything else with it. -/
def Sys2Proof.Claim.LinkDiscards : Prop :=
  ∀ (p : PortId) (s : State) (r : RxFlit) (arr : Nat) (ecc : Ecc) (rebuilt : Option (List Byte)), Awake s.d →
    (port s.d p.toNat).st = .up ∨ (port s.d p.toNat).st = .negotiating → ∀ z ∈ flitCommands p r arr ecc rebuilt, flitRow r.flit = z.2 →
    let fec (c : PortCnt) : PortCnt := { c with fecUcw := c.fecUcw + BitVec.ofNat 32 r.ucw, fecCsym := c.fecCsym + BitVec.ofNat 32 r.csym }
    (r.intact = false → exec z.1 s = becomes s (modPort s.d p.toNat (fun x => { x with
        cnt := { fec x.cnt with crc := x.cnt.crc + 1 }
        bark := { x.bark with discardAt := some s.d.eclk } }))) ∧
    (r.intact = true → r.flit.ftype ≠ 0 → r.seq ≠ ((port s.d p.toNat).link.rxSeq + 1) % 1024 → (port s.d p.toNat).link.unacked = [] →
      exec z.1 s = becomes s (modPort s.d p.toNat (fun x => { x with
        cnt := fec x.cnt
        link := { x.link with nak := true }
        bark := { x.bark with discardAt := some s.d.eclk } })))

/-- R253, R255, R258, R260, R262, R263: what the link layer admits on an UP port: a flit in sequence, of the form of R253, of an enabled
kennel, whose tag verifies; a bad tag fails the port with cause 7. Without kennel 0's key a flit that needs it is discarded and counted,
whatever its form. -/
def Sys2Proof.Claim.LinkAdmits : Prop :=
  ∀ (p : PortId) (d : Dev) (r : RxFlit), (port d p.toNat).st = .up → r.intact = true → (port d p.toNat).link.unacked = [] →
    r.seq = ((port d p.toNat).link.rxSeq + 1) % 1024 → r.flit.ftype ≠ 0 →
    let d' := modPort d p.toNat (fun x => { x with
      cnt := { x.cnt with fecUcw := x.cnt.fecUcw + BitVec.ofNat 32 r.ucw, fecCsym := x.cnt.fecCsym + BitVec.ofNat 32 r.csym, rx := x.cnt.rx + 1 }
      link := { x.link with
        rxSeq := r.seq
        nak := false
        nakSlots := 0
        freed := listSet x.link.freed r.flit.tc (x.link.freed.getD r.flit.tc 0 + 1) } })
    (r.flit.tc ≠ 0 → wellFormedFlit r.flit = true → r.flit.ktag ≠ 0 → portAllows d p.toNat r.flit.ktag = true →
      Tbl.get 0 (port d p.toNat).kEpochs r.flit.ktag < 256 →
      (r.tagOk = true → rxCheck d p.toNat r = (d', some (held r))) ∧
      (r.tagOk = false → (rxCheck d p.toNat r).2 = none ∧ (port (rxCheck d p.toNat r).1 p.toNat).st = .failed ∧ (port (rxCheck d p.toNat r).1 p.toNat).cause = 7)) ∧
    (r.flit.tc = 0 → needsKey0 r.flit = true → (kennel d 0).cur = none → rxCheck d p.toNat r = (countReject d' p.toNat, none)) ∧
    (r.flit.tc = 0 → needsKey0 r.flit = true → (kennel d 0).cur ≠ none → wellFormedFlit r.flit = true → r.tagOk = true →
      rxCheck d p.toNat r = (d', some (held r)))

/-- R255, R257, R258: an accepted IDLE returns the credits freed since the last one and, without `NAK`, does nothing else. -/
def Sys2Proof.Claim.IdleReturnsCredits : Prop :=
  ∀ (p : PortId) (s : State) (r : RxFlit) (d' : Dev), Received s.d p r .idle d' → bit r.flit.tsf 63 = false →
    let c := [fld r.flit.tsf 7 0, fld r.flit.tsf 15 8, fld r.flit.tsf 23 16, fld r.flit.tsf 31 24]
    exec (.idle p r) s = becomes s (modPort d' p.toNat (fun x => { x with link := { x.link with
      credit := x.link.credit.mapIdx (fun i v => v + (c.getD i 0 + 256 - x.link.credSeen.getD i 0) % 256), credSeen := c } }))

/-- R255, R258, R259, R264, R277, R330: in a flit slot with nothing to resend a port sends the TC0 flit that goes next, else, when UP, the
flit of the class whose turn it is, for one credit, numbered and kept until it is acknowledged; with nothing ready it sends IDLE. A bark
leaves with its offset. What has left frees entries of reduction trees (log 104); the NEG_DONE that answers the peer's takes the port UP. -/
def Sys2Proof.Claim.FlitSlotSends : Prop :=
  ∀ (p : PortId) (s : State) (ofs : Nat), Awake s.d →
    let x := port s.d p.toNat
    let sends (c i : Nat) (f : Flit) (wrr : List Nat) := ∃ d, exec (.flitSlot p ofs) s = becomes s (slotFrees d p.toNat)
      ∧ ((∀ tn, ∀ e ∈ adder s.d (tree s.d tn).adder, e.leaving = false) → slotFrees d p.toNat = d)
      ∧ (port d p.toNat).link.unacked = x.link.unacked ++ [(x.link.nextSeq, f)] ∧ (port d p.toNat).link.nextSeq = (x.link.nextSeq + 1) % 1024
      ∧ (∀ j ≤ 3, queueOf (port d p.toNat).link j = if j = c then removeAt (queueOf x.link c) i else queueOf x.link j)
      ∧ (port d p.toNat).link.credit = listSet x.link.credit c (x.link.credit.getD c 0 - 1) ∧ (port d p.toNat).link.wrr = wrr
      ∧ (port d p.toNat).bark = (if f.ftype = 2 then { x.bark with tx := noteOfs x.bark.tx (ownBeatKey s.d (fld f.tsf 63 52)) (min ofs 0xFFFF) } else x.bark)
      ∧ d.out = s.d.out ++ [.flit p.toNat c (hdrWord f x.link.nextSeq x.link.rxSeq) f.tsf f.pay] ∧ OtherPorts s.d d p.toNat
      ∧ d = { s.d with ports := d.ports, out := d.out }
    x.link.resend = [] → x.link.sinceIdle < 63 → x.link.nak = false → x.link.unacked.length < 256 →
    (∀ i f, x.st = .up → ctrlNext s.d p.toNat = some (i, f) → sends 0 i (stampBark f ofs) x.link.wrr) ∧
    (∀ c i f w, x.st = .up → ctrlNext s.d p.toNat = none → wrrClass s.d p.toNat = some (c, i, f, w) → f.ftype ≠ 2 → sends c i f w) ∧
    (x.st = .up → ctrlNext s.d p.toNat = none → wrrClass s.d p.toNat = none → ∃ d, exec (.flitSlot p ofs) s = becomes s (slotFrees d p.toNat)
      ∧ d.out = s.d.out ++ [.flit p.toNat 0 (hdrWord (idleFlit x (heldFlits s.d p.toNat)) 0 x.link.rxSeq) (idleFlit x (heldFlits s.d p.toNat)).tsf []]
      ∧ (port d p.toNat).link = { x.link with sinceIdle := 0, nakSlots := 0 } ∧ OtherPorts s.d d p.toNat ∧ d = { s.d with ports := d.ports, out := d.out }) ∧
    (∀ i f v, x.st = .negotiating → ctrlNext s.d p.toNat = some (i, f) → isNegDone f = true → x.link.chosen = some v → x.link.doneRcvd = some v →
      ∃ d, exec (.flitSlot p ofs) s = becomes s (settle d) ∧ (v ≠ 1 → settle d = d)
        ∧ (port d p.toNat).st = .up ∧ (port d p.toNat).version = v ∧ (port d p.toNat).bark.alive = true)

/-- R277: TCRED from the parent's port adds its credits where no entry of the tree waits. -/
def Sys2Proof.Claim.TreeCreditsArrive : Prop :=
  ∀ (p : PortId) (s : State) (r : RxFlit) (d' : Dev), Received s.d p r .tcred d' →
    let tn := fld r.flit.tsf 55 44
    let n := fld r.flit.tsf 43 37
    let t := tree d' tn
    t.en = true → t.mcast = false → t.root = false → t.upPort = p.toNat → 0 < n → n ≤ 63 → adder d' t.adder = [] →
    exec (.tcred p r) s = becomes s (modTree d' tn (fun t => { t with upCredit := t.upCredit + n }))

/-- R272, R273, R279: a RED flit of the open step from one of two contributing ports opens its chunk entry with the payload's
words; no flit leaves and no other tree or port state changes. -/
def Sys2Proof.Claim.RedOpensEntry : Prop :=
  ∀ (p : PortId) (s : State) (r : RxFlit) (d' : Dev) (q : Nat), Received s.d p r .red d' →
    let f := r.flit
    let tn := fld f.tsf 63 52
    let t := tree d' tn
    (port d' p.toNat).esc = none → redExpected d' p.toNat f = true → fld f.tsf 51 48 ≠ 2 → adder d' t.adder = [] → t.stepV = true → t.closing = false →
    fld f.tsf 47 36 = t.openStep % 4096 → q < 16 → q ≠ p.toNat → Nat.testBit t.down q = true →
    exec (.red p r) s = becomes s (setAdder d' t.adder [{ tree := tn, kennel := t.kennel, step := t.openStep % 4096, coll := fld f.tsf 35 24
                                                          elem := fld f.tsf 23 0, openBeat := beatNow d', got := [p.toNat]
                                                          acc := some (.words (chunkWords 64 f.pay)) }])

/-- R260, R275: RED_X without a RED flit that waits for it is rejected, a fault of a task that runs; one that does not yet complete its
RED flit is kept; the last one opens the chunk's entry with the accumulators that the wire elements and the containers give. -/
def Sys2Proof.Claim.RedXEscapes : Prop :=
  ∀ (p : PortId) (s : State) (r : RxFlit) (d' : Dev), Received s.d p r .redX d' →
    ((port d' p.toNat).esc = none → exec (.redX p r) s = becomes s (settle (taskFault
      (modPort d' p.toNat (fun x => { x with cnt := { x.cnt with reject := x.cnt.reject + 1 }, rejected := true })) r.flit.ktag .task))) ∧
    (∀ w, (port d' p.toNat).esc = some w → w.flit.tsf = r.flit.tsf → w.flit.ktag = r.flit.ktag →
      (w.got.length + 5 < w.need.length → (∀ x ∈ r.flit.pay.drop 240, x = 0) → exec (.redX p r) s = becomes s
        (modPort d' p.toNat (fun x => { x with esc := some { w with got := w.got ++ containers r.flit } }))) ∧
      (∀ n ss q, w.got.length + n = w.need.length → n ≤ 5 → (∀ x ∈ r.flit.pay.drop (48 * n), x = 0) → redExpected d' p.toNat w.flit = true →
        strictOf (chunkWires 16 w.flit.pay) (w.got ++ (containers r.flit).take n) = some ss →
        let tn := fld w.flit.tsf 63 52
        let t := tree d' tn
        adder d' t.adder = [] → t.stepV = true → t.closing = false → fld w.flit.tsf 47 36 = t.openStep % 4096 →
        q < 16 → q ≠ p.toNat → Nat.testBit t.down q = true → exec (.redX p r) s = becomes s
          (setAdder (modPort d' p.toNat (fun x => { x with esc := none })) t.adder [{
            tree := tn, kennel := t.kennel, step := t.openStep % 4096, coll := fld w.flit.tsf 35 24, elem := fld w.flit.tsf 23 0
            openBeat := beatNow d', got := [p.toNat], acc := some (.strict ss) }])))

/-- R272, R277, R283: a local contribution whose bytes are staged takes one local credit of its `CIDX`, joins an entry that a second
contributor keeps open, and moves to the next chunk. Without a credit, or without its bytes, it waits; on a tree that is not enabled for
the kennel the descriptor ends with `SC_DENIED`. -/
def Sys2Proof.Claim.LocalContributionJoins : Prop :=
  ∀ (n : StreamIx) (slot : SlotId) (s : State) (a : Active) (r : Rep) (c : Nat), Awake s.d → InSlot s.d n slot a → writer a = some r → a.desc.kind = 4 →
    r.reading = true → nextChunk a.desc r = some c →
    let t := tree s.d a.desc.tree
    let bytes := stagedRange r (c * chunkBytes a.desc) (chunkBytes a.desc)
    (bytes = none → exec (.localContribution n slot) s = becomes s s.d) ∧
    (∀ bs, bytes = some bs →
      (t.en = false ∨ t.kennel ≠ a.kennel → ∃ d', exec (.localContribution n slot) s = becomes s d' ∧ Ends s.d d' n slot a .denied) ∧
      (t.en = true → t.kennel = a.kennel → Tbl.get 0 t.localCredit a.desc.cidx = 0 → exec (.localContribution n slot) s = becomes s s.d) ∧
      (t.en = true → t.kennel = a.kennel → 0 < Tbl.get 0 t.localCredit a.desc.cidx → adder s.d t.adder = [] → t.stepV = true → t.closing = false →
        a.desc.step % 4096 = t.openStep % 4096 → 2 ≤ t.localN →
        ∃ u b r', exec (.localContribution n slot) s = .next u ∧ InSlot u.d n slot b ∧ writer b = some r' ∧ b.desc = a.desc
          ∧ r'.nextChunk = c + 1 ∧ r'.refused = r.refused
          ∧ Tbl.get 0 (tree u.d a.desc.tree).localCredit a.desc.cidx = Tbl.get 0 t.localCredit a.desc.cidx - 1
          ∧ adder u.d t.adder = [{ tree := a.desc.tree, kennel := t.kennel, step := a.desc.step % 4096, coll := a.desc.coll
                                   elem := chunkElem a.desc r c, openBeat := beatNow s.d, got := [], acc := none
                                   locals := [(a.desc.cidx, chunkOf a.desc bs)] }]
          ∧ u.d = { s.d with trees := u.d.trees, adders := u.d.adders, ses := u.d.ses, mdies := u.d.mdies, watchQ := u.d.watchQ }))

/-- R280, R331, R336, R353: an open entry that has waited its leash is a stopped neighbour where a missing peer no longer barks, else a
fault of its task by lag, which ends a task in STARTING with `SC_ABORTED`; with no such entry nothing changes. -/
def Sys2Proof.Claim.EntryLeashExpires : Prop :=
  ∀ (t : TreeId) (s : State), Awake s.d →
    let x := tree s.d t.toNat
    let late (e : AEntry) : Bool := e.tree == t.toNat && !isDone x e && e.openBeat + x.leash ≤ beatNow s.d
    ((∀ e ∈ adder s.d x.adder, late e = false) → exec (.entryLeashExpiry t) s = becomes s s.d) ∧
    (∀ e, (adder s.d x.adder).find? late = some e →
      (∀ p, (missingPorts x e).find? (fun p => !(port s.d p).bark.alive) = some p →
        exec (.entryLeashExpiry t) s = becomes s (settle (report s.d (.neighbour (port s.d p).peerMod)))) ∧
      ((∀ p ∈ missingPorts x e, (port s.d p).bark.alive = true) →
        exec (.entryLeashExpiry t) s = becomes s (settle (taskFault s.d e.kennel .lag)) ∧
        (∀ k, task s.d e.kennel = some k → k.st = .starting → EndedWith (settle (taskFault s.d e.kennel .lag)) e.kennel .aborted)))

/-- R285, R286, R194: an MCAST flit that arrives from a tree's parent goes on to every child port, and holds its receive buffer until it
has; where the tree has a litter here, its first flit begins a take-up, which requests a pop for each member. -/
def Sys2Proof.Claim.McastForwards : Prop :=
  ∀ (p : PortId) (s : State) (r : RxFlit) (d' : Dev), Received s.d p r .mcast d' →
    let t := tree d' (fld r.flit.tsf 63 52)
    let buffer := (port d' p.toNat).link.freed.getD 2 0
    let fwd := each d' (portsOf t.down) (fun d q => sendFlit d q { r.flit with origin := some (p.toNat, buffer) })
    let ln := fld r.flit.tsf 51 42
    let l := litter d' ln
    let members := (litMembers l).length
    t.en = true → t.kennel = r.flit.ktag → t.mcast = true → t.root = false → t.upPort = p.toNat →
    (t.localN ≠ 1 → exec (.mcast p r) s = becomes s fwd) ∧
    (t.localN = 1 → litEn l = true → litKennel l = r.flit.ktag → 0 < members → bit r.flit.tsf 41 = true → takeUps d' p.toNat = [] →
      exec (.mcast p r) s = becomes s { setTakeUps fwd p.toNat [{
          litter := ln, kennel := r.flit.ktag, ofs := fld r.flit.tsf 37 0, asked := true, popsLeft := members
          data := [(fld r.flit.tsf 37 0, r.flit.pay.take (64 * (fld r.flit.tsf 39 38 + 1)), bit r.flit.tsf 40, buffer)] }] with
        popReqs := d'.popReqs ++ (List.range members).map (fun i => ⟨.zl p.toNat, i, litFree l + i, r.flit.ktag, d'.eclk⟩) })

/-- R260, R268, R287: READ_REQ and READ_RSP for another module go on through the port of its route, one hop more, and are rejected after
the last hop; a READ_REQ of 256 bytes for this module is answered with what its memory holds. -/
def Sys2Proof.Claim.PeerReadsRoute : Prop :=
  ∀ (p : PortId) (s : State) (r : RxFlit) (d' : Dev) (ecc : Ecc),
    let f := held r
    let e := Tbl.get 0 d'.epochRun.routes (fld f.tsf 63 52)
    let on := sendFlit d' (e % 16) { f with tsf := (f.tsf &&& ~~~(mask 64 27 24)) ||| put 64 24 (fld f.tsf 27 24 + 1) }
    let away := fld f.tsf 63 52 ≠ d'.epochRun.moduleNo ∧ fld f.tsf 27 24 ≠ 15 ∧ 16 ≤ e
    (Received s.d p r .readReq d' → away → tooLongFor d' p.toNat f = false → tooLongFor d' (e % 16) f = false → exec (.readReq p r ecc) s = becomes s on) ∧
    (Received s.d p r .readRsp d' → away → stoppedTask d' f.ktag = false → exec (.readRsp p r) s = becomes s on) ∧
    (fld f.tsf 27 24 = 15 →
      (Received s.d p r .readReq d' → exec (.readReq p r ecc) s = becomes s (settle (rejectFlit d' p.toNat f.ktag))) ∧
      (Received s.d p r .readRsp d' → exec (.readRsp p r) s = becomes s (settle (rejectFlit d' p.toNat f.ktag)))) ∧
    (Received s.d p r .readReq d' → fld f.tsf 27 24 ≠ 15 → fld f.tsf 63 52 = d'.epochRun.moduleNo → tooLongFor d' p.toNat f = false →
      reqLen f = 1 → leNat (f.pay.take 6) < 2 ^ 38 → (∀ x ∈ f.pay.drop 8, x = 0) →
      ∀ d2 bs, memReadAll d' f.ktag (leNat (f.pay.take 5) % 2 ^ 38 * 64) 256 ecc = (d2, .ok, bs) →
      let back := Tbl.get 0 d2.epochRun.routes (fld f.tsf 51 40)
      16 ≤ back → exec (.readReq p r ecc) s = becomes s (settle (sendFlit d2 (back % 16) {
        ftype := 7, tc := 2, ktag := f.ktag, pay := bs
        tsf := put 64 52 (fld f.tsf 51 40) ||| put 64 40 d2.epochRun.moduleNo ||| put 64 28 (fld f.tsf 39 28) ||| put 64 8 0 ||| put 64 0 0 })))

/-- R287: the READ_RSP flits of a read bring its bytes, 256 at a time; the last one stages them for the read. `RSTAT` 5 ends the descriptor
with `SC_DENIED`, another error faults the task of a slot without a leash; a read unanswered for 256 beats is given up, a task fault. -/
def Sys2Proof.Claim.PeerReadsDeliver : Prop :=
  ∀ (p : PortId) (s : State) (r : RxFlit) (d' : Dev) (n : StreamIx) (slot : SlotId) (a : Active) (q : PeerRead) (rid : BitVec 12),
    (Received s.d p r .readRsp d' → fld r.flit.tsf 63 52 = d'.epochRun.moduleNo → fld r.flit.tsf 27 24 ≠ 15 → stoppedTask d' r.flit.ktag = false →
      rid.toNat = fld r.flit.tsf 39 28 → Tbl.get none d'.reads rid.toNat = some q → q.kennel = r.flit.ktag →
      let gone := { d' with reads := Tbl.set none d'.reads rid.toNat none }
      (fld r.flit.tsf 7 0 = 0 → q.got + 1 < q.len → exec (.readRsp p r) s = becomes s
        { d' with reads := Tbl.set none d'.reads rid.toNat (some { q with got := q.got + 1, bytes := q.bytes ++ r.flit.pay }) }) ∧
      (q.live = false → fld r.flit.tsf 7 0 ≠ 0 ∨ q.len ≤ q.got + 1 → exec (.readRsp p r) s = becomes s gone) ∧
      (q.live = true → q.engine = n.val → q.slot = slot.toNat → InSlot d' n slot a →
        (∀ y x, fld r.flit.tsf 7 0 = 0 → q.len ≤ q.got + 1 → a.reps.find? (fun x => x.num == q.rep) = some y → y.pieces.find? (fun x => x.off == q.off) = some x →
          ∃ d, exec (.readRsp p r) s = becomes s (goOn d n.val slot.toNat)
            ∧ InSlot d n slot (withRep a q.rep (fun r' => withBytes r' q.off ((q.bytes ++ r.flit.pay).take x.len)))
            ∧ OtherSlots d' d n slot ∧ d = { gone with ses := d.ses }) ∧
        (fld r.flit.tsf 7 0 = 5 → ∃ u, exec (.readRsp p r) s = becomes s u ∧ Ends gone u n slot a .denied) ∧
        (1 ≤ fld r.flit.tsf 7 0 → fld r.flit.tsf 7 0 ≤ 4 → a.desc.leash = 0 →
          exec (.readRsp p r) s = becomes s (settle (taskFault gone a.kennel .task))))) ∧
    (Awake s.d → Tbl.get none s.d.reads rid.toNat = some q →
      (q.beat + 256 ≤ beatNow s.d → exec (.peerReadTimeout rid) s = becomes s
        (settle (taskFault { s.d with reads := Tbl.set none s.d.reads rid.toNat none } q.kennel .task))) ∧
      (beatNow s.d < q.beat + 256 → exec (.peerReadTimeout rid) s = becomes s s.d))

/-- R382, R383: at its beat the next link key becomes current and the old one is kept 64 beats more, then erased. -/
def Sys2Proof.Claim.LinkKeysSwitch : Prop :=
  ∀ (k : KennelId) (s : State) (n : LinkKey), Awake s.d →
    ((kennel s.d k.toNat).next = some n → n.switchBeat ≤ beatNow s.d → ∃ t, exec (.keySwitch k) s = .next t
      ∧ kennel t.d k.toNat = { kennel s.d k.toNat with old := (kennel s.d k.toNat).cur, cur := some n, next := none }
      ∧ (∀ j, j ≠ k.toNat → kennel t.d j = kennel s.d j) ∧ (∀ p < 16, Tbl.get 0 (port t.d p).kEpochs k.toNat = 0)
      ∧ t.d = { s.d with kennels := t.d.kennels, ports := t.d.ports }) ∧
    (∀ o, (kennel s.d k.toNat).old = some o → (kennel s.d k.toNat).cur = some n → n.switchBeat + 64 ≤ beatNow s.d → ∃ t, exec (.oldKeyErase k) s = .next t
      ∧ kennel t.d k.toNat = { kennel s.d k.toNat with old := none } ∧ (∀ j, j ≠ k.toNat → kennel t.d j = kennel s.d j)
      ∧ t.d = { s.d with kennels := t.d.kennels })

/-- R398, R402, R404, R409, R412: accepted RCV messages that record: NBR, QUIET, LOST, JOIN where nothing is asked, COMMITTED and SEALED. A
module that is itself named LOST ends the task with `SC_ABORTED`; the coordinator that holds COMMITTED of every member closes the commit. -/
def Sys2Proof.Claim.RcvRecords : Prop :=
  ∀ (p : PortId) (s : State) (r : RxFlit) (x : Rcv) (t : Task) (d' : Dev) (rebuilt : Option (List Byte)), RcvActs s.d p r x t d' →
    (x.code = 2 → inThisRound t x = true → exec (.rcvNbr p r) s = becomes s
      (setTask d' x.k (some { t with nbrs := t.nbrs ++ [(x.arg % 4096, x.md)] }))) ∧
    (x.code = 3 → inThisRound t x = true → x.md ∉ t.quiets → exec (.rcvQuiet p r) s = becomes s
      (setTask d' x.k (some { t with quiets := t.quiets ++ [x.md] }))) ∧
    (x.code = 4 → x.md ≠ selfModule s.d → ∃ u t', exec (.rcvLost p r) s = .next u ∧ task u.d x.k = some t' ∧ x.md ∈ t'.lost ∧ t'.st = t.st
      ∧ t'.roster = t.roster ∧ u.d = { d' with tasks := u.d.tasks }) ∧
    (x.code = 4 → x.md = selfModule s.d → t.st.active = true → ∃ u, exec (.rcvLost p r) s = .next u ∧ EndedWith u.d x.k .aborted) ∧
    (x.code = 6 → t.asking = none → ∀ q, t.roster.zipIdx.find? (fun z => z.1 == x.arg % 4096) = some (x.arg % 4096, q) →
      ∃ u t', exec (.rcvJoin p (r, rebuilt)) s = .next u ∧ task u.d x.k = some t' ∧ t'.roster = t.roster.mapIdx (fun i m => if i = q then x.md else m)
        ∧ t'.st = t.st ∧ t'.lost = t.lost ∧ t'.secs.length = t.secs.length ∧ u.d = { d' with tasks := u.d.tasks }) ∧
    (let c := extend22 (stepInProgress t) x.arg
     x.code = 9 →
      (t.coordinator ≠ selfModule s.d → (x.md, c) ∉ t.committed → exec (.rcvCommitted p r) s = becomes s
        (setTask d' x.k (some { t with committed := t.committed ++ [(x.md, c)] }))) ∧
      (t.coordinator = selfModule s.d → (∀ m ∈ t.roster, m = x.md ∨ (m, c) ∈ t.committed) → ∃ u t', exec (.rcvCommitted p r) s = .next u
        ∧ task u.d x.k = some t' ∧ t'.lastCommit = some c ∧ t'.window = none ∧ t'.st = t.st ∧ ∀ z ∈ t'.committed, z.2 ≠ c)) ∧
    (let sealed := { t with lastCommit := some (extend22 (stepInProgress t) x.arg), window := none
                            committed := t.committed.filter (fun z => z.2 != extend22 (stepInProgress t) x.arg) }
     x.code = 10 → (∃ u, exec (.rcvSealed p r) s = .next u ∧ task u.d x.k = some sealed) ∧
      (t.st.active = false → exec (.rcvSealed p r) s = becomes s (setTask d' x.k (some sealed))))

/-- R396, R400, R412, R415: accepted RCV messages that move a task: ABORT of a later round stops its units and queues and enters
RECOVERING in a ring with parity, and ends it with `SC_ABORTED` in one without; ADOPT of this standby enters RECOVERING; END ends an
active task with its status; GO on a task without a ring position ends it with `SC_INTEGRITY`. -/
def Sys2Proof.Claim.RcvMoves : Prop :=
  ∀ (p : PortId) (s : State) (r : RxFlit) (x : Rcv) (t : Task) (d' : Dev) (rebuilt : Option (List Byte)), RcvActs s.d p r x t d' →
    let ahead := (x.round + 4096 - roundNum t % 4096) % 4096
    (x.code = 1 → 0 < ahead → ahead < 2048 → t.st = .running ∨ t.st = .stopping ∨ t.st = .recovering →
      (t.hasParity = true → ∃ d t', exec (.rcvAbort p r) s = becomes s (settle d)
        ∧ (d.reports = [] → ∃ u, task (settle d) x.k = some u ∧ u.st = .recovering ∧ u.inRound = true ∧ u.rounds = t'.rounds)
        ∧ task d x.k = some t' ∧ t'.st = .recovering ∧ t'.inRound = true ∧ roundNum t' = roundNum t + ahead ∧ t'.quiets = []
        ∧ (∀ e < 48, pairKennel s.d e = x.k → (pair d e).seq.run = false ∧ (pair d e).ve.run = false)
        ∧ (∀ q, (hq d q).en = true → (hq d q).kennel = x.k → (hq d q).items = [] ∧ (hq d q).waiters = [])
        ∧ ∀ i j, slotHeld x.k (sslot d i j) = false) ∧
      (t.hasParity = false → ∃ u, exec (.rcvAbort p r) s = .next u ∧ EndedWith u.d x.k .aborted)) ∧
    (x.code = 5 → x.md = selfModule s.d → t.isStandby = true → t.st = .created → ∃ u t', exec (.rcvAdopt p r) s = .next u
      ∧ task u.d x.k = some t' ∧ t'.st = .recovering ∧ t'.isStandby = false
      ∧ ∀ q, t.roster.zipIdx.find? (fun z => z.1 == x.arg % 4096) = some (x.arg % 4096, q) → t'.roster = t.roster.mapIdx (fun i m => if i = q then x.md else m)) ∧
    (x.code = 8 → t.st.active = true → ∃ u, exec (.rcvEnd p r) s = .next u ∧ EndedWith u.d x.k (scOf (x.arg % 256))) ∧
    (x.code = 7 → t.st = .recovering → inThisRound t x = true → t.posOf (selfModule s.d) = none →
      ∃ u, exec (.rcvGo p r rebuilt) s = .next u ∧ EndedWith u.d x.k .integrity)

/-- R415, R416: on GO a member of a parity ring fixes its start beat and leaves the round; with no state pages, no batches and no tables
of its own, its prologue changes no memory. -/
def Sys2Proof.Claim.GoStartsReplay : Prop :=
  ∀ (p : PortId) (s : State) (r : RxFlit) (x : Rcv) (t : Task) (d' : Dev) (g : Group) (o : Sec) (c : Nat), RcvActs s.d p r x t d' → x.code = 7 →
    t.st = .recovering → inThisRound t x = true → t.secs = [o] → o.kind = 0x0D → t.crc = crc32c o.data → t.freezes = [] → t.remaps = [] → lostPos t = none → t.window = none →
    t.image = some (c, []) → t.myGroup s.d = some g → g.stateN = 0 →
    ∃ u t', exec (.rcvGo p r none) s = .next u ∧ task u.d x.k = some t' ∧ t'.st = .recovering ∧ t'.inRound = false ∧ t'.startBeat = goBeat s.d x.arg
      ∧ t'.quiets = [] ∧ t'.nbrs = [] ∧ t'.batchReq = [] ∧ t'.roster = t.roster ∧ u.d = { hostOf d' u.d with tasks := u.d.tasks }

/-- R399, R402, R403, R405, R412, R415: the coordinator's round, which ends when every member is quiet. Three rounds by lag at one step
without a loss end the task with `SC_TIMEOUT`; with no lost position it floods GO. A standby that has not answered in 64 beats is passed
over for the next one, or, where the position cannot fold either, the task ends with `SC_INTEGRITY`. Before that nothing happens. -/
def Obligations.CoordinatorDecides : Prop :=
  ∀ (k : KennelId) (s : State) (t : Task) (rd : Round) (l : List Round) (rebuilt : Option (List Byte)), Awake s.d → task s.d k.toNat = some t →
    t.rounds = rd :: l → t.st = .recovering →
    (t.inRound = true → t.asking = none → t.coordinator = selfModule s.d → (∀ m ∈ members t, m ∈ t.quiets) → t.nbrs = [] →
      (struckThrice t = true → ∃ u, exec (.coordinatorRoundEnd (k, rebuilt)) s = .next u ∧ EndedWith u.d k.toNat .timeout) ∧
      (struckThrice t = false → lostPos t = none → exec (.coordinatorRoundEnd (k, rebuilt)) s
        = becomes s (settle (floodGo (modTask s.d k.toNat (fun t => { t with coordinator := selfModule s.d })) k.toNat rebuilt)))) ∧
    (t.inRound = false ∨ t.asking ≠ none ∨ (rd.beat + 64 > beatNow s.d ∧ ((∃ m ∈ members t, m ∉ t.quiets) ∨ t.coordinator ≠ selfModule s.d)) →
      exec (.coordinatorRoundEnd (k, rebuilt)) s = becomes s s.d) ∧
    (∀ m n b, t.asking = some (m, n, b) →
      (beatNow s.d < b + 64 → exec (.joinTimeout (k, rebuilt)) s = becomes s s.d) ∧
      (∀ m' q, b + 64 ≤ beatNow s.d → lostPos t = some (m', q) →
        (∀ z, t.standbys.find? (fun z => !t.asked.contains z && !t.roster.contains z) = some z → ∃ u, exec (.joinTimeout (k, rebuilt)) s = .next u
          ∧ task u.d k.toNat = some { t with asked := t.asked ++ [z], asking := some (m', z, beatNow s.d) }
          ∧ u.d = { s.d with tasks := u.d.tasks, ports := u.d.ports, rcvSeen := u.d.rcvSeen }) ∧
        (t.standbys.find? (fun z => !t.asked.contains z && !t.roster.contains z) = none → foldTarget t q = none →
          ∃ u, exec (.joinTimeout (k, rebuilt)) s = .next u ∧ EndedWith u.d k.toNat .integrity)))

/-- R188, R189, R311, R353: firmware takes the oldest report of the task's firmware queue and notes the step that it completes; the last
step, or the one that a stop names, ends the task with `SC_OK`. On an empty queue its pop waits; a queue that is not the kennel's counts a
refusal; a report that cannot be read is a task fault. Where the report area names the firmware queue is the model's choice (log 102). -/
def Sys2Proof.Claim.UpdateReports : Prop :=
  ∀ (k : KennelId) (q : QueueId) (s : State) (t : Task) (ecc : Ecc), Awake s.d → task s.d k.toNat = some t →
    let takes := (t.st = .running ∨ t.st = .stopping) ∧ q.toNat = t.fwQueue ∧ popsOutstanding s.d (· == .fw) < 16
    (¬ takes → exec (.updateReport k (q, ecc)) s = becomes s s.d) ∧
    (takes → hqAllows (hq s.d q.toNat) k.toNat = false → exec (.updateReport k (q, ecc)) s = becomes s
      (modHq s.d q.toNat (fun x => { x with denied := true, denyCnt := x.denyCnt + 1 }))) ∧
    (takes → hqAllows (hq s.d q.toNat) k.toNat = true →
      ((hq s.d q.toNat).items = [] → exec (.updateReport k (q, ecc)) s = becomes s
        (modHq s.d q.toNat (fun x => { x with waiters := x.waiters ++ [⟨.fw, k.toNat, s.d.eclk⟩] }))) ∧
      (∀ b r, (hq s.d q.toNat).items = b :: r →
        let popped := modHq s.d q.toNat (fun x => { x with items := r, popCnt := x.popCnt + 1 })
        (∀ d1, reportBytes popped k.toNat b ecc = (d1, none) → exec (.updateReport k (q, ecc)) s = becomes s (settle (taskFault d1 k.toNat .task))) ∧
        (∀ d1 bs, reportBytes popped k.toNat b ecc = (d1, some bs) →
          let n := leNat (bs.take 8)
          (∀ g, t.myGroup s.d = some g → isCommitStep t g n = false) →
          ∃ d t', exec (.updateReport k (q, ecc)) s = becomes s (settle d) ∧ d.hqs = popped.hqs ∧ task d k.toNat = some t'
            ∧ t'.lastUpd = some (max n (t.lastUpd.getD n))
            ∧ t'.stallFrom = (match t.stallFrom with | some (a, b) => if a ≤ n then none else some (a, b) | none => none)
            ∧ (t.stepLast ≤ n ∨ (t.st = .stopping ∧ ∃ x, t.stopStep = some x ∧ x ≤ n) → t'.st = .ended ∧ t'.endSt = .ok)
            ∧ (n < t.stepLast → (t.st = .stopping → ∀ x, t.stopStep = some x → n < x) → t'.st = t.st))))

/-- R305, R306: firmware applies a step's freeze entries within the step's window on a task that runs, outside a round; at a step without
entries, or outside the window, nothing changes. An entry of one block of this module's own range that no block map holds sets that
block's bit of the freeze plane and changes no other bit of memory. The plane's address is open (log 99), and the window is read off the armed
descriptors (the model's reading). -/
def Sys2Proof.Claim.FreezeApply : Prop :=
  ∀ (k : KennelId) (step : DWord) (s : State) (t : Task), Awake s.d → task s.d k.toNat = some t →
    let opened := t.st.active = true ∧ t.inRound = false ∧ freezeWindow s.d k.toNat step.toNat = true
    (¬ opened ∨ (∀ w ∈ freezeEntries t, nth w 0 ≠ step.toNat) → exec (.freezeApply k step) s = becomes s s.d) ∧
    (∀ w r coll j, opened → freezeEntries t = [w] → nth w 0 = step.toNat → nth w 2 = 1 → blockPlace t (nth w 1) = some (r, coll, j) →
      mapsOf s.d t (recTree r) coll = [] → ownerOf t (nth w 1 / 2 ^ 19) = some (selfModule s.d) →
      let z := planeBit (Config.planeAddr (t.data 0x09)) (firstOwned t (selfModule s.d) * 2 ^ 19) (nth w 1)
      let pg := page s.d k.toNat (z.1 / pageBytes)
      canRead s.d k.toNat z.1 = true → canWrite s.d k.toNat z.1 = true → tableBad s.d k.toNat z.1 = false → pg.st = .near →
      z.1 % pageBytes / 64 ∉ pg.poison → s.d.waits = [] → cached s.d pg.home k.toNat (z.1 / 256) = none →
      ∃ u, exec (.freezeApply k step) s = .next u ∧ (Mem.byte (kmem u.d k.toNat) z.1).getLsbD z.2 = bit (nthW w 3) 0
        ∧ (∀ b < 8, b ≠ z.2 → (Mem.byte (kmem u.d k.toNat) z.1).getLsbD b = (Mem.byte (kmem s.d k.toNat) z.1).getLsbD b)
        ∧ (∀ x, x ≠ z.1 → Mem.byte (kmem u.d k.toNat) x = Mem.byte (kmem s.d k.toNat) x) ∧ (∀ j, j ≠ k.toNat → kmem u.d j = kmem s.d j)
        ∧ u.d = { s.d with mem := u.d.mem, pages := u.d.pages, mdies := u.d.mdies, ses := u.d.ses })

/-! ### The time unit (chapter 10) -/

namespace Sys2Proof.Machine

/-- A change of the time unit alone. -/
abbrev withTime (d : Dev) (f : TimeUnit → TimeUnit) : Dev := { d with time := f d.time }

/-- The input sample is rejected and flagged, and nothing else changes but, for the input that steers, the lock's run (R320). -/
abbrev sampleRejected (d : Dev) (steers : Bool) : Dev :=
  withTime d (fun t => { t with rejectCnt := t.rejectCnt + 1, inputRej := true, lockRun := if steers then 0 else t.lockRun })

/-- A task of this module meets this command's fault reports: none here. -/
def NoTasks (d : Dev) : Prop := d.tasks = []

end Sys2Proof.Machine

/-- R319, R320: PTP inputs within their ranges are kept for the filters; those outside are rejected and counted; another domain's
are ignored. -/
def Sys2Proof.Claim.PtpInputs : Prop :=
  ∀ (s : State) (domain : BitVec 8) (ident : DWord) (prio steps : Nat) (logInt : Int) (delay t1 t2 : Int) (inTime : Bool), Awake s.d →
    (domain.toNat ≠ ptpDomain s.d → exec (.ptpSync domain ident logInt t1 t2 inTime) s = becomes s s.d
      ∧ exec (.ptpAnnounce domain ident prio steps logInt) s = becomes s s.d ∧ exec (.ptpDelayResp domain delay) s = becomes s s.d) ∧
    (domain.toNat = ptpDomain s.d →
      (16 < steps ∨ logInt < -3 ∨ 4 < logInt → exec (.ptpAnnounce domain ident prio steps logInt) s = becomes s (sampleRejected s.d false)) ∧
      (steps ≤ 16 → -3 ≤ logInt → logInt ≤ 4 → exec (.ptpAnnounce domain ident prio steps logInt) s = becomes s
        (withTime s.d (fun t => { t with masters := t.masters.filter (fun m => m.ident != ident.toNat) ++ [⟨ident.toNat, prio, logInt, s.d.eclk⟩] }))) ∧
      (s.d.time.delayReq = none → exec (.ptpDelayResp domain delay) s = becomes s s.d) ∧
      (s.d.time.delayReq ≠ none → 0 ≤ delay → delay ≤ 1600000 →
        (s.d.time.tstate = .locked → s.d.time.delays ≠ [] → (delay - median s.d.time.delays).natAbs ≤ 16000) →
        exec (.ptpDelayResp domain delay) s = becomes s (withTime s.d (fun t => { t with delayReq := none, delays := keepLast 8 t.delays delay }))) ∧
      (s.d.time.delayReq ≠ none → delay < 0 ∨ 1600000 < delay → exec (.ptpDelayResp domain delay) s = becomes s
        (sampleRejected (withTime s.d (fun t => { t with delayReq := none })) false)) ∧
      (∀ m, bestMaster s.d.time.masters = some m → m.ident = ident.toNat → timeSrc s.d ≠ 2 → logInt < -7 ∨ 0 < logInt ∨ inTime = false →
        exec (.ptpSync domain ident logInt t1 t2 inTime) s = becomes s (sampleRejected s.d (timeSrc s.d == 0))) ∧
      (∀ m, bestMaster s.d.time.masters = some m → m.ident = ident.toNat → -7 ≤ logInt → logInt ≤ 0 → inTime = true →
        s.d.time.offs = [] → s.d.time.tstate = .locked →
        let x := t1 + median s.d.time.delays - t2
        (timeSrc s.d = 0 → exec (.ptpSync domain ident logInt t1 t2 inTime) s = becomes s (withTime s.d (fun t => { t with
          offs := [x]
          lastSync := some s.d.eclk
          syncInt := logEclk logInt
          refOk := true
          offset := x
          lockRun := if x.natAbs ≤ 1600 then t.lockRun + 1 else 0 }))) ∧
        (timeSrc s.d = 1 → exec (.ptpSync domain ident logInt t1 t2 inTime) s = becomes s (withTime s.d (fun t => { t with
          offs := [x]
          lastSync := some s.d.eclk
          syncInt := logEclk logInt
          refOk := t.ppsOk })))))

/-- R316, R320: a 1PPS edge of a pin high and low for 100 ns each, 1 s after the last, is a valid edge, and with `TIME_SRC` 0b01 a phase
sample; one with a shorter time is rejected. -/
def Sys2Proof.Claim.PpsInputs : Prop :=
  ∀ (s : State) (t low high : Nat), Awake s.d →
    (low < 100 ∨ high < 100 → exec (.ppsEdge t low high) s = becomes s (sampleRejected s.d (timeSrc s.d == 1))) ∧
    (100 ≤ low → 100 ≤ high → s.d.time.lastPpsTime = none → s.d.time.tstate ≠ .locked → timeSrc s.d ≠ 1 → exec (.ppsEdge t low high) s = becomes s
      (withTime s.d (fun u => { u with ppsOk := true, lastPps := some s.d.eclk, lastPpsTime := some t }))) ∧
    (let sec := 16000000000
     let x : Int := if t % sec < sec / 2 then -(t % sec : Nat) else (sec : Int) - (t % sec : Nat)
     100 ≤ low → 100 ≤ high → s.d.time.lastPpsTime = none → s.d.time.tstate = .locked → timeSrc s.d = 1 → s.d.time.lastSync ≠ none →
      s.d.time.phases = [] → x.natAbs ≤ 16000 → exec (.ppsEdge t low high) s = becomes s
        (withTime s.d (fun u => { u with
          ppsOk := true
          lastPps := some s.d.eclk
          lastPpsTime := some t
          phases := [x]
          refOk := true
          offset := x
          lockRun := if x.natAbs ≤ 16 then u.lockRun + 1 else 0 })))

/-- R316, R325, R330, R331, R333: a bark of a near beat notes its arrival and its kennel's lag and keeps its port's neighbour alive, or says
that it has GONE, which is a stopped neighbour; one of a far beat is only counted. The parent's bark gives the time its depth, and a
depth beyond 5 loses the reference. -/
def Sys2Proof.Claim.BarksHeard : Prop :=
  ∀ (p : PortId) (s : State) (r : RxFlit) (arr : Nat) (d' : Dev), Received s.d p r .bark d' →
    let f := r.flit.tsf
    let ahead := (fld f 63 52 + 4100 - beatNow d' % 4096) % 4096
    let gone := fld f 51 50 = 3
    let noted := modPort d' p.toNat (fun x => { x with bark := { x.bark with
      alive := fld f 51 50 != 3
      missed := 0
      rx := noteOfs x.bark.rx (beatNow d' + ahead) (min arr 0xFFFF)
      lags := if fld f 46 41 = 0 then x.bark.lags else Tbl.set 0 x.bark.lags (fld f 46 41) (fld f 40 32) } })
    let parent := timeSrc d' = 2 ∧ timeParent d' = p.toNat
    (5 < ahead → exec (.bark p r arr) s = becomes s (withTime d' (fun t => { t with barkRejectCnt := t.barkRejectCnt + 1 }))) ∧
    (ahead ≤ 5 → gone → exec (.bark p r arr) s = becomes s (settle (report noted (.neighbour (port d' p.toNat).peerMod)))) ∧
    (ahead ≤ 5 → ¬ gone → ¬ parent → exec (.bark p r arr) s = becomes s noted) ∧
    (ahead ≤ 5 → ¬ gone → parent →
      (fld f 49 47 ≤ 5 → barkSample noted p.toNat f (beatNow d' + ahead) arr = none → exec (.bark p r arr) s = becomes s (withTime noted (fun t => { t with
        parentDepth := fld f 49 47
        tdepth := if t.tstate = .locked then min 7 (fld f 49 47 + 1) else t.tdepth }))) ∧
      (5 < fld f 49 47 → d'.time.refOk = true → d'.time.tstate = .locked → ∃ u, exec (.bark p r arr) s = .next u
        ∧ u.d.time.tstate = .holdover ∧ u.d.time.refOk = false ∧ u.d.time.tdepth = d'.time.tdepth
        ∧ u.d = { hostOf noted u.d with time := u.d.time }))

/-- R316, R318, R320, R321: the timeouts of Table 10-2. In FREERUN and HOLDOVER the loss of a reference clears `REF_OK`; in LOCKED it
enters HOLDOVER, and past `HOLD_MAX` the unit runs free, its 1PPS output is low, and every active task has a fault. -/
def Sys2Proof.Claim.TimeTimeouts : Prop :=
  ∀ (s : State) (b : Nat), Awake s.d →
    (s.d.time.delayReq = some b → due s.d b (ms 1000) = true → exec .delayReqTimeout s = becomes s (withTime s.d (fun t => { t with delayReq := none }))) ∧
    (s.d.time.tstate = .freerun ∨ s.d.time.tstate = .holdover →
      (s.d.time.lastSync = some b → timeSrc s.d ≠ 2 → due s.d b (4 * s.d.time.syncInt) = true →
        exec .syncTimeout s = becomes s (withTime s.d (fun t => { t with lastSync := none, refOk := false, lockRun := 0 }))) ∧
      (∀ m, s.d.time.masters = [m] → timeSrc s.d ≠ 2 → due s.d m.since (3 * logEclk m.interval) = true →
        exec .announceTimeout s = becomes s (withTime s.d (fun t => { t with masters := [], lastSync := none, refOk := false, lockRun := 0 }))) ∧
      (s.d.time.lastBark = some b → timeSrc s.d = 2 → b + 16 ≤ beatNow s.d →
        exec .parentBarkTimeout s = becomes s (withTime s.d (fun t => { t with lastBark := none, refOk := false, lockRun := 0 }))) ∧
      (s.d.time.lastPps = some b → due s.d b (ms 1500) = true → timeSrc s.d ≠ 1 →
        exec .ppsTimeout s = becomes s (withTime s.d (fun t => { t with ppsOk := false, lastPps := none, lastPpsTime := none })))) ∧
    (s.d.time.tstate = .locked → s.d.time.lastSync = some b → timeSrc s.d ≠ 2 → due s.d b (4 * s.d.time.syncInt) = true →
      ∃ t, exec .syncTimeout s = .next t ∧ t.d.time.tstate = .holdover ∧ t.d.time.refOk = false ∧ t.d.time.holdSince = s.d.eclk
        ∧ t.d.time.tdepth = s.d.time.tdepth ∧ t.d.timeOff = s.d.timeOff ∧ t.d = { hostOf s.d t.d with time := t.d.time }) ∧
    (s.d.time.tstate = .holdover → due s.d s.d.time.holdSince (ms (100 * holdMax s.d)) = true →
      ∃ d, exec .holdoverExpiry s = becomes s (settle d) ∧ (NoTasks s.d → settle d = d) ∧ d.time.tstate = .freerun ∧ d.time.holdExpired = true
        ∧ d.time.tdepth = 7 ∧ d.time.ppsOut = false ∧ (∀ k, runsTask s.d k = true → .fault k .moduleLost ∈ d.reports)
        ∧ d = { hostOf s.d d with time := d.time, reports := d.reports })

/-- R319, R321: a Delay_Req is sent where a master is known and none is outstanding; the 1PPS output rises at a whole second in LOCKED
and HOLDOVER. -/
def Sys2Proof.Claim.TimeOutputs : Prop :=
  ∀ (s : State), Awake s.d →
    (timeSrc s.d ≠ 2 → s.d.time.delayReq = none → s.d.time.masters ≠ [] → s.d.mgmt.ethUp = true → exec .ptpDelayReqSend s = becomes s
      { withTime s.d (fun t => { t with delayReq := some s.d.eclk }) with out := s.d.out ++ [.ptp 1] }) ∧
    (ppsOutEn s.d = true → s.d.time.tstate = .locked ∨ s.d.time.tstate = .holdover → timeNow s.d % 1000000000 < beatPeriod s.d →
      exec .ppsOutput s = becomes s (withTime s.d (fun t => { t with ppsOut := true, ppsSince := s.d.eclk })))

/-- R322, R324, R333, R235: a beat boundary takes the clock to the next boundary. There units update their lags, tasks check them, ports
bark and miss barks, and hints fall; the stores, memory, queues and every other register keep their contents. Before `TIME_ORIGIN` only
the clock moves. -/
def Sys2Proof.Claim.BeatBoundaryAdvances : Prop :=
  ∀ (s : State), Awake s.d → 0 < beatPeriod s.d →
    ∃ d, exec .beatBoundary s = becomes s (settle d) ∧ (d.reports = [] → settle d = d) ∧ d.eclk = nextBoundary s.d ∧ s.d.eclk < d.eclk
      ∧ d = { s.d with eclk := d.eclk, pairs := d.pairs, ses := d.ses, tasks := d.tasks, time := d.time, ports := d.ports, mdies := d.mdies, reports := d.reports }
      ∧ d.time = { s.d.time with lagAbortCnt := d.time.lagAbortCnt, ppsOut := d.time.ppsOut }
      ∧ (∀ e, pair d e = { pair s.d e with seq := { (pair s.d e).seq with lag := (pair d e).seq.lag }, ve := { (pair s.d e).ve with lag := (pair d e).ve.lag } })
      ∧ (∀ n i, sslot d n i = { sslot s.d n i with lag := (sslot d n i).lag })
      ∧ (∀ k t, task s.d k = some t → ∃ t', task d k = some t' ∧ t' = { t with lag := t'.lag, oldBudget := t'.oldBudget })
      ∧ (∀ m, mdie d m = { mdie s.d m with hints := (mdie d m).hints, migs := (mdie d m).migs })
      ∧ (timeNow { s.d with eclk := nextBoundary s.d } < s.d.time.origin.toNat → d = { s.d with eclk := d.eclk, time := d.time })

/-- R322: at a boundary computed for beat b `BEAT_NOW` is b, where no step of the time has moved the origin past it. -/
def Sys2Proof.Claim.BoundaryIsBeat : Prop :=
  ∀ (d : Dev) (b : Nat), 0 < beatPeriod d → d.time.origin.toNat + b * beatPeriod d < 2 ^ 64 → d.timeOff ≤ d.time.origin.toNat →
    beatNow { d with eclk := beatEclk d b } = b

/-- R353, R362, R363, R409: at its start beat a task in STARTING enters RUNNING, and in a parity ring goes on to its first commit; one in
RECOVERING whose round is over and whose batches have come enters RUNNING, or STOPPING where a stop is pending; before it nothing
happens. -/
def Obligations.StartBeatRuns : Prop :=
  ∀ (k : KennelId) (s : State) (t : Task), Awake s.d → task s.d k.toNat = some t →
    (beatNow s.d < t.startBeat ∨ t.batchReq ≠ [] → exec (.startBeat k) s = becomes s s.d) ∧
    (t.startBeat ≤ beatNow s.d → t.batchReq = [] →
      (t.st = .starting → t.hasParity = false → ∃ u, exec (.startBeat k) s = .next u ∧ task u.d k.toNat = some { t with began := true, st := .running }) ∧
      (t.st = .starting → t.hasParity = true → ∃ d, exec (.startBeat k) s = becomes s (settle (runCommit d k.toNat (t.step0 - 1)))
        ∧ task d k.toNat = some { t with began := true, st := .running }) ∧
      (t.st = .recovering → t.inRound = false → ∃ u, exec (.startBeat k) s = .next u
        ∧ task u.d k.toNat = some { t with began := true, st := if t.stopStep.isSome then .stopping else .running }))

/-- R407, R408: the parity stripes of a group. Each stripe of a member has one holder, never the member itself, and each holder covers one stripe of
every other member; the chunk at byte o of a stripe is element o / 4 of its collective; a holder contributes zeros to its own; and a stripe is the
exclusive or of its holder's parity stripe and the chunks of the other members. A result of this member's own tree that comes in time is written
at its byte of the parity area. The form in which firmware runs the exchange is the model's (log 25). -/
def Sys2Proof.Claim.ParityStripes : Prop :=
  (∀ n i j s, 2 ≤ n → i < n → j < n →
    (s < n - 1 → holderOf n i s < n ∧ holderOf n i s ≠ i ∧ stripeFor n (holderOf n i s) i = s) ∧
    (i ≠ j → stripeFor n j i < n - 1 ∧ holderOf n i (stripeFor n j i) = j)) ∧
  (∀ o, o % 4 = 0 → stripeByte (stripeColl o) (stripeElem o) = o) ∧
  (∀ (g : Group) (i j o b : Nat) (stream : Nat → List Byte), i < g.size →
    let part (m : Nat) : Byte := (parityChunk g m j o (stream m)).getD b 0
    part j = 0 ∧ (i ≠ j → b < 256 → part i = (stream i).getD (stripeFor g.size j i * stripeBytes g + o + b) 0) ∧
    part i = (List.range g.size).foldl (fun x m => x ^^^ part m) 0 ^^^ ((List.range g.size).filter (· != i)).foldl (fun x m => x ^^^ part m) 0) ∧
  (∀ (d : Dev) (e : AEntry) (t : Task) (r : ParityRun) (g : Group) (ws : List Word), task d e.kennel = some t → t.parity = some r → t.myGroup d = some g →
    e.acc = some (.words ws) → e.tree = g.ptree0 + rankOf d t g → e.step = r.ord % 4096 →
    let o := stripeByte e.coll (e.elem * 16)
    let a := g.parityArea * 64 + o
    let bs : List Byte := ws.flatMap (fun w => leBytes 4 w.toNat)
    let p := page d e.kennel (a / pageBytes)
    o < stripeBytes g → o / 256 ∉ r.got → 0 < ws.length → a % pageBytes + bs.length ≤ pageBytes → tableBad d e.kennel a = false → canWrite d e.kennel a = true →
    p.st = .near → p.poison = [] →
    ∃ d', parityResult d e = (d', true) ∧ (∀ i, i < bs.length → Mem.byte (kmem d' e.kennel) (a + i) = bs.getD i 0)
      ∧ (∀ c, c < a ∨ a + bs.length ≤ c → Mem.byte (kmem d' e.kennel) c = Mem.byte (kmem d e.kennel) c) ∧ (∀ j, j ≠ e.kennel → kmem d' j = kmem d j)
      ∧ task d' e.kennel = some { t with parity := some { r with got := r.got ++ [o / 256] } })

/-- R293: without ownership records the segments are cut into one range for each ring position, floor(i × S / N) up to floor((i + 1) × S / N): they
follow one on the other, cover every segment, and differ in length by one at most. Where S comes from is open (log 98). -/
def Sys2Proof.Claim.DefaultRangesTile : Prop :=
  ∀ (s n i : Nat), 0 < n → i < n →
    let r := defaultRange s n
    (r 0).1 = 0 ∧ (r i).1 = i * s / n ∧ (r i).1 + (r i).2 = (r (i + 1)).1 ∧ (r (n - 1)).1 + (r (n - 1)).2 = s ∧ s / n ≤ (r i).2 ∧ (r i).2 ≤ s / n + 1
      ∧ (∀ (t : Task) (g : Nat), (∀ z ∈ t.secs, z.kind ≠ 0x07) → t.roster.length = n → t.segCount = s → (r i).1 ≤ g → g < (r i).1 + (r i).2 →
          ownerOf t g = t.roster[i]?)

/-! ### Commands of the mailboxes (chapters 7, 11, 12 and 13) -/

namespace Sys2Proof.Machine

/-- The oldest request begun is that of mailbox m, `r`, and it has the command code `code` (R348). -/
def Served (s : State) (m : MbxId) (code : Nat) (x : Mbx) (r : Req) : Prop := Awake s.d ∧ inTurn s.d m.toNat code = some (x, r)

/-- A served request whose mailbox belongs to kennel 0 and that names kennel k, not 0, in `TARGET` (R355). -/
def ServedFor (s : State) (m : MbxId) (code : Nat) (x : Mbx) (r : Req) (k : Nat) : Prop := Served s m code x r ∧ r.target = k ∧ k ≠ 0

/-- Command c takes the device to `d` and answers the request of mailbox m with a status and three result words. -/
abbrev Answers (s : State) (c : Instr) (m : MbxId) (d : Dev) (sc : Sc) (r0 r1 r2 : DWord) : Prop := exec c s = becomes s (finish d m.toNat sc r0 r1 r2)

/-- Command c takes the device to `d`, answers the request of mailbox m, and then firmware acts on what was reported. -/
abbrev AnswersThen (s : State) (c : Instr) (m : MbxId) (d : Dev) (sc : Sc) (r0 r1 r2 : DWord) : Prop :=
  exec c s = becomes s (settle (finish d m.toNat sc r0 r1 r2))

/-- No stream is in the middle of a row that it writes. -/
def RowsWhole (d : Dev) : Prop :=
  ∀ n i a r, (sslot d n i).act = some a → writer a = some r → a.desc.kind = 4 ∨ (match r.pieces with | p :: _ => p.off | [] => r.cursor) % rowBytes a.desc = 0

/-- No write waits for its page, and no page waits for a frame. -/
def NobodyWaits (d : Dev) : Prop := d.waits = [] ∧ ∀ i, ∀ g ∈ (mdie d i).migs, g.up = false

/-- The task of kennel k, and every byte of memory, stay as they are for all kennels but k. -/
def OtherTasks (d d' : Dev) (k : Nat) : Prop := ∀ j, j ≠ k → task d' j = task d j

/-- The payload of an input command as it arrived, and the words of it. -/
abbrev bytesIn (m : MbxId) (k : Nat) (x : Mbx) (r : Req) (pl : Payload) : List Byte := payBytes ⟨m.toNat, k, x, r⟩ pl

/-- A command of Table 11-8 but SPDM_MSG: its mailbox, its code, whether its payload arrived, its checks and effect. -/
def scpOf (i : Instr) : Option (MbxId × Nat × Bool × Scp) :=
  match i with
  | .nopCommand m => some (m, 0x01, true, nopCmd)
  | .devInfo m => some (m, 0x02, true, devInfoCmd)
  | .devState m => some (m, 0x03, true, devStateCmd)
  | .mbxDetach m => some (m, 0x04, true, nopCmd)
  | .eventMask m => some (m, 0x05, true, eventMaskCmd)
  | .readUnit m => some (m, 0x06, true, readUnitCmd)
  | .devReady m => some (m, 0x10, true, devReadyCmd)
  | .devConfig m => some (m, 0x11, true, devConfigCmd)
  | .devDrain m => some (m, 0x12, true, devDrainCmd)
  | .devSafe m => some (m, 0x13, true, devSafeCmd)
  | .devResume m => some (m, 0x14, true, devResumeCmd)
  | .devReset m => some (m, 0x15, true, nopCmd)
  | .cfgGet m => some (m, 0x20, true, cfgGetCmd)
  | .cfgStage m pl => some (m, 0x21, pl.complete, cfgStageCmd pl)
  | .cfgCommit m a b c => some (m, 0x22, true, cfgCommitCmd a b c)
  | .cfgRollback m a => some (m, 0x23, true, cfgRollbackCmd a)
  | .cfgDiscard m => some (m, 0x24, true, cfgDiscardCmd)
  | .imgWrite m pl => some (m, 0x28, true, imgWriteCmd pl)
  | .imgActivate m chk => some (m, 0x29, true, imgActivateCmd chk)
  | .kennelCreate m pl => some (m, 0x30, pl.complete, kennelCreateCmd pl)
  | .kennelDestroy m => some (m, 0x31, true, kennelDestroyCmd)
  | .quotaSet m pl => some (m, 0x32, pl.complete, quotaSetCmd pl)
  | .kennelKey m pl key => some (m, 0x33, pl.complete, kennelKeyCmd pl key)
  | .map m => some (m, 0x40, true, mapCmd)
  | .unmap m => some (m, 0x41, true, unmapCmd)
  | .memWrite m pl => some (m, 0x42, true, memWriteCmd pl)
  | .memRead m ecc => some (m, 0x43, true, memReadCmd ecc)
  | .migrate m => some (m, 0x44, true, migrateCmd)
  | .hqSet m => some (m, 0x50, true, hqSetCmd)
  | .hqPush m => some (m, 0x51, true, hqPushCmd)
  | .hqFlush m => some (m, 0x52, true, hqFlushCmd)
  | .litterSet m => some (m, 0x53, true, litterSetCmd)
  | .treeSet m => some (m, 0x54, true, treeSetCmd)
  | .slotArm m pl => some (m, 0x55, pl.complete, slotArmCmd pl)
  | .slotDisarm m => some (m, 0x56, true, slotDisarmCmd)
  | .scalarSet m => some (m, 0x57, true, scalarSetCmd)
  | .taskCreate m => some (m, 0x60, true, taskCreateCmd)
  | .taskStart m => some (m, 0x61, true, taskStartCmd)
  | .taskStop m => some (m, 0x62, true, taskStopCmd)
  | .taskAbort m => some (m, 0x63, true, taskAbortCmd)
  | .taskDestroy m => some (m, 0x64, true, taskDestroyCmd)
  | .taskStatus m => some (m, 0x65, true, taskStatusCmd)
  | .batchPut m pl => some (m, 0x66, true, batchPutCmd pl)
  | .schedSet m pl => some (m, 0x67, pl.complete, schedSetCmd pl)
  | .freezeSet m pl => some (m, 0x68, pl.complete, freezeSetCmd pl)
  | .taskStandby m => some (m, 0x69, true, taskStandbyCmd)
  | .timeGet m => some (m, 0x70, true, timeGetCmd)
  | _ => none

end Sys2Proof.Machine

/-- R347: a command that one of its checks refuses is answered with that check's status and has no other effect. -/
def Sys2Proof.Claim.RefusedHasNoEffect : Prop :=
  ∀ (i : Instr) (s : State) (m : MbxId) (code : Nat) (complete : Bool) (f : Scp) (x : Mbx) (r : Req) (c : Sc),
    scpOf i = some (m, code, complete, f) → Served s m code x r → scpCheck s.d code complete f ⟨m.toNat, actsOn code x r, x, r⟩ = some c →
    Answers s i m s.d c 0 0 0

/-- R348: a command that is not the oldest request begun, or not that request's, does nothing. -/
def Sys2Proof.Claim.OutOfTurnWaits : Prop :=
  ∀ (i : Instr) (s : State) (m : MbxId) (code : Nat) (complete : Bool) (f : Scp), Awake s.d → scpOf i = some (m, code, complete, f) →
    inTurn s.d m.toNat code = none → exec i s = becomes s s.d

/-- R347: a command whose device state does not allow it is answered `SC_STATE`, where nothing before that check refuses it. -/
def Sys2Proof.Claim.StateRefuses : Prop :=
  ∀ (i : Instr) (s : State) (m : MbxId) (code : Nat) (f : Scp) (x : Mbx) (r : Req),
    scpOf i = some (m, code, true, f) → Served s m code x r → targetBad code x r = false →
    f.field s.d ⟨m.toNat, actsOn code x r, x, r⟩ = none → stateOk s.d x r = false → Answers s i m s.d .state 0 0 0

/-- R344: the reply is the next 32-byte entry of the completion ring, laid out as Table 11-4 says: `PHASE`, 1 on the first pass around the ring
and 0 on the second, the submission head, the request's tag and command, the status, the device and task states and the three results. The
mailbox then has no request in progress, and nothing else changes but a message that tells the host. -/
def Obligations.ReplyIsWritten : Prop :=
  ∀ (d : Dev) (m : MbxId) (x : Mbx) (r : Req) (c : Sc) (r0 r1 r2 : DWord), mbx d m.toNat = some x → x.req = some r → x.sqHead < 2 ^ 15 →
    ∃ e y more, (finish d m.toNat c r0 r1 r2).out = d.out ++ .reply m.toNat (x.cqCount % 2 ^ x.cqLog) e :: more ∧ more.length ≤ 1
      ∧ fld e 255 255 = (if x.cqCount / 2 ^ x.cqLog % 2 = 0 then 1 else 0) ∧ fld e 254 240 = x.sqHead ∧ fld e 239 224 = r.tag ∧ fld e 223 208 = r.cmd
      ∧ fld e 207 200 = (if x.version = 0x26 ∧ c = .integrity then Sc.denied.code else c.code) ∧ fld e 199 196 = d.dstate.code
      ∧ fld e 195 192 = taskCode d x.kennel ∧ fld e 63 0 = r0.toNat ∧ fld e 127 64 = r1.toNat ∧ fld e 191 128 = r2.toNat
      ∧ mbx (finish d m.toNat c r0 r1 r2) m.toNat = some y ∧ y.req = none ∧ y.cqCount = x.cqCount + 1 ∧ y.cqUsed = x.cqUsed + 1
      ∧ (∀ j, j ≠ m.toNat → mbx (finish d m.toNat c r0 r1 r2) j = mbx d j)
      ∧ finish d m.toNat c r0 r1 r2 = { hostOf d (finish d m.toNat c r0 r1 r2) with begun := d.begun.filter (· != m.toNat) }

/-- R355, R356, R368: NOP does nothing; DEV_STATE, TIME_GET and DEV_INFO tell what they say; EVENT_MASK replaces the mask. -/
def Sys2Proof.Claim.DeviceQueries : Prop :=
  ∀ (m : MbxId) (s : State) (x : Mbx) (r : Req),
    (Served s m 0x01 x r → Answers s (.nopCommand m) m s.d .ok 0 0 0) ∧
    (Served s m 0x02 x r → 256 ≤ 64 * r.plen → Answers s (.devInfo m) m { s.d with out := s.d.out ++ [.payload m.toNat r.paddr (devInfo s.d)] } .ok 0 0 0) ∧
    (Served s m 0x03 x r → ∃ w, Answers s (.devState m) m s.d .ok (BitVec.ofNat 64 (16 * s.d.time.tstate.code + s.d.dstate.code)) (BitVec.ofNat 64 (beatNow s.d)) w
      ∧ (Tbl.wf none s.d.tasks → ∀ k < 64, bit w k = ((task s.d k).isSome && (x.kennel == 0 || k == x.kennel)))) ∧
    (Served s m 0x05 x r → Answers s (.eventMask m) m (setMbx s.d m.toNat (some { x with evMask := r.p0 })) .ok x.evMask 0 0) ∧
    (Served s m 0x70 x r → Answers s (.timeGet m) m s.d .ok (BitVec.ofNat 64 (timeNow s.d)) (BitVec.ofNat 64 (beatNow s.d)) (timeStatus s.d))

/-- R357, R358: READ_UNIT and CFG_GET write registers, and a running or staged item, into the payload. -/
def Sys2Proof.Claim.UnitAndItemReads : Prop :=
  ∀ (m : MbxId) (s : State) (x : Mbx) (r : Req),
    let cls := fld r.p0 63 56
    let i := fld r.p0 15 0
    (Served s m 0x06 x r → i < unitCount cls → (cls = 1 → present s.d i = true) → (x.kennel = 0 ∨ unitBound s.d cls i x.kennel = true) →
      8 * (unitRegs s.d cls i).length ≤ 64 * r.plen →
      Answers s (.readUnit m) m { s.d with out := s.d.out ++ [.payload m.toNat r.paddr ((unitRegs s.d cls i).flatMap (fun w => leBytes 8 w.toNat))] } .ok 0 0 0) ∧
    (Served s m 0x20 x r → i < cfgCount cls → (itemBytes s.d.epochRun cls i).length ≤ 64 * r.plen →
      Answers s (.cfgGet m) m { s.d with out := s.d.out ++ [.payload m.toNat r.paddr
        (itemBytes (if bit r.p1 0 then s.d.epochStaged else s.d.epochRun) cls i)] } .ok 0 0 0)

/-- R352, R454: the commands that move the device state, each from the states of Table 11-8 that allow it. DEV_READY raises the fused
security version the first time after a BOOT (R391). -/
def Sys2Proof.Claim.DeviceStatesMove : Prop :=
  ∀ (m : MbxId) (s : State) (x : Mbx) (r : Req),
    let moves (c : Instr) (st : DState) (e : Dev → Dev) := ∃ t, exec c s = .next t ∧ t.d.dstate = st
      ∧ t.d = { hostOf (e s.d) t.d with dstate := st, begun := s.d.begun.filter (· != m.toNat) }
    (Served s m 0x10 x r → s.d.dstate = .config → moves (.devReady m) .ready (fun d => { d with
      reachedReady := true
      fuses := if d.reachedReady then d.fuses else { d.fuses with svn := max d.fuses.svn (if d.runningB.isSome then slotSvn (runningSlot d) else 0) } })) ∧
    (Served s m 0x11 x r → s.d.dstate = .ready → s.d.tasks = [] → moves (.devConfig m) .config id) ∧
    (Served s m 0x12 x r → s.d.dstate ∈ [.ready, .running, .recovering] → moves (.devDrain m)
      (if anyTask s.d (fun t => t.st.active) then .draining else if bit r.p0 0 then .config else .ready) (fun d => { d with drainToConfig := bit r.p0 0 })) ∧
    (Served s m 0x14 x r → s.d.dstate = .safe → (∀ z ∈ s.d.sensors, z.2.held = false) → moves (.devResume m) .config
      (fun d => { d with power := { d.power with selfRefresh := false } }))

/-- R329, R352, R354, R450: DEV_SAFE takes the device to SAFE, both tiers to self-refresh, and every active task to ENDED with
`SC_ABORTED`; where no stream is in the middle of a row (R205, log 97), no memory changes. -/
def Sys2Proof.Claim.SafeEndsTasks : Prop :=
  ∀ (m : MbxId) (s : State) (x : Mbx) (r : Req), Served s m 0x13 x r → s.d.dstate ∈ [.config, .ready, .running, .draining, .recovering] →
    ∃ t, exec (.devSafe m) s = .next t ∧ t.d.power.selfRefresh = true ∧ t.d.kennels = s.d.kennels ∧ t.d.eclk = s.d.eclk
      ∧ (∀ k u, task s.d k = some u → u.st.active = true → EndedWith t.d k .aborted)
      ∧ (RowsWhole s.d → t.d.dstate = .safe ∧ t.d.mem = s.d.mem ∧ t.d.pages = s.d.pages ∧ t.d.tiles = s.d.tiles)

/-- R350, R470: MBX_DETACH replies and ends its mailbox, whose number is free 1 ms later; DEV_RESET replies and enters BOOT: every unit at
its reset value, the fuses, image slots and epochs kept. -/
def Sys2Proof.Claim.DetachAndReset : Prop :=
  ∀ (m : MbxId) (s : State) (x : Mbx) (r : Req),
    (Served s m 0x04 x r → ∃ t, exec (.mbxDetach m) s = .next t ∧ mbx t.d m.toNat = none ∧ Tbl.get 0 t.d.mbxFreed m.toNat = s.d.eclk + 1
      ∧ (∀ z ∈ t.d.sessions, z.2 ≠ m.toNat) ∧ t.d.out = (finish s.d m.toNat .ok 0 0 0).out ∧ (∀ j, j ≠ m.toNat → mbx t.d j = mbx s.d j)
      ∧ t.d = { hostOf s.d t.d with begun := t.d.begun, mbxFreed := t.d.mbxFreed, sessions := t.d.sessions, handshakes := t.d.handshakes }) ∧
    (Served s m 0x15 x r → ∃ t, exec (.devReset m) s = .next t ∧ t.d.dstate = .boot ∧ t.d.mbx = [] ∧ t.d.tasks = [] ∧ t.d.kennels = []
      ∧ t.d.pairs = [] ∧ t.d.ses = [] ∧ t.d.hqs = [] ∧ t.d.ports = [] ∧ t.d.trees = [] ∧ t.d.mem = [] ∧ t.d.pages = [] ∧ t.d.moduleKey = none
      ∧ t.d.time = {} ∧ t.d.throttle = 0 ∧ t.d.fuses = s.d.fuses ∧ t.d.slotA = s.d.slotA ∧ t.d.slotB = s.d.slotB
      ∧ t.d.epochRun = s.d.epochRun ∧ t.d.epochPrev = s.d.epochPrev ∧ t.d.retireSeq = s.d.retireSeq)

/-- R358: CFG_STAGE replaces one item of the staged epoch by a value that its register's rules allow, and CFG_DISCARD makes the staged
epoch the running one; no unit changes. -/
def Sys2Proof.Claim.ConfigStaged : Prop :=
  ∀ (m : MbxId) (s : State) (x : Mbx) (r : Req) (pl : Payload), pl.complete = true →
    let i := fld r.p0 15 0
    let stages (e : Epoch) := Answers s (.cfgStage m pl) m { s.d with epochStaged := e } .ok 0 0 0
    (Served s m 0x21 x r → s.d.dstate ∈ [.config, .ready, .running, .draining, .recovering] →
      (fld r.p0 63 56 = 1 → i < 16 → fld r.p1 42 0 = 0 → r.p3 = 0 → r.p4 = 0 → r.p5 = 0 →
        stages { s.d.epochStaged with ports := Tbl.set portDefault s.d.epochStaged.ports i (r.p1, r.p2) }) ∧
      (fld r.p0 63 56 = 2 → i = 0 → fld r.p1 63 62 ≠ 3 → fld r.p1 18 0 = 0 → fld r.p1 35 19 % 2 = 0 → 250 ≤ fld r.p1 35 19 → fld r.p1 35 19 ≤ 64000 →
        0 < fld r.p1 48 41 → 2 ≤ fld r.p1 40 36 → r.p3 = 0 → r.p4 = 0 → r.p5 = 0 → stages { s.d.epochStaged with timeCfg := r.p1, timeOrigin := r.p2 }) ∧
      (fld r.p0 63 56 = 3 → i < 4 → r.p1 &&& ~~~migRw = 0 → fld r.p1 15 0 < fld r.p1 31 16 → fld r.p1 31 16 * 4 ≤ frameTotal → r.p2 = 0 → r.p3 = 0 →
        r.p4 = 0 → r.p5 = 0 → stages { s.d.epochStaged with mig := Tbl.set migDefault s.d.epochStaged.mig i r.p1 }) ∧
      (fld r.p0 63 56 = 4 → i = 0 → r.plen = 64 → pl.bytes.length = 4096 → (∀ b ∈ pl.bytes, b.toNat < 32) → r.p1 = 0 → r.p2 = 0 → r.p3 = 0 → r.p4 = 0 →
        r.p5 = 0 → ∃ e, stages e ∧ (∀ d < 4096, Tbl.get 0 e.routes d = (pl.bytes.getD d 0).toNat) ∧ e = { s.d.epochStaged with routes := e.routes }) ∧
      (fld r.p0 63 56 = 5 → i = 0 → fld r.p1 63 13 = 0 → r.p2 = 0 → r.p3 = 0 → r.p4 = 0 → r.p5 = 0 →
        stages { s.d.epochStaged with moduleNo := fld r.p1 11 0, autoReady := bit r.p1 12 })) ∧
    (Served s m 0x24 x r → Answers s (.cfgDiscard m) m { s.d with epochStaged := s.d.epochRun } .ok 0 0 0)

/-- R359, R421, R422: in CONFIG and READY without tasks CFG_COMMIT makes the staged epoch the running one under the next number and applies it;
where the write fails nothing but the reply and `EPOCH` happens. CFG_ROLLBACK makes the previous epoch the running one under its own number. -/
def Sys2Proof.Claim.ConfigCommits : Prop :=
  ∀ (m : MbxId) (s : State) (x : Mbx) (r : Req) (b : Bool), s.d.dstate = .config ∨ s.d.dstate = .ready → s.d.tasks = [] →
    (∀ p < 16, (port s.d p).st ≠ .up) →
    let applied (t : State) (e : Epoch) := t.d.epochRun = e ∧ t.d.epochPrev = s.d.epochRun ∧ t.d.epochOn = true ∧ t.d.dstate = s.d.dstate
      ∧ t.d.time.config = e.timeCfg ∧ t.d.time.origin = e.timeOrigin
      ∧ (∀ p < 16, (port t.d p).kmask = (Tbl.get portDefault e.ports p).2 ||| 1) ∧ (∀ i < 4, (mdie t.d i).cfg = Tbl.get migDefault e.mig i)
      ∧ t.d.mem = s.d.mem ∧ t.d.pairs = s.d.pairs ∧ t.d.hqs = s.d.hqs ∧ t.d.kennels = s.d.kennels
    (Served s m 0x22 x r →
      (∃ t, exec (.cfgCommit m true true b) s = .next t ∧ applied t { s.d.epochStaged with num := s.d.epochRun.num + 1 } ∧ t.d.cfgSeq = s.d.cfgSeq + 1) ∧
      (∃ t, exec (.cfgCommit m false true b) s = .next t ∧ t.d = { hostOf s.d t.d with begun := s.d.begun.filter (· != m.toNat) })) ∧
    (Served s m 0x23 x r → ∃ t, exec (.cfgRollback m true) s = .next t ∧ applied t s.d.epochPrev)

/-- R388 to R390, R420, R467: IMG_WRITE writes the bytes that arrived into the inactive slot, whose commit record is invalid from then on, and
holds the slot; IMG_ACTIVATE of a slot that verifies gives it the highest write sequence and releases it. The other slot never changes. -/
def Sys2Proof.Claim.ImagesUpdate : Prop :=
  ∀ (m : MbxId) (s : State) (x : Mbx) (r : Req) (pl : Payload) (chk : ImgCheck), heldByOther s.d (.mailbox m.toNat) = false →
    let b := inactiveB s.d
    let bs := bytesIn m x.kennel x r pl
    (Served s m 0x28 x r → s.d.dstate = .config ∨ s.d.dstate = .ready → ∃ d', Answers s (.imgWrite m pl) m d' (if pl.complete then .ok else .timeout)
        (if pl.complete then 0 else BitVec.ofNat 64 bs.length) 0 0
      ∧ (imgSlot d' b).commit = none ∧ (∀ i, i < bs.length → Mem.byte (imgSlot d' b).bytes (r.p0.toNat + i) = bs.getD i 0)
      ∧ (∀ a, a < r.p0.toNat ∨ r.p0.toNat + bs.length ≤ a → Mem.byte (imgSlot d' b).bytes a = Mem.byte (imgSlot s.d b).bytes a)
      ∧ imgSlot d' (!b) = imgSlot s.d (!b) ∧ d' = { s.d with slotA := d'.slotA, slotB := d'.slotB, holder := some (.mailbox m.toNat, s.d.eclk) }) ∧
    (Served s m 0x29 x r → s.d.dstate = .config → verifies s.d (imgSlot s.d b) chk = true → ∃ d', Answers s (.imgActivate m chk) m d' .ok 0 0 0
      ∧ (∃ q, (imgSlot d' b).commit = some (q, Mem.readNat (imgSlot s.d b).bytes 12 4)
          ∧ ∀ c, ((imgSlot s.d c).commit.map (·.1)).getD 0 < q)
      ∧ (imgSlot d' b).bytes = (imgSlot s.d b).bytes ∧ imgSlot d' (!b) = imgSlot s.d (!b)
      ∧ d' = { s.d with slotA := d'.slotA, slotB := d'.slotB, holder := none })

/-- R370, R374, R376, R377: KENNEL_CREATE makes a free kennel LIVE with its record, a fresh memory key and its units; QUOTA_SET replaces the
record of a LIVE kennel, whose state and keys stay. -/
def Sys2Proof.Claim.KennelsCreated : Prop :=
  ∀ (m : MbxId) (s : State) (x : Mbx) (r : Req) (pl : Payload) (k : Nat), pl.complete = true →
    let q := quotaOf (bytesIn m k x r pl)
    quotaField s.d (bytesIn m k x r pl) = none → quotaBound s.d k q = false → quotaClearing s.d q = false →
    (ServedFor s m 0x30 x r k → s.d.dstate ∈ [.config, .ready, .running, .recovering] → (kennel s.d k).st = .free →
      ∃ d', Answers s (.kennelCreate m pl) m d' .ok 0 0 0 ∧ kennel d' k = { st := .live, quota := q, memKey := some (Config.freshKey s.d.fresh) }
        ∧ (∀ e < 48, pairKennel d' e = if e ∈ q.pairs then k else pairKennel s.d e) ∧ (∀ j, j ≠ k → kennel d' j = kennel s.d j)
        ∧ d' = { s.d with kennels := d'.kennels, pairOwner := d'.pairOwner, dieOwner := d'.dieOwner, fresh := s.d.fresh + 1 }) ∧
    (ServedFor s m 0x32 x r k → s.d.dstate ∈ [.config, .ready, .running, .draining, .recovering] → (kennel s.d k).st = .live →
      ∃ t, exec (.quotaSet m pl) s = .next t ∧ kennel t.d k = { kennel s.d k with quota := q } ∧ (∀ j, j ≠ k → kennel t.d j = kennel s.d j)
        ∧ t.d.mem = s.d.mem ∧ t.d.hqs = s.d.hqs ∧ t.d.ports = s.d.ports)

/-- R371, R373: KENNEL_DESTROY of a LIVE kennel without a task erases its keys, clears every PTE and detaches its mailboxes; once its units
are cleared it becomes FREE and owns no page. A cleared unit's stores and scalars are zero. -/
def Sys2Proof.Claim.KennelsDestroyed : Prop :=
  ∀ (m : MbxId) (s : State) (x : Mbx) (r : Req) (k : KennelId) (die : Bool) (u : Eng), k ≠ 0 → RowsWhole s.d → NobodyWaits s.d →
    (ServedFor s m 0x31 x r k.toNat → s.d.dstate ∈ [.config, .ready, .running, .recovering] → (kennel s.d k.toNat).st = .live → task s.d k.toNat = none →
      ∃ t, exec (.kennelDestroy m) s = .next t ∧ (kennel t.d k.toNat).st = .tearing ∧ (kennel t.d k.toNat).memKey = none
        ∧ (kennel t.d k.toNat).cur = none ∧ kmem t.d k.toNat = [] ∧ (∀ pg < 8388608, (page t.d k.toNat pg).v = false)
        ∧ (∀ j y, mbx t.d j = some y → y.kennel ≠ k.toNat) ∧ (∀ j, j ≠ k.toNat → kennel t.d j = kennel s.d j ∧ kmem t.d j = kmem s.d j)) ∧
    (Awake s.d → (kennel s.d k.toNat).st = .tearing → s.d.pairClearing = [] → s.d.dieClearing = [] →
      ∃ t, exec (.kennelTeardownDone k) s = .next t ∧ (kennel t.d k.toNat).st = .free ∧ (∀ pg < 8388608, page t.d k.toNat pg = {})
        ∧ (∀ j, j ≠ k.toNat → kennel t.d j = kennel s.d j)) ∧
    (Awake s.d → die = false → u.val ∈ s.d.pairClearing → ∃ t, exec (.unitClearDone die u) s = .next t ∧ tile t.d u.val = [] ∧ (pair t.d u.val).scalars = []
        ∧ (pair t.d u.val).seq.run = false ∧ (pair t.d u.val).ve.run = false ∧ u.val ∉ t.d.pairClearing ∧ ∀ e, e ≠ u.val → tile t.d e = tile s.d e ∧ pair t.d e = pair s.d e) ∧
    (Awake s.d → die = true → u.val ∈ s.d.dieClearing → exec (.unitClearDone die u) s = becomes s
      { s.d with dies := Tbl.erase s.d.dies u.val, dieClearing := s.d.dieClearing.filter (· != u.val) })

/-- R382, R383: a kennel's first link key is current at once, and a later one waits with the next generation; kennel 0's key comes in a
vendor-defined SPDM request of a session of a management mailbox. -/
def Sys2Proof.Claim.LinkKeysLoad : Prop :=
  ∀ (m : MbxId) (s : State) (x : Mbx) (r : Req) (pl : Payload) (key : BitVec 256) (k : Nat), pl.complete = true →
    let usable (k : Nat) (y : KeyRec) (kind : Nat) := y.ktype = kind ∧ y.rsvd = false ∧ s.d.sessions.contains (y.session, m.toNat) = true
      ∧ (kennel s.d k).st = .live ∧ (kennel s.d k).next = none
      ∧ ∀ c, (kennel s.d k).cur = some c → beatNow s.d + 1000 ≤ y.switchBeat ∧ y.kgen = (c.kgen + 1) % 256
    let loaded (k : Nat) (y : KeyRec) (d : Dev) := modKennel d k (fun z => if (kennel s.d k).cur = none
      then { z with cur := some ⟨key, y.kgen, y.switchBeat⟩ } else { z with next := some ⟨key, y.kgen, y.switchBeat⟩ })
    (ServedFor s m 0x33 x r k → s.d.dstate ∈ [.config, .ready, .running, .draining, .recovering] → usable k (keyRec (bytesIn m k x r pl)) 1 →
      Answers s (.kennelKey m pl (some key)) m (loaded k (keyRec (bytesIn m k x r pl)) s.d) .ok 0 0 0) ∧
    (Served s m 0x34 x r → x.kennel = 0 → spdmCode (bytesIn m 0 x r pl) = 0xFE → r.p0.toNat ≤ 64 * r.plen → usable 0 (vendorRec (bytesIn m 0 x r pl)) 2 →
      ∃ bs, Answers s (.spdmVendorDefinedRequest m pl (some key)) m { loaded 0 (vendorRec (bytesIn m 0 x r pl)) s.d with
        out := s.d.out ++ [.payload m.toNat r.paddr bs]
        fresh := s.d.fresh + 1 } .ok 0 0 0)

/-- R392, R393: an SPDM request is answered in the payload. KEY_EXCHANGE opens a handshake, FINISH turns it into a session, END_SESSION ends
it; a code that the responder does not support is answered UnsupportedRequest. -/
def Obligations.SpdmAnswers : Prop :=
  ∀ (m : MbxId) (s : State) (x : Mbx) (r : Req) (pl : Payload) (ses : BitVec 32), Served s m 0x34 x r → pl.complete = true → r.p0.toNat ≤ 64 * r.plen →
    let bs := bytesIn m x.kennel x r pl
    let c := spdmCode bs
    let done (d : Dev) (a : List Byte) : Dev := { d with out := s.d.out ++ [.payload m.toNat r.paddr (a.take r.p0.toNat)], fresh := s.d.fresh + 1 }
    (spdmSupported c = false → c ≠ 0xE0 →
      Answers s (.spdmOtherRequest m pl ses) m (done s.d [0x13, 0x7F, 0x07, BitVec.ofNat 8 c]) .ok 0 0 0) ∧
    (c ∈ [0x81, 0x82, 0x83, 0x84, 0xE1, 0xE3, 0xE8, 0xE9] → Answers s (.spdmMsg m pl) m (done s.d (Config.spdmResponse s.d.fresh bs)) .ok 0 0 0
      ∧ Answers s (.spdmOtherRequest m pl ses) m (done s.d (Config.spdmResponse s.d.fresh bs)) .ok 0 0 0) ∧
    (c = 0xE0 → Answers s (.spdmGetMeasurements m pl) m (done s.d (Config.spdmResponse s.d.fresh (measured s.d ++ bs))) .ok 0 0 0) ∧
    (c = 0xE4 → s.d.sessions.length + s.d.handshakes.length < 16 → Answers s (.spdmKeyExchange m pl ses) m
      (done { s.d with handshakes := s.d.handshakes ++ [(ses.toNat, m.toNat)] } (Config.spdmResponse s.d.fresh bs)) .ok 0 0 0) ∧
    (c = 0xE5 → (ses.toNat, m.toNat) ∈ s.d.handshakes → Answers s (.spdmKeyExchange m pl ses) m
      (done { s.d with handshakes := s.d.handshakes.filter (· != (ses.toNat, m.toNat)), sessions := s.d.sessions ++ [(ses.toNat, m.toNat)] }
        (Config.spdmResponse s.d.fresh bs)) .ok 0 0 0) ∧
    (c = 0xEC → Answers s (.spdmOtherRequest m pl ses) m (done { s.d with sessions := s.d.sessions.filter (· != (ses.toNat, m.toNat)) }
      (Config.spdmResponse s.d.fresh bs)) .ok 0 0 0)

/-- R212, R214, R219, R379: MAP maps pages that were not mapped, each ZERO at its home M-die; UNMAP clears mapped pages that nothing uses, and
their bytes, and where nobody waits for the frames that it frees every other page and every other kennel's memory stay. -/
def Sys2Proof.Claim.PagesMap : Prop :=
  ∀ (m : MbxId) (s : State) (x : Mbx) (r : Req), s.d.dstate ∈ [.config, .ready, .running, .draining, .recovering] →
    let k := x.kennel
    let z : Ctx := ⟨m.toNat, k, x, r⟩
    let first := r.p0.toNat / pageBytes
    let n := r.p1.toNat
    r.p0.toNat % pageBytes = 0 → 0 < n → first + n ≤ 8388608 → k < 64 →
    let asked (pg : Nat) : Prop := first ≤ pg ∧ pg < first + n
    (Served s m 0x40 x r → fld r.p2 60 59 ≠ 3 → (∀ pg, asked pg → (page s.d k pg).v = false) → pagesOf s.d k + n ≤ (kennel s.d k).quota.pages →
      recordsShort s.d z = false → (leafUsed s.d).length + leavesNeeded s.d k (pagesAsked z) ≤ 131072 →
      ∃ d', Answers s (.map m) m d' .ok 0 0 0 ∧ d' = { s.d with pages := d'.pages, dirs := d'.dirs, mdies := d'.mdies }
        ∧ (∀ pg, asked pg → (page d' k pg).v = true ∧ (page d' k pg).owner = k ∧ (page d' k pg).st = .zero
            ∧ (page d' k pg).home = (if bit r.p2 2 then fld r.p2 1 0 else pg % 4))
        ∧ (∀ j, (∀ pg, asked pg → j ≠ pageKey k pg) → Tbl.get {} d'.pages j = Tbl.get {} s.d.pages j)) ∧
    (Served s m 0x41 x r → (∀ pg, asked pg → (page s.d k pg).v = true ∧ unmapBusy s.d k pg = false) →
      NobodyWaits s.d →
      ∃ d', AnswersThen s (.unmap m) m d' .ok 0 0 0 ∧ (∀ pg, asked pg → page d' k pg = {} ∧ ∀ a < pageBytes, Mem.byte (kmem d' k) (pg * pageBytes + a) = 0)
        ∧ (∀ j, (∀ pg, asked pg → j ≠ pageKey k pg) → Tbl.get {} d'.pages j = Tbl.get {} s.d.pages j)
        ∧ (∀ a, a < first * pageBytes ∨ (first + n) * pageBytes ≤ a → Mem.byte (kmem d' k) a = Mem.byte (kmem s.d k) a)
        ∧ (∀ j, j ≠ k → kmem d' j = kmem s.d j) ∧ d'.tasks = s.d.tasks ∧ ∀ z ∈ d'.reports, ∃ h b, z = .memUse k h b)

/-- R349, R355, R238: MEM_WRITE writes the bytes that arrived into a writable NEAR page, and says how many where the payload ended early;
MEM_READ copies the bytes of a readable NEAR or ZERO page into the payload: those of memory, where the cache holds no line of the M-die and
no write waits. -/
def Sys2Proof.Claim.MemoryCommands : Prop :=
  ∀ (m : MbxId) (s : State) (x : Mbx) (r : Req) (pl : Payload), s.d.dstate ∈ [.config, .ready, .running, .draining, .recovering] →
    let k := x.kennel
    let a := r.p0.toNat
    let p := page s.d k (a / pageBytes)
    let bs := bytesIn m k x r pl
    let n := 64 * r.plen
    0 < n → a % pageBytes + n ≤ pageBytes → p.poison = [] → tableBad s.d k a = false →
    (Served s m 0x42 x r → fld r.p0 5 0 = 0 → canWrite s.d k a = true → p.st = .near →
      ∃ d', Answers s (.memWrite m pl) m d' (if pl.complete then .ok else .timeout) (if pl.complete then 0 else BitVec.ofNat 64 bs.length) 0 0
        ∧ (∀ i, i < bs.length → Mem.byte (kmem d' k) (a + i) = bs.getD i 0)
        ∧ (∀ c, c < a ∨ a + bs.length ≤ c → Mem.byte (kmem d' k) c = Mem.byte (kmem s.d k) c) ∧ (∀ j, j ≠ k → kmem d' j = kmem s.d j)
        ∧ d' = { s.d with mem := d'.mem, pages := d'.pages, ses := d'.ses, mdies := d'.mdies }) ∧
    (Served s m 0x43 x r → canRead s.d k a = true → p.st = .near ∨ p.st = .zero → (∀ w ∈ s.d.waits, w.kennel ≠ k) → (∀ l, cached s.d p.home k l = none) →
      ∃ d', Answers s (.memRead m .clean) m d' .ok 0 0 0
        ∧ d'.out = s.d.out ++ [.payload m.toNat r.paddr (if p.st = .near then Mem.read (kmem s.d k) a n else List.replicate n 0)]
        ∧ d' = { s.d with out := d'.out, pages := d'.pages, mdies := d'.mdies })

/-- R224: MIGRATE asks for the migration of each page that is in the other tier and not pinned; no page moves at once. -/
def Sys2Proof.Claim.MigrateAsks : Prop :=
  ∀ (m : MbxId) (s : State) (x : Mbx) (r : Req), Served s m 0x44 x r → s.d.dstate ∈ [.ready, .running, .draining, .recovering] →
    let k := x.kennel
    let first := r.p0.toNat / pageBytes
    r.p0.toNat % pageBytes = 0 → 0 < r.p1.toNat → first + r.p1.toNat ≤ 8388608 →
    (∀ pg, first ≤ pg → pg < first + r.p1.toNat → (page s.d k pg).v = true) →
    ∃ d', Answers s (.migrate m) m d' .ok 0 0 0 ∧ d' = { s.d with mdies := d'.mdies }
      ∧ ∀ pg, first ≤ pg → pg < first + r.p1.toNat →
          (bit r.p2 0 = true → (page s.d k pg).st = .near → (page s.d k pg).policy ≠ 1 → pending (mdie d' (page s.d k pg).home) (pageKey k pg) = true) ∧
          (bit r.p2 0 = false → (page s.d k pg).st = .far → (page s.d k pg).policy ≠ 2 → pending (mdie d' (page s.d k pg).home) (pageKey k pg) = true)

/-- R184, R189, R364: HQ_SET writes a queue's configuration and keeps its biscuits; HQ_PUSH stores its biscuits in order up to the full queue
and says how many where it met it; HQ_FLUSH discards biscuits and waiting pops. No other queue changes. -/
def Sys2Proof.Claim.QueueCommands : Prop :=
  ∀ (m : MbxId) (s : State) (x : Mbx) (r : Req),
    let k := x.kennel
    let q := fld r.p0 14 0
    let n := fld r.p0 18 16
    let bs := [r.p1, r.p2, r.p3, r.p4, r.p5].take n
    (Served s m 0x50 x r → s.d.dstate ∈ [.config, .ready, .running, .draining, .recovering] → hqSetCheck s.d k q r.p1 = none →
      Answers s (.hqSet m) m (modHq s.d q (fun y => { y with cfg := r.p1 })) .ok 0 0 0) ∧
    (Served s m 0x51 x r → s.d.dstate ∈ [.ready, .running, .draining, .recovering] → hqAllows (hq s.d q) k = true → 0 < n → n ≤ 5 →
      (hq s.d q).waiters = [] →
      let room := (hq s.d q).depth - (hq s.d q).items.length
      (n ≤ room → Answers s (.hqPush m) m (modHq s.d q (fun y => { y with items := y.items ++ bs, pushCnt := y.pushCnt + BitVec.ofNat 32 n })) .ok 0 0 0) ∧
      (room < n → ∃ d', Answers s (.hqPush m) m d' .busy (BitVec.ofNat 64 room) 0 0 ∧ (hq d' q).items = (hq s.d q).items ++ bs.take room
        ∧ (hq d' q).fullSeen = true ∧ (∀ j, j ≠ q → hq d' j = hq s.d j) ∧ d' = { s.d with hqs := d'.hqs })) ∧
    (Served s m 0x52 x r → s.d.dstate ∈ [.ready, .running, .draining, .recovering] → hqAllows (hq s.d q) k = true → runsTask s.d k = false →
      Answers s (.hqFlush m) m (modHq s.d q (fun y => { y with items := [], waiters := [] })) .ok 0 0 0)

/-- R192, R270, R277: LITTER_SET and TREE_SET write an entry that its checks allow; enabling a reduction tree sends `WIN` credits to each port
of `DOWN_MASK`. R137: SCALAR_SET writes a scalar of a stopped pair. -/
def Sys2Proof.Claim.TableCommands : Prop :=
  ∀ (m : MbxId) (s : State) (x : Mbx) (r : Req), s.d.dstate ∈ [.config, .ready, .running, .draining, .recovering] →
    let k := x.kennel
    let e : BitVec 128 := r.p2 ++ r.p1
    (Served s m 0x53 x r → litterCheck s.d k (fld r.p0 9 0) e = none →
      Answers s (.litterSet m) m { s.d with litters := Tbl.set 0 s.d.litters (fld r.p0 9 0) e } .ok 0 0 0) ∧
    (Served s m 0x54 x r → treeCheck s.d k (fld r.p0 11 0) e = none → ∃ d', Answers s (.treeSet m) m d' .ok 0 0 0
      ∧ (tree d' (fld r.p0 11 0)).entry = e ∧ (∀ j, j ≠ fld r.p0 11 0 → tree d' j = tree s.d j)
      ∧ (bit e 127 = true → (tree d' (fld r.p0 11 0)).mcast = false → ∀ p < 16, Nat.testBit (tree d' (fld r.p0 11 0)).down p = true →
          (port d' p).link.q0 = (port s.d p).link.q0 ++ [tcredFlit (fld r.p0 11 0) (tree d' (fld r.p0 11 0)).win])
      ∧ d' = { s.d with trees := d'.trees, adders := d'.adders, ports := d'.ports }) ∧
    (Served s m 0x57 x r → let u := fld r.p0 13 8
      present s.d u = true → pairKennel s.d u = k → (pair s.d u).seq.run = false → (pair s.d u).ve.run = false →
      Answers s (.scalarSet m) m (modPair s.d u (fun p => { p with scalars := Tbl.set 0 p.scalars (fld r.p0 5 0) (r.p1.setWidth 32), history := [] })) .ok 0 0 0)

/-- R171, R173 to R176: SLOT_ARM of an empty slot makes the descriptor active with the next generation and its start beat, and of a slot with an
active one makes it the shadow; SLOT_DISARM takes the shadow away. No other slot changes. -/
def Sys2Proof.Claim.SlotCommands : Prop :=
  ∀ (m : MbxId) (s : State) (x : Mbx) (r : Req) (pl : Payload), s.d.dstate ∈ [.ready, .running, .draining, .recovering] →
    let k := x.kennel
    let n := fld r.p0 6 0
    let i := fld r.p0 12 8
    let y := sslot s.d n i
    let ds := descIn (bytesIn m k x r pl)
    n < 80 →
    (Served s m 0x55 x r → pl.complete = true → armCheck s.d k n i ds = none → slotUse s.d k + 1 ≤ (kennel s.d k).quota.slots → y.shd = none →
      (y.act = none → Answers s (.slotArm m pl) m (modSlot s.d n i (fun z => { z with
          gen := (z.gen + 1) % 2 ^ 16
          act := some { desc := ds, gen := z.gen, kennel := k, plan := r.p1.toNat, waiting := ds.dormant }
          lag := 0 })) .ok (BitVec.ofNat 64 y.gen) 0 0) ∧
      (∀ a, y.act = some a → Answers s (.slotArm m pl) m (modSlot s.d n i (fun z => { z with
          gen := (z.gen + 1) % 2 ^ 16
          shd := some (ds, z.gen, k, 0) })) .ok (BitVec.ofNat 64 y.gen) 0 0)) ∧
    (∀ dd g pl', Served s m 0x56 x r → y.shd = some (dd, g, k, pl') → fld r.p0 31 16 = g →
      ∃ d' w, Answers s (.slotDisarm m) m d' .ok w 0 0 ∧ (sslot d' n i).shd = none ∧ (sslot d' n i).act = y.act ∧ w = slotStatus d' n i
        ∧ (∀ j l, (j, l) ≠ (n, i) → sslot d' j l = sslot s.d j l) ∧ d' = { s.d with ses := d'.ses })

/-- R353, R360, R361: TASK_CREATE gives a LIVE kennel without a task a task in CREATING with the request's parameters; a manifest whose checks pass makes
it CREATED, one that the kennel may not read ends creation and leaves no task. -/
def Sys2Proof.Claim.TasksCreated : Prop :=
  ∀ (m : MbxId) (s : State) (x : Mbx) (r : Req) (k : KennelId) (t : Task) (ecc : Ecc), Awake s.d →
    (Served s m 0x60 x r → x.kennel = k.toNat → s.d.dstate ∈ [.ready, .running, .recovering] → createField r x.version = none → (kennel s.d k.toNat).st = .live →
      task s.d k.toNat = none → r.p4.toNat ≤ 12600000000000 → ∃ u y, exec (.taskCreate m) s = .next u ∧ task u.d k.toNat = some y ∧ y.st = .creating
        ∧ y.manifest = r.p0.toNat ∧ y.seed = r.p1 ∧ y.step0 = r.p2.toNat ∧ y.stepLast = r.p3.toNat ∧ y.footprint = r.p4.toNat
        ∧ (∀ j, j ≠ k.toNat → task u.d j = task s.d j) ∧ u.d = { hostOf s.d u.d with tasks := u.d.tasks, begun := s.d.begun.filter (· != m.toNat) }) ∧
    (task s.d k.toNat = some t → t.st = .creating →
      let z := readManifest s.d k.toNat t.manifest ecc
      let t' := loadManifest z.1 t z.2.secs
      (creationCheck z.1 k.toNat z.2 t' = none → ∃ u, exec (.taskCreationDone (k, ecc)) s = .next u ∧ task u.d k.toNat = some { t' with st := .created }
        ∧ OtherTasks s.d u.d k.toNat ∧ u.d.mem = s.d.mem) ∧
      (t.manifest % 64 = 0 → tableBad s.d k.toNat t.manifest = false → canRead s.d k.toNat t.manifest = false → ∃ u, exec (.taskCreationDone (k, ecc)) s = .next u
        ∧ task u.d k.toNat = none ∧ OtherTasks s.d u.d k.toNat ∧ u.d.mem = s.d.mem))

/-- R353, R354, R362: TASK_START moves a CREATED task to STARTING with its start beat; TASK_STOP a running one to STOPPING with its last step; TASK_ABORT
ends an active one with `SC_ABORTED`, and where no stream is in the middle of a row no memory changes; TASK_DESTROY removes a created or ended one. -/
def Sys2Proof.Claim.TasksMove : Prop :=
  ∀ (m : MbxId) (s : State) (x : Mbx) (r : Req) (t : Task), task s.d x.kennel = some t →
    let k := x.kennel
    let others (u : State) := OtherTasks s.d u.d k
    (Served s m 0x61 x r → s.d.dstate ∈ [.ready, .running, .recovering] → t.st = .created → t.isStandby = false → t.ringSize = 1 → s.d.time.tstate = .locked →
      beatNow s.d + 1000 ≤ r.p0.toNat → ∃ u, exec (.taskStart m) s = .next u
        ∧ (∃ y, task u.d k = some y ∧ y.st = .starting ∧ y.startBeat = r.p0.toNat) ∧ others u ∧ u.d.mem = s.d.mem) ∧
    (Served s m 0x62 x r → s.d.dstate ∈ [.running, .recovering, .draining] → t.st = .running → stepInProgress t ≤ r.p0.toNat → r.p0.toNat ≤ t.stepLast →
      ∃ u, exec (.taskStop m) s = .next u ∧ task u.d k = some { t with st := .stopping, stopStep := some r.p0.toNat } ∧ others u) ∧
    (Served s m 0x63 x r → s.d.dstate ∈ [.ready, .running, .draining, .recovering] → t.st.active = true → ∃ u, exec (.taskAbort m) s = .next u
        ∧ EndedWith u.d k .aborted ∧ (RowsWhole s.d → others u ∧ u.d.mem = s.d.mem)) ∧
    (Served s m 0x64 x r → t.st = .created ∨ t.st = .ended → ∃ u, exec (.taskDestroy m) s = .next u ∧ task u.d k = none ∧ others u ∧ u.d.mem = s.d.mem)

/-- R355, R412: TASK_STATUS tells the states, the step before the one in progress and the last commit; TASK_STANDBY notes the standby modules. -/
def Sys2Proof.Claim.TaskStatusAndStandby : Prop :=
  ∀ (m : MbxId) (s : State) (x : Mbx) (r : Req) (t : Task), task s.d x.kennel = some t →
    (Served s m 0x65 x r → ∃ w, Answers s (.taskStatus m) m { s.d with fresh := s.d.fresh + 1 } .ok (BitVec.ofNat 64 (256 * t.endSt.code + t.st.code))
        (BitVec.ofNat 64 (stepInProgress t) - 1) w ∧ ∀ c, t.lastCommit = some c → w = BitVec.ofNat 64 c) ∧
    (Served s m 0x69 x r → s.d.dstate ∈ [.ready, .running, .draining, .recovering] → ∃ y,
      Answers s (.taskStandby m) m (setTask s.d x.kennel (some y)) .ok 0 0 0
        ∧ (∀ w ∈ [r.p0, r.p1, r.p2, r.p3], bit w 63 = true → fld w 11 0 ∈ y.standbys) ∧ (y.isStandby = true ↔ selfModule s.d ∈ y.standbys)
        ∧ y = { t with standbys := y.standbys, isStandby := y.isStandby })

/-- R306, R312, R363: BATCH_PUT writes its bytes at the batch table's place and takes the batch off those asked for; SCHED_SET writes rows of steps not
begun; FREEZE_SET adds its entries after those there; a batch that never comes ends its task with `SC_TIMEOUT`. -/
def Sys2Proof.Claim.BatchesAndRows : Prop :=
  ∀ (m : MbxId) (s : State) (x : Mbx) (r : Req) (pl : Payload) (k : KennelId) (t : Task), x.kennel = k.toNat → task s.d k.toNat = some t → pl.complete = true →
    let bs := bytesIn m k.toNat x r pl
    let nearAt (a n : Nat) := 0 < n ∧ a % pageBytes + n ≤ pageBytes ∧ a + n ≤ 2 ^ 44 ∧ canWrite s.d k.toNat a = true
      ∧ tableBad s.d k.toNat a = false ∧ (page s.d k.toNat (a / pageBytes)).st = .near ∧ (page s.d k.toNat (a / pageBytes)).poison = []
    let written (d' : Dev) (a : Nat) := (∀ i, i < bs.length → Mem.byte (kmem d' k.toNat) (a + i) = bs.getD i 0)
      ∧ (∀ c, c < a ∨ a + bs.length ≤ c → Mem.byte (kmem d' k.toNat) c = Mem.byte (kmem s.d k.toNat) c) ∧ (∀ j, j ≠ k.toNat → kmem d' j = kmem s.d j)
    let sched := (((t.sec 0x08).map (·.addr)).getD 0) + 64 * r.p0.toNat
    (Served s m 0x66 x r → s.d.dstate ∈ [.running, .draining, .recovering] → fld r.p1 15 0 < batchCount t →
      stepInProgress t ≤ r.p0.toNat ∨ t.batchReq.any (fun z => z.1 == r.p0.toNat && z.2.1 == fld r.p1 15 0) = true →
      nearAt (batchPlace t (fld r.p1 15 0)) (64 * r.plen) → ∃ d', Answers s (.batchPut m pl) m d' .ok 0 0 0 ∧ written d' (batchPlace t (fld r.p1 15 0))
        ∧ task d' k.toNat = some { t with batchReq := t.batchReq.filter (fun y => !(y.1 == r.p0.toNat && y.2.1 == fld r.p1 15 0)) }) ∧
    (Served s m 0x67 x r → s.d.dstate ∈ [.ready, .running, .draining, .recovering] → (r.p0.toNat + r.plen) * 64 ≤ (t.data 0x08).length →
      begun t (t.step0 + r.p0.toNat) = false → nearAt sched (64 * r.plen) → ∃ d', Answers s (.schedSet m pl) m d' .ok 0 0 0 ∧ written d' sched) ∧
    (Served s m 0x68 x r → s.d.dstate ∈ [.ready, .running, .draining, .recovering] → (∀ w ∈ itemsOf bs.length 0 0x09 bs, begun t (nth w 0) = false) →
      ∃ y, Answers s (.freezeSet m pl) m (setTask s.d k.toNat (some y)) .ok 0 0 0 ∧ y.freezes.map (·.words) = t.freezes.map (·.words) ++ itemsOf bs.length 0 0x09 bs
        ∧ y = { t with freezes := y.freezes }) ∧
    (Awake s.d → t.st.active = true → t.batchReq.any (fun z => due s.d z.2.2 (ms (1000 * t.batchWait))) = true →
      ∃ u, exec (.batchWaitTimeout k) s = .next u ∧ EndedWith u.d k.toNat .timeout ∧ (RowsWhole s.d → OtherTasks s.d u.d k.toNat))

/-- R367: firmware never waits for an event ring. An event that meets a full ring, or one with a single free entry while lost events are counted, is dropped and
counted; once two entries are free, `EVT_LOST` with the count is written, and then the event. -/
def Obligations.EventsNeverWait : Prop :=
  ∀ (d : Dev) (m : Nat) (ev : Ev) (x : Mbx), mbx d m = some x → x.evSeq < 2 ^ 16 → x.lost < 2 ^ 64 → ev.code < 2 ^ 16 → ev.kennel < 2 ^ 6 → d.dstate.code < 2 ^ 10 →
    let at' (n : Nat) := (x.eqCount + n) % 2 ^ x.eqLog
    let told (e : BitVec 256) (n code d0 : Nat) := fld e 255 255 = (if (x.eqCount + n) / 2 ^ x.eqLog % 2 = 0 then 1 else 0) ∧ fld e 247 232 = code
      ∧ fld e 207 192 = (x.evSeq + n) % 2 ^ 16 ∧ fld e 63 0 = d0
    (eqFree x = 0 ∨ (0 < x.lost ∧ eqFree x = 1) → postEvent d m ev = setMbx d m (some { x with lost := x.lost + 1 })) ∧
    (0 < eqFree x → x.lost = 0 → ∃ e y more, (postEvent d m ev).out = d.out ++ .event m (at' 0) e :: more ∧ told e 0 ev.code ev.d0.toNat
      ∧ mbx (postEvent d m ev) m = some y ∧ y.lost = 0 ∧ y.eqCount = x.eqCount + 1 ∧ y.eqUsed = x.eqUsed + 1 ∧ postEvent d m ev = hostOf d (postEvent d m ev)) ∧
    (1 < eqFree x → 0 < x.lost → ∃ e1 e2 y more more', (postEvent d m ev).out = d.out ++ .event m (at' 0) e1 :: more ++ .event m (at' 1) e2 :: more'
      ∧ told e1 0 0x0002 x.lost ∧ told e2 1 ev.code ev.d0.toNat ∧ mbx (postEvent d m ev) m = some y ∧ y.lost = 0 ∧ y.eqCount = x.eqCount + 2
      ∧ postEvent d m ev = hostOf d (postEvent d m ev))

/-! ### Host ports, functions and mailboxes (chapters 11 and 14) -/

namespace Sys2Proof.Machine

/-- Function n of host port p exists (R425). -/
def FnThere (s : State) (p : HostPort) (n : FnIx) : Prop := Awake s.d ∧ fnExists s.d p.val n.val = true

/-- The end of mailboxes changes rings, functions and ports of the host side, and what belongs to the mailboxes that end. -/
abbrev endsOf (d d' : Dev) : Dev :=
  { hostOf d d' with hports := d'.hports, begun := d'.begun, mbxFreed := d'.mbxFreed, sessions := d'.sessions, handshakes := d'.handshakes }

/-- No mailbox of function n of port p is left. -/
def NoMailbox (d : Dev) (p n : Nat) : Prop := ∀ j y, mbx d j = some y → ¬(y.port = p ∧ y.fn = n)

/-- A function after what MSIX_UNMASK changes (R436). -/
def unmasked (f : Fn) (u : Unmask) : Fn :=
  match u with
  | .entry v x => { f with table := Tbl.set (1#128 <<< 96) f.table v.toNat x }
  | .function => { f with fnMask := false }
  | .enable => { f with msixEn := true }
  | .busMaster => { f with busMaster := true }
  | .d0 => { f with d3 := false }

/-- Messages of a function may go. -/
def messagesGo (f : Fn) : Bool := f.msixEn && f.busMaster && !f.d3

end Sys2Proof.Machine

/-- R339, R434: outside BOOT a write of the attach doorbell starts an attach, or is held behind one; a further one replaces the held address and
sets `WR_DROP`, and so does an address of zero; in BOOT it is held. A doorbell of a function that does not exist does nothing. -/
def Sys2Proof.Claim.AttachDoorbell : Prop :=
  ∀ (p : HostPort) (n : FnIx) (v : DWord) (s : State), Awake s.d →
    let f := fn s.d p.val n.val
    let a := v &&& mask 64 63 12
    let dropped (t : State) := (fn t.d p.val n.val).wrDrop = true ∧ (fn t.d p.val n.val).wrDropCnt = f.wrDropCnt + 1 ∧ t.d = { s.d with fns := t.d.fns, out := t.d.out }
    (fnExists s.d p.val n.val = false → exec (.attachDb p n v) s = becomes s s.d) ∧
    (fnExists s.d p.val n.val = true → fld v 63 12 = 0 → ∃ t, exec (.attachDb p n v) s = .next t ∧ dropped t) ∧
    (fnExists s.d p.val n.val = true → fld v 63 12 ≠ 0 →
      (s.d.dstate ≠ .boot → f.attaching = none → f.held = none → exec (.attachDb p n v) s = becomes s (modFn s.d p.val n.val (fun f => { f with attaching := some a }))) ∧
      (f.held = none → f.attaching ≠ none ∨ s.d.dstate = .boot → exec (.attachDb p n v) s = becomes s (modFn s.d p.val n.val (fun f => { f with held := some a }))) ∧
      (f.held ≠ none → f.attaching ≠ none → ∃ t, exec (.attachDb p n v) s = .next t ∧ (fn t.d p.val n.val).held = some a ∧ dropped t))

/-- R338 to R341: the attach in progress writes its status into word 8 of the MCB, sets `ATTACH_DONE`, and ends. Where the checks pass there is a
mailbox as the MCB describes it; else there is none more. -/
def Sys2Proof.Claim.AttachAnswers : Prop :=
  ∀ (p : HostPort) (n : FnIx) (bs : List Byte) (s : State) (a : DWord) (sc : Sc) (got : Option (Nat × Mbx)), FnThere s p n →
    let f := fn s.d p.val n.val
    f.attaching = some a → f.held = none → f.busMaster = true → f.d3 = false → s.d.bootSecurity = false → s.d.bootCause = none →
    attachCheck s.d p.val n.val bs = (sc, got) →
    ∃ t w8 w9 more, exec (.mbxAttach p n (some bs) true) s = .next t ∧ t.d.out = s.d.out ++ .mcb p.val n.val a w8 w9 :: more
      ∧ bit w8 63 = true ∧ fld w8 55 48 = sc.code ∧ (fn t.d p.val n.val).attachDone = true ∧ (fn t.d p.val n.val).attaching = none
      ∧ (fn t.d p.val n.val).attachCnt = f.attachCnt + 1 ∧ t.d = { hostOf s.d t.d with begun := s.d.begun }
      ∧ (∀ m x, got = some (m, x) → mbx t.d m = some x ∧ (fn t.d p.val n.val).gen = (f.gen + 1) % 2 ^ 16 ∧ ∀ j, j ≠ m → mbx t.d j = mbx s.d j)
      ∧ (got = none → t.d.mbx = s.d.mbx ∧ (fn t.d p.val n.val).gen = f.gen)

/-- R338, R340, R341: what the checks of an MCB find: a malformed one, one without a common version, a kennel that is not LIVE, and else the highest
common version and the least free number. -/
def Sys2Proof.Claim.AttachChecks : Prop :=
  ∀ (d : Dev) (p n : Nat) (bs : List Byte),
    (mcbFormat bs = true → attachCheck d p n bs = (.format, none)) ∧
    (mcbFormat bs = false → (∀ v ∈ [0x34, 0x33, 0x32, 0x31, 0x30, 0x26], v < fld (mcbWord bs 3) 51 44 ∨ fld (mcbWord bs 3) 43 36 < v) →
      attachCheck d p n bs = (.version, none)) ∧
    (∀ v, mcbFormat bs = false → v ∈ [0x34, 0x33, 0x32, 0x31, 0x30, 0x26] → fld (mcbWord bs 3) 51 44 ≤ v → v ≤ fld (mcbWord bs 3) 43 36 →
      (kennelOfFn n ≠ 0 → (kennel d (kennelOfFn n)).st ≠ .live → attachCheck d p n bs = (.quota, none)) ∧
      (∀ m x, attachCheck d p n bs = (.ok, some (m, x)) → v ≤ x.version ∧ x.kennel = kennelOfFn n ∧ x.port = p ∧ x.fn = n ∧ mbx d m = none ∧ m < 4096
        ∧ x.sqLog = fld (mcbWord bs 3) 63 60 ∧ x.cqLog = fld (mcbWord bs 3) 59 56 ∧ x.eqLog = fld (mcbWord bs 3) 55 52 ∧ x.req = none ∧ x.cqCount = 0
        ∧ ∀ j, j < m → mbx d j ≠ none ∨ Tbl.get 0 d.mbxFreed j ≠ 0))

/-- R345, R435: a doorbell of a mailbox's own function gives the ring indices to firmware; indices that R345 refuses change none and raise `MBX_ERROR`;
one of another function's mailbox, or of none, is discarded with `WR_DROP`. -/
def Sys2Proof.Claim.MailboxDoorbell : Prop :=
  ∀ (p : HostPort) (n : FnIx) (m : MbxId) (v : DWord) (s : State) (x : Mbx), FnThere s p n →
    let dropped (t : State) := (fn t.d p.val n.val).wrDrop = true ∧ (fn t.d p.val n.val).wrDropCnt = (fn s.d p.val n.val).wrDropCnt + 1
      ∧ t.d = { s.d with fns := t.d.fns, out := t.d.out }
    (mbx s.d m.toNat = none → ∃ t, exec (.mbxDb p n m v) s = .next t ∧ dropped t) ∧
    (mbx s.d m.toNat = some x → x.port ≠ p.val ∨ x.fn ≠ n.val → ∃ t, exec (.mbxDb p n m v) s = .next t ∧ dropped t) ∧
    (mbx s.d m.toNat = some x → x.port = p.val → x.fn = n.val →
      (doorbellBad x v = true → ∃ t y, exec (.mbxDb p n m v) s = .next t ∧ mbx t.d m.toNat = some y ∧ y.sqTail = x.sqTail ∧ y.cqHead = x.cqHead ∧ y.eqHead = x.eqHead
        ∧ y.lastDb = v ∧ t.d = hostOf s.d t.d ∧ (0 < eqFree x → x.lost = 0 → y.eqCount = x.eqCount + 1)) ∧
      (doorbellBad x v = false → ∃ t y, exec (.mbxDb p n m v) s = .next t ∧ mbx t.d m.toNat = some y ∧ y.sqTail = fld v 15 0 ∧ y.cqHead = fld v 31 16
        ∧ y.eqHead = fld v 47 32 ∧ y.cqUsed = x.cqUsed - (fld v 31 16 + 2 ^ x.cqLog - x.cqHead) % 2 ^ x.cqLog
        ∧ y.eqUsed = x.eqUsed - (fld v 47 32 + 2 ^ x.eqLog - x.eqHead) % 2 ^ x.eqLog ∧ y.sqHead = x.sqHead ∧ y.req = x.req
        ∧ (∀ j, j ≠ m.toNat → mbx t.d j = mbx s.d j) ∧ t.d = { s.d with mbx := t.d.mbx }))

/-- R346, R347, R350: an idle mailbox with requests waiting and a free completion entry begins the next one; a request that the first checks refuse is answered at
once, and a ring that fails ends the mailbox (log 103). A busy mailbox, an empty ring or a full completion ring begins none. -/
def Sys2Proof.Claim.RequestsBegin : Prop :=
  ∀ (m : MbxId) (f : Fetch) (s : State) (x : Mbx), Awake s.d → mbx s.d m.toNat = some x →
    let x' (r : Req) : Mbx := { x with sqHead := (x.sqHead + 1) % 2 ^ x.sqLog, req := some r, stallSince := none }
    (f ≠ .failed → x.req ≠ none ∨ x.sqHead = x.sqTail ∨ 2 ^ x.cqLog ≤ x.cqUsed → exec (.requestBegin m f) s = becomes s s.d) ∧
    (f = .failed → ∃ t, exec (.requestBegin m f) s = .next t ∧ mbx t.d m.toNat = none ∧ m.toNat ∉ t.d.begun ∧ t.d = endsOf s.d t.d
      ∧ ∀ j, (mbx t.d j).isSome = ((mbx s.d j).isSome && j != m.toNat)) ∧
    (x.req = none → x.sqHead ≠ x.sqTail → x.cqUsed < 2 ^ x.cqLog →
      (∀ r, f = .request r → frontCheck x r = none → exec (.requestBegin m f) s
        = becomes s { setMbx s.d m.toNat (some (x' r)) with begun := s.d.begun ++ [m.toNat] }) ∧
      (∀ r c, f = .request r → frontCheck x r = some c → exec (.requestBegin m f) s = becomes s (finish (setMbx s.d m.toNat (some (x' r))) m.toNat c 0 0 0)))

/-- R347: the order of the first checks: reserved bits before the version, the version before the right to send; a code of no row is unsupported. -/
def Sys2Proof.Claim.FirstChecksOrder : Prop :=
  ∀ (x : Mbx) (r : Req),
    (cmdOf r.cmd x.version = none → fld r.hdr 25 20 = 0 → paddrBad r = false → frontCheck x r = some .unsupported) ∧
    (∀ c, cmdOf r.cmd x.version = some c →
      (fld r.hdr 25 20 ≠ 0 ∨ paddrBad r = true ∨ paramRsvd c r = true ∨ (c.need = true ∧ r.plen = 0) ∨ (c.target = false ∧ r.target ≠ 0) →
        frontCheck x r = some .format) ∧
      (fld r.hdr 25 20 = 0 → paddrBad r = false → paramRsvd c r = false → (c.need = true → r.plen ≠ 0) → (c.target = false → r.target = 0) →
        (x.version < c.since → frontCheck x r = some .version) ∧
        (c.since ≤ x.version → c.mgmt = true → x.kennel ≠ 0 → frontCheck x r = some .denied) ∧
        (c.since ≤ x.version → c.mgmt = false ∨ x.kennel = 0 → frontCheck x r = none)))

/-- R350, R367, R368: ten seconds of a full completion ring end the mailbox; 1 ms later its number is free; lost events are told with their count once two entries
are free; a due interval signals each vector once. -/
def Obligations.MailboxTimers : Prop :=
  ∀ (m : MbxId) (s : State) (x : Mbx) (b : Nat), Awake s.d →
    (mbx s.d m.toNat = some x → x.stallSince = some b → due s.d b (ms 10000) = true → 2 ^ x.cqLog ≤ x.cqUsed → x.sqHead ≠ x.sqTail →
      ∃ t, exec (.completionRingStall m) s = .next t ∧ mbx t.d m.toNat = none ∧ Tbl.get 0 t.d.mbxFreed m.toNat = s.d.eclk + 1 ∧ m.toNat ∉ t.d.begun
        ∧ t.d = endsOf s.d t.d ∧ ∀ j, j ≠ m.toNat → (mbx t.d j).isSome = (mbx s.d j).isSome) ∧
    (Tbl.get 0 s.d.mbxFreed m.toNat = b + 1 → due s.d b (ms 1) = true → exec (.mailboxFree m) s = becomes s { s.d with mbxFreed := Tbl.erase s.d.mbxFreed m.toNat }) ∧
    (mbx s.d m.toNat = some x → 0 < x.lost → x.lost < 2 ^ 64 → 2 ≤ eqFree x → x.evSeq < 2 ^ 16 → ∃ t e y more, exec (.evtLost m) s = .next t
      ∧ t.d.out = s.d.out ++ .event m.toNat (x.eqCount % 2 ^ x.eqLog) e :: more ∧ fld e 247 232 = 0x0002 ∧ fld e 63 0 = x.lost ∧ mbx t.d m.toNat = some y ∧ y.lost = 0
      ∧ y.eqCount = x.eqCount + 1 ∧ y.eqUsed = x.eqUsed + 1 ∧ t.d = hostOf s.d t.d) ∧
    (mbx s.d m.toNat = some x → x.cqDue = some b → due s.d b (us x.coal) = true → messagesGo (fn s.d x.port x.fn) = true →
      vecMasked (fn s.d x.port x.fn) x.cqVec = false → vecMasked (fn s.d x.port x.fn) x.eqVec = false →
      (x.eqDue = none → exec (.interruptCoalesce m) s = becomes s { setMbx s.d m.toNat (some { x with cqDue := none }) with
        out := s.d.out ++ [.msix x.port x.fn x.cqVec] }) ∧
      (x.eqDue = some b → exec (.interruptCoalesce m) s = becomes s { setMbx s.d m.toNat (some { x with cqDue := none, eqDue := none }) with
        out := s.d.out ++ (if x.eqVec = x.cqVec then [.msix x.port x.fn x.cqVec] else [.msix x.port x.fn x.cqVec, .msix x.port x.fn x.eqVec]) }))

/-- R350, R425, R426, R446: what ends the mailboxes of functions. A reset function has its registers at reset, but for its attach generation; a port that is reset or
loses its link has no virtual functions. Nothing but the host side changes. -/
def Sys2Proof.Claim.FunctionsEnd : Prop :=
  ∀ (p : HostPort) (n : FnIx) (s : State) (c : Instr), FnThere s p n →
    let f := fn s.d p.val n.val
    let h := hport s.d p.val
    (c = .functionLevelReset p n → ∃ t, exec c s = .next t ∧ t.d = endsOf s.d t.d ∧ NoMailbox t.d p.val n.val ∧ fn t.d p.val n.val = { gen := f.gen }
      ∧ (n = 0 → (hport t.d p.val).numVfs = 0 ∧ ∀ v, v ≤ h.numVfs → NoMailbox t.d p.val v)) ∧
    (c = .busMasterDisable p n → ∃ t, exec c s = .next t ∧ t.d = endsOf s.d t.d ∧ NoMailbox t.d p.val n.val ∧ (fn t.d p.val n.val).busMaster = false
      ∧ (fn t.d p.val n.val).attaching = none ∧ (fn t.d p.val n.val).held = none) ∧
    (c = .d3hotEntry p n → ∃ t, exec c s = .next t ∧ t.d = endsOf s.d t.d ∧ NoMailbox t.d p.val n.val ∧ (fn t.d p.val n.val).d3 = true) ∧
    (c = .msixEnableClear p n → ∃ t, exec c s = .next t ∧ t.d = endsOf s.d t.d ∧ (fn t.d p.val n.val).msixEn = false
      ∧ (namesVector s.d p.val n.val = true → NoMailbox t.d p.val n.val) ∧ (namesVector s.d p.val n.val = false → t.d.mbx = s.d.mbx)) ∧
    (c = .vfDisable p n → n.val < h.numVfs → ∃ t, exec c s = .next t ∧ t.d = endsOf s.d t.d ∧ hport t.d p.val = { h with numVfs := n.val }
      ∧ ∀ v, n.val < v → v ≤ h.numVfs → NoMailbox t.d p.val v) ∧
    (c = .hostLinkLoss p ∨ c = .hpPerst p → ∃ t, exec c s = .next t ∧ t.d = endsOf s.d t.d ∧ hport t.d p.val = {} ∧ fn t.d p.val 0 = { gen := (fn s.d p.val 0).gen }
      ∧ ∀ v, v ≤ h.numVfs → NoMailbox t.d p.val v)

/-- R424, R425: a port trains at a rate and width of Table 14-1; VF Enable makes virtual functions exist. -/
def Sys2Proof.Claim.PortsTrain : Prop :=
  ∀ (p : HostPort) (n : FnIx) (s : State) (rate width : Nat) (flit : Bool), Awake s.d →
    (rate ∈ [64, 32, 16] → 1 ≤ width → width ≤ 16 → exec (.hostPortTrain p rate width flit) s
      = becomes s (modHport s.d p.val (fun h => { h with up := true, rate := rate, width := width, flitMode := flit }))) ∧
    ((hport s.d p.val).numVfs < n.val → exec (.vfEnable p n) s = becomes s (modHport s.d p.val (fun h => { h with numVfs := n.val })))

/-- R430, R431, R436: a write of `FN_STATUS` clears the flags it writes ones to, one of `FN_INT_CTRL` sets its vector and enables, and either sends the status message
while its condition holds; unmasking sends the pending messages that may go. -/
def Sys2Proof.Claim.FunctionRegisters : Prop :=
  ∀ (p : HostPort) (n : FnIx) (s : State) (v : DWord) (u : Unmask), FnThere s p n →
    let f := fn s.d p.val n.val
    let tells (g : Fn) (c : Instr) := ∃ t, exec c s = .next t ∧ t.d = { s.d with fns := t.d.fns, out := t.d.out }
      ∧ fn t.d p.val n.val = { g with pend := (fn t.d p.val n.val).pend }
      ∧ (messagesGo g = true → vecMasked g (fnVec g) = false → t.d.out = s.d.out ++ (if statusCond g then [.msix p.val n.val (fnVec g)] else []))
    (tells { f with devChange := f.devChange && !bit v 2, attachDone := f.attachDone && !bit v 1, wrDrop := f.wrDrop && !bit v 0 } (.fnStatusWrite p n v)) ∧
    (tells { f with intCtrl := (f.intCtrl &&& ~~~(mask 64 63 52 ||| mask 64 2 0)) ||| (v &&& (mask 64 63 52 ||| mask 64 2 0)) } (.fnIntCtrlWrite p n v)) ∧
    (let g := unmasked f u
      ∃ t, exec (.msixUnmask p n u) s = .next t ∧ t.d = { s.d with fns := t.d.fns, out := t.d.out }
        ∧ fn t.d p.val n.val = (if messagesGo g then { g with pend := g.pend.filter (fun w => vecMasked g w) } else g)
        ∧ t.d.out = s.d.out ++ (if messagesGo g then (g.pend.filter (fun w => !vecMasked g w)).map (fun w => .msix p.val n.val w) else []))

/-! ### Power, sensors, throttle and management (chapter 15) -/

namespace Sys2Proof.Machine

/-- A power record from which the rails start where they may (R442). -/
def started (p : Power) (now : Nat) : Power := if mayStart p then { p with railsOn := 1, railsGood := 0, stepSince := now } else p

/-- What every power-down and reset keeps (R470): fuses, boot image slots, running and previous epoch, retirement order. -/
def Keeps (d d' : Dev) : Prop :=
  d'.fuses = d.fuses ∧ d'.slotA = d.slotA ∧ d'.slotB = d.slotB ∧ d'.epochRun = d.epochRun ∧ d'.epochPrev = d.epochPrev ∧ d'.retireSeq = d.retireSeq

/-- The units hold nothing (R470). -/
def UnitsClear (d : Dev) : Prop :=
  d.mem = [] ∧ d.pages = [] ∧ d.pairs = [] ∧ d.ses = [] ∧ d.hqs = [] ∧ d.ports = [] ∧ d.tasks = [] ∧ d.kennels = [] ∧ d.mbx = [] ∧ d.time = {}

/-- An emergency power-down has happened and is latched (Table 15-3, R451). -/
def EmergencyOff (d d' : Dev) : Prop :=
  d'.dstate = .off ∧ d'.power.good = false ∧ d'.power.railsOn = 0 ∧ d'.power.down = false ∧ d'.power.latched = true ∧ d'.power.selfRefresh = false
    ∧ Keeps d d' ∧ (d.dstate ≠ .off → UnitsClear d')

/-- The device states from which a SAFE limit leads to SAFE (Table 11-6). -/
def safeFrom : List DState := [.config, .ready, .running, .draining, .recovering]

end Sys2Proof.Machine

/-- R440, R442, R447: the input and `PWR_EN` start the rails; each step's power good starts the next, and the last makes `PWR_GOOD_N` low and, with
`MOD_RST_N` high, leaves OFF for BOOT. -/
def Sys2Proof.Claim.RailsRise : Prop :=
  ∀ (s : State), Calm s.d →
    let p := s.d.power
    (exec .vinInRange s = becomes s { s.d with power := started { p with vinOk := true, standby := true } s.d.eclk }) ∧
    (enCounts s.d = true → exec .pwrEnRise s = becomes s { s.d with power := started { p with pwrEn := true, lowSince := none } s.d.eclk }) ∧
    (enCounts s.d = false → exec .pwrEnRise s = becomes s s.d) ∧
    (p.down = false → 0 < p.railsOn → p.railsGood ≠ p.railsOn →
      (p.railsOn < 6 → exec .railStepGood s = becomes s { s.d with power := { p with railsGood := p.railsOn, railsOn := p.railsOn + 1, stepSince := s.d.eclk } }) ∧
      (6 ≤ p.railsOn → exec .railStepGood s = becomes s { s.d with
        power := { p with railsGood := 6, good := true }
        dstate := if p.modRst = false ∧ s.d.dstate = .off then .boot else s.d.dstate }))

/-- R439, R446, R450, R451: a fall of `PWR_EN` or the loss of the input powers the module down; the rail steps switch off one by one, and the last ends the self-refresh
and lets the rails start again; 100 ms of low `PWR_EN` release the latch. -/
def Sys2Proof.Claim.RailsFall : Prop :=
  ∀ (s : State) (b : Nat), Calm s.d →
    let p := s.d.power
    (enCounts s.d = true → p.pwrEn = true → p.down = false → 0 < p.railsOn → ∃ t, exec .pwrEnFall s = .next t ∧ t.d.dstate = .off ∧ Keeps s.d t.d
      ∧ (s.d.dstate ≠ .off → UnitsClear t.d)
      ∧ t.d.power = { p with pwrEn := false, lowSince := some s.d.eclk, good := false, railsGood := 0, down := true, selfRefresh := true }) ∧
    (0 < p.railsOn → ∃ t, exec .inputLoss s = .next t ∧ t.d.dstate = .off ∧ Keeps s.d t.d ∧ (s.d.dstate ≠ .off → UnitsClear t.d) ∧ t.d.mgmt = {}
      ∧ t.d.power = { p with vinOk := false, standby := false, faultLog := [], good := false, railsGood := 0, down := true, selfRefresh := true }) ∧
    (p.down = true → 1 < p.railsOn → exec .railOffStep s = becomes s { s.d with power := { p with railsOn := p.railsOn - 1 } }) ∧
    (p.down = true → p.railsOn = 1 → exec .railOffStep s = becomes s
      { s.d with power := started { p with railsOn := 0, down := false, selfRefresh := false } s.d.eclk }) ∧
    (p.lowSince = some b → due s.d b (ms 100) = true → exec .emergencyLatchRelease s = becomes s { s.d with power := { p with latched := false, inputOpen := false } })

/-- R439, R444, R453: a rail that misses its window or loses power good is logged and starts an emergency power-down; so do the trips of sensors 4 to 26 and 31 and the input
current limit, which opens the input as well; a sensor without a trip does nothing. -/
def Sys2Proof.Claim.EmergenciesLatch : Prop :=
  ∀ (s : State) (rail : Fin 18) (id : Fin 32), Calm s.d →
    let p := s.d.power
    (0 < railStep rail.val → p.down = false → p.railsOn = railStep rail.val → p.railsGood < railStep rail.val →
      due s.d p.stepSince (railWindow (railStep rail.val)) = true →
      ∃ t, exec (.railFault rail) s = .next t ∧ EmergencyOff s.d t.d ∧ t.d.power.faultLog = p.faultLog ++ [rail.val] ∧ t.d.power.inputOpen = p.inputOpen) ∧
    (p.good = true → ∃ t, exec (.railPowerLoss rail) s = .next t ∧ EmergencyOff s.d t.d ∧ t.d.power.faultLog = p.faultLog ++ [rail.val]) ∧
    (∃ t, exec .inputOvercurrent s = .next t ∧ EmergencyOff s.d t.d ∧ t.d.power.inputOpen = true) ∧
    ((4 ≤ id.val ∧ id.val ≤ 26) ∨ id.val = 31 → ∃ t, exec (.sensorTrip id) s = .next t ∧ EmergencyOff s.d t.d ∧ t.d.power.inputOpen = p.inputOpen) ∧
    (id.val = 2 → ∃ t, exec (.sensorTrip id) s = .next t ∧ EmergencyOff s.d t.d ∧ t.d.power.inputOpen = true) ∧
    (id.val ∈ [0, 1, 3, 27, 28, 29, 30] → exec (.sensorTrip id) s = becomes s s.d)

/-- R337, R352, R354: a watchdog that expires and a fault of the security core take the device to FAULTED, and every active task to ENDED with `SC_ABORTED`; where no stream is in the middle
of a row, no memory changes. -/
def Sys2Proof.Claim.FaultsEndTasks : Prop :=
  ∀ (s : State) (c : Instr), Awake s.d → s.d.dstate ≠ .faulted → c = .watchdogExpiry ∨ c = .securityCoreFault →
    ∃ t, exec c s = .next t ∧ t.d.dstate = .faulted ∧ t.d.kennels = s.d.kennels ∧ (RowsWhole s.d → t.d.mem = s.d.mem ∧ t.d.pages = s.d.pages)
      ∧ ∀ k u, task s.d k = some u → u.st.active = true → EndedWith t.d k .aborted

/-- R446, R470: `MOD_RST_N` low resets every unit into BOOT but the host ports and what R470 keeps; in OFF it is only noted, and its release leaves OFF where the rails are good. -/
def Sys2Proof.Claim.ModuleResets : Prop :=
  ∀ (s : State), Calm s.d →
    (s.d.dstate ≠ .off → ∃ t, exec (.modRst true) s = .next t ∧ t.d.dstate = .boot ∧ t.d.power.modRst = true ∧ Keeps s.d t.d ∧ UnitsClear t.d ∧ t.d.hports = s.d.hports
      ∧ t.d.power.railsOn = s.d.power.railsOn ∧ t.d.eclk = s.d.eclk) ∧
    (s.d.dstate = .off → exec (.modRst true) s = becomes s { s.d with power := { s.d.power with modRst := true } }) ∧
    (exec (.modRst false) s = becomes s { s.d with
      power := { s.d.power with modRst := false }
      dstate := if s.d.power.good = true ∧ s.d.dstate = .off then .boot else s.d.dstate })

/-- R389, R390, R391, R421, R447: BOOT of a module with good rails: with no image that verifies it ends in FAULTED, and so it does with a failed memory channel, a failed self-test of a present pair or a SAFE
limit; else it runs the image of the highest write sequence that verifies, draws a module key, writes the skew tables, applies the running epoch and ends in CONFIG or, as the epoch says, READY. -/
def Sys2Proof.Claim.BootEnds : Prop :=
  ∀ (s : State) (b : BootIn), Awake s.d → s.d.dstate = .boot → s.d.power.good = true → s.d.power.modRst = false → s.d.tasks = [] → (∀ p < 16, (port s.d p).st ≠ .up) →
    (bootSlot s.d b = none → ∃ t, exec (.boot b) s = .next t ∧ t.d.dstate = .faulted ∧ t.d.bootCause = some (devCause 3 0)) ∧
    (bootSlot s.d b ≠ none → b.limit ≠ none ∨ b.memFail ≠ none ∨ (∃ e, b.selfTest = some e ∧ (e = 0xFFFF ∨ present s.d e = true)) → ∃ t, exec (.boot b) s = .next t ∧ t.d.dstate = .faulted) ∧
    (∀ slot fell, bootSlot s.d b = some (slot, fell) → b.limit = none → b.memFail = none → (∀ e, b.selfTest = some e → e ≠ 0xFFFF ∧ present s.d e = false) → b.epochFails = false →
      (∀ id < 32, (sensor s.d id).safe = false) →
      ∃ t, exec (.boot b) s = .next t ∧ t.d.dstate = (if s.d.epochRun.autoReady then .ready else .config) ∧ t.d.runningB = some slot ∧ t.d.bootSecurity = fell
        ∧ t.d.moduleKey = some (Config.freshKey s.d.fresh) ∧ t.d.time.config = s.d.epochRun.timeCfg ∧ t.d.time.origin = s.d.epochRun.timeOrigin
        ∧ (∀ e < 48, present s.d e = true → (pair t.d e).ope.bypRows = bypassedRows (repairRecord s.d e)
            ∧ (pair t.d e).ope.bypCols = bypassedCols (repairRecord s.d e))
        ∧ (s.d.epochRun.autoReady = true → t.d.fuses.svn = max s.d.fuses.svn (slotSvn (imgSlot s.d slot)))
        ∧ (∀ x y, s.d.slotA.commit = some x → s.d.slotB.commit = some y → verifies s.d s.d.slotA b.slotA = true → verifies s.d s.d.slotB b.slotB = true →
            slot = decide (x.1 < y.1) ∧ fell = false))

/-- R452, R454, R455: a sample in the valid range enters its sensor's filter, whose value is judged against the thresholds of Table 15-6; a reading beyond a SAFE threshold takes the device to
SAFE; a sample out of range, or none in time, makes the sensor failed; ten seconds on the safe side of warn clear a limit. -/
def Sys2Proof.Claim.SensorsJudge : Prop :=
  ∀ (s : State) (id : Fin 32) (v : Int) (b lim : Nat), Calm s.d →
    let i := id.val
    let x := sensor s.d i
    let w := keepLast (filterLen i) x.window v
    let f := filterValue i w
    (watched s.d i = false → exec (.sensorSample id v) s = becomes s s.d) ∧
    (watched s.d i = true → sampleOk i v = false → ∃ t, exec (.sensorSample id v) s = .next t ∧ (sensor t.d i).failed = true ∧ (sensor t.d i).last = some s.d.eclk
      ∧ ∀ j, j ≠ i → sensor t.d j = sensor s.d j) ∧
    (watched s.d i = true → sampleOk i v = true → i ≠ 3 → x.beyond = none → ∃ t, exec (.sensorSample id v) s = .next t
      ∧ (∀ j, j ≠ i → sensor t.d j = sensor s.d j)
      ∧ (sensor t.d i).failed = false ∧ (sensor t.d i).window = w ∧ (sensor t.d i).filtered = some f ∧ (sensor t.d i).last = some s.d.eclk
      ∧ (sensor t.d i).warn = warnAt i f ∧ (sensor t.d i).throttle = throttleAt i f ∧ (sensor t.d i).safe = (safeAt i f && safeHold i == 0)
      ∧ (safeAt i f = true → safeHold i = 0 → x.safe = false → s.d.dstate ∈ safeFrom → RowsWhole s.d → t.d.dstate = .safe)
      ∧ (safeAt i f = false → t.d.dstate = s.d.dstate)) ∧
    (watched s.d i = true → sampleOk i v = true → i = 3 → ∃ t, exec (.sensorSample id v) s = .next t ∧ t.d.thr = { s.d.thr with sum := s.d.thr.sum + v, count := s.d.thr.count + 1 }
      ∧ (sensor t.d 3).filtered = some (mean w) ∧ t.d = { s.d with thr := t.d.thr, sensors := t.d.sensors }) ∧
    (sensorTimeout i = some lim → watched s.d i = true → x.last = some b → due s.d b lim = true → ∃ t, exec (.sensorTimeout id) s = .next t ∧ (sensor t.d i).failed = true
      ∧ ∀ j, j ≠ i → sensor t.d j = sensor s.d j) ∧
    (x.calm = some b → x.held = true → x.failed = false → due s.d b (ms 10000) = true → ∃ t, exec (.limitCleared id) s = .next t ∧ (sensor t.d i).held = false
      ∧ (∀ j, j ≠ i → sensor t.d j = sensor s.d j) ∧ t.d = { hostOf s.d t.d with sensors := t.d.sensors })

/-- R456, R457: the throttle. At a 100 µs boundary the hard request is 4 above 3,000 W and the short one rises above 2,800 W; at a 10 ms boundary the new cap applies, the long request rises above it and falls
below 95 % of it, and the thermal one counts the hot sensors; the level is the highest request; level 6 for 1 s with power still rising leads to SAFE. -/
def Sys2Proof.Claim.ThrottleFollows : Prop :=
  ∀ (s : State) (b : Nat), Awake s.d → (sensor s.d 3).failed = false →
    let h := s.d.thr
    let m := h.sum / (h.count : Int)
    let ms' := keepLast 100 h.means m
    let m10 := mean h.means
    let m1 := mean (keepLast 100 h.longMeans m10)
    let cap := h.capNext.getD h.cap
    let hot := (hotSensors s.d).length
    (0 < h.count → ∃ t, exec .throttleUpdate s = .next t ∧ t.d.thr.hard = (if m > 3000000 then 4 else 0)
      ∧ t.d.thr.short = (if mean ms' > 2800000 ∧ m > 2800000 then min 6 (h.short + 1) else h.short) ∧ t.d.thr.means = ms' ∧ t.d.thr.sum = 0 ∧ t.d.thr.count = 0
      ∧ t.d.throttle = max (max h.long t.d.thr.short) (max t.d.thr.hard h.thermal) ∧ t.d = { s.d with thr := t.d.thr, throttle := t.d.throttle }) ∧
    (∃ t, exec .throttleWindow s = .next t ∧ t.d.thr.cap = cap ∧ t.d.thr.capNext = none
      ∧ t.d.thr.long = (if m1 > 1000 * cap ∧ m10 > 1000 * cap then min 6 (h.long + 1) else if m10 < 950 * cap then h.long - 1 else h.long)
      ∧ t.d.thr.thermal = (if 0 < hot then min 6 (h.thermal + hot) else if allCool s.d then h.thermal - 1 else h.thermal)
      ∧ t.d.throttle = max (max t.d.thr.long t.d.thr.short) (max t.d.thr.hard t.d.thr.thermal)
      ∧ t.d = { hostOf s.d t.d with thr := t.d.thr, throttle := t.d.throttle, sensors := t.d.sensors }) ∧
    (h.sixSince = some b → due s.d b (ms 1000) = true →
      (h.powerRose = true → h.thermalRose = false → (sensor s.d 3).safe = false → s.d.dstate ∈ safeFrom → RowsWhole s.d → ∃ t, exec .throttleSafe s = .next t ∧ t.d.dstate = .safe) ∧
      (h.powerRose = false → h.thermalRose = false → exec .throttleSafe s = becomes s s.d))

/-- R466: PLDM reads a numeric or state sensor or says that it is unavailable, sets the power cap between 1,200 and 2,400 W once BOOT has ended, and reads the FRU records. -/
def Sys2Proof.Claim.PldmAnswers : Prop :=
  ∀ (s : State) (id watts : Nat), Calm s.d → s.d.power.standby = true →
    let answer (d : Dev) (bs : List Byte) : Dev := { d with out := s.d.out ++ [.mgmt 1 bs] }
    (1 ≤ id → id ≤ 35 → ∀ v, sensorValue s.d id = some v → exec (.pldmGetSensor id) s = becomes s (answer s.d (0 :: v))) ∧
    (1 ≤ id → id ≤ 35 → sensorValue s.d id = none → exec (.pldmGetSensor id) s = becomes s (answer s.d [0, 4])) ∧
    (id = 0 ∨ 35 < id → exec (.pldmGetSensor id) s = becomes s (answer s.d [1])) ∧
    (s.d.dstate ∉ [.off, .boot] → 1200 ≤ watts → watts ≤ 2400 → exec (.pldmSetEffecter watts) s = becomes s
      (answer { s.d with thr := { s.d.thr with capNext := some watts } } [0])) ∧
    (s.d.dstate ∈ [.off, .boot] ∨ watts < 1200 ∨ 2400 < watts → exec (.pldmSetEffecter watts) s = becomes s (answer s.d [1])) ∧
    (∃ bs, exec .pldmFruRead s = becomes s (answer s.d ([0, 0x24, 0x30] ++ leBytes 1 s.d.fuses.grade ++ [0xB0] ++ leBytes 8 s.d.fuses.serial.toNat ++ bs)))

/-- R467: one writer holds the inactive image slot. A PLDM update takes it, writes it, activates it in CONFIG where it verifies, or gives it up; 60 s without a write release it. -/
def Sys2Proof.Claim.SlotHolders : Prop :=
  ∀ (s : State) (ofs : Nat) (bs : List Byte) (chk : ImgCheck) (h : Holder) (b : Nat), Calm s.d → s.d.power.standby = true → s.d.dstate ∉ [.off, .boot] →
    let answer (d : Dev) (bs : List Byte) : Dev := { d with out := s.d.out ++ [.mgmt 1 bs] }
    let i := inactiveB s.d
    let e := Mem.write (imgSlot s.d i).bytes ofs bs
    (s.d.holder = none ∨ s.d.holder = some (.pldm, b) → exec .pldmRequestUpdate s = becomes s (answer { s.d with holder := some (.pldm, s.d.eclk) } [0])) ∧
    (∀ m, s.d.holder = some (.mailbox m, b) → exec .pldmRequestUpdate s = becomes s (answer s.d [1]) ∧ exec (.pldmFirmwareData ofs bs) s = becomes s s.d
      ∧ exec .pldmCancelUpdate s = becomes s (answer s.d [1]) ∧ exec (.pldmActivate chk) s = becomes s (answer s.d [1])) ∧
    (s.d.holder = some (.pldm, b) →
      exec (.pldmFirmwareData ofs bs) s = becomes s { s.d with
        slotA := if i then s.d.slotA else { bytes := e }
        slotB := if i then { bytes := e } else s.d.slotB
        holder := some (.pldm, s.d.eclk) }
      ∧ exec .pldmCancelUpdate s = becomes s (answer { s.d with holder := none } [0])
      ∧ (s.d.dstate = .config → verifies s.d (imgSlot s.d i) chk = true → ∃ t, exec (.pldmActivate chk) s = .next t ∧ t.d.holder = none
          ∧ (imgSlot t.d i).bytes = (imgSlot s.d i).bytes ∧ (imgSlot t.d i).commit ≠ none ∧ imgSlot t.d (!i) = imgSlot s.d (!i) ∧ t.d.out = s.d.out ++ [.mgmt 1 [0]])
      ∧ (s.d.dstate ≠ .config ∨ verifies s.d (imgSlot s.d i) chk = false → exec (.pldmActivate chk) s = becomes s (answer s.d [1]))) ∧
    (s.d.holder = some (h, b) → due s.d b (ms 60000) = true → exec .imgSlotHoldTimeout s = becomes s { s.d with holder := none })

/-- R465: the I3C address and the endpoint ID; an MCTP packet with a bad PEC, of an unknown type, or that continues no message is discarded and counted; the last packet of a message has it answered, and
one that is not complete within 100 ms is discarded and counted. -/
def Sys2Proof.Claim.MctpReassembles : Prop :=
  ∀ (s : State) (a : BitVec 7) (eid : Byte) (pkt : MctpPkt) (x : Asm), Calm s.d → s.d.power.standby = true →
    let g := s.d.mgmt
    let with' (g : Mgmt) : Dev := { s.d with mgmt := g }
    (exec (.i3cEntdaa a) s = becomes s (with' { g with i3cAddr := some a.toNat })) ∧
    (exec (.mctpSetEndpointId eid) s = becomes s { with' { g with eid := eid.toNat } with out := s.d.out ++ [.mgmt 0 [0]] }) ∧
    (pkt.pecOk = false ∨ (pkt.som = true ∧ pkt.kind ∉ [0, 1, 5, 6]) ∨ (pkt.som = false ∧ g.asm = none) → exec (.mctpPacket pkt) s = becomes s
      (with' { g with mctpDrop := g.mctpDrop + 1 })) ∧
    (pkt.pecOk = true → pkt.som = true → pkt.kind ∈ [0, 1, 5, 6] → g.asm = none → pkt.bytes.length ≤ 4096 →
      (pkt.eom = false → exec (.mctpPacket pkt) s = becomes s (with' { g with asm := some ⟨pkt.kind, pkt.tag, pkt.bytes, s.d.eclk⟩ })) ∧
      (pkt.eom = true → pkt.kind ∈ [0, 1] → exec (.mctpPacket pkt) s = becomes s { s.d with
        fresh := s.d.fresh + 1
        out := s.d.out ++ [.mgmt pkt.kind (Config.pldmResponse s.d.fresh pkt.bytes)] }) ∧
      (pkt.eom = true → pkt.kind ∈ [5, 6] → s.d.dstate ≠ .off → exec (.mctpPacket pkt) s = becomes s { s.d with
        fresh := s.d.fresh + 1
        out := s.d.out ++ [.mgmt 5 (if pkt.kind = 6 then Config.spdmResponse s.d.fresh pkt.bytes
          else if spdmSupported (spdmCode pkt.bytes) then Config.spdmResponse s.d.fresh (spdmInput s.d pkt.bytes)
          else spdmUnsupported (spdmCode pkt.bytes))] })) ∧
    (pkt.pecOk = true → pkt.som = false → pkt.eom = false → g.asm = some x → x.tag = pkt.tag → x.bytes.length + pkt.bytes.length ≤ 4096 →
      exec (.mctpPacket pkt) s = becomes s (with' { g with asm := some { x with bytes := x.bytes ++ pkt.bytes } })) ∧
    (g.asm = some x → due s.d x.since (ms 100) = true → exec .mctpReassemblyTimeout s = becomes s (with' { g with asm := none, mctpDrop := g.mctpDrop + 1 }))

/-- R468: the management Ethernet port tries 10GBASE-R and 1000BASE-X in turn until one locks; a lost lock starts over; of the frames on an up link ARP requests for its address are answered, DHCPv4 gives the
address, and all but PTP else are discarded and counted. -/
def Sys2Proof.Claim.EthernetSeeks : Prop :=
  ∀ (s : State) (slow : Bool) (ip : Word) (bs : List Byte), Awake s.d →
    let g := s.d.mgmt
    let with' (g : Mgmt) : Dev := { s.d with mgmt := g }
    (g.ethUp = false → g.ethSlow = slow → exec (.ethLinkLock slow) s = becomes s (with' { g with ethUp := true, ethSince := s.d.eclk })) ∧
    (g.ethUp = false → due s.d g.ethSince (ms 500) = true → exec .ethSeekTimeout s = becomes s (with' { g with ethSlow := !g.ethSlow, ethSince := s.d.eclk })) ∧
    (g.ethUp = true →
      exec .ethLockLoss s = becomes s (with' { g with ethUp := false, ethSlow := false, ethSince := s.d.eclk })
      ∧ (∀ f ∈ [Frame.badFcs, Frame.pause, Frame.other], exec (.ethFrame f) s = becomes s (with' { g with ethDrop := g.ethDrop + 1 }))
      ∧ exec (.ethFrame (.ptp bs)) s = becomes s s.d
      ∧ exec (.ethFrame (.dhcp ip)) s = becomes s (with' { g with ip := some ip })
      ∧ (g.ip = some ip → exec (.ethFrame (.arp ip)) s = becomes s { s.d with out := s.d.out ++ [.mgmt 0x100 (leBytes 6 s.d.fuses.mac.toNat ++ leBytes 4 ip.toNat)] }))

/-! ### Every command -/

namespace Sys2Proof.Machine

/-- The engine pair whose unit a command is of (R2, R5). -/
def pairOf (c : Instr) : Option Eng :=
  match c with
  | .seqStart e _ | .seqAbort e _ | .sliceTakeUp e | .sliceIssue e | .weightLoad e | .promotion e _ _ | .drain e _ | .checkCycle e
  | .sliceCompletion e | .haltDescriptor e | .veStart e _ | .veAbort e _ | .taskSeedWrite e _ | .nop e | .fadd e | .fsub e | .fmul e
  | .fma e | .fnma e | .fmin e | .fmax e | .fcmp e | .sel e | .mov e | .iadd e | .isub e | .imin e | .imax e | .icmp e | .cvt e | .qnt e
  | .itof e | .ftoi e | .ld e | .st e | .sts e | .gld e | .gst e | .glog e | .psum e | .sscan e | .rsum e | .rmin e | .rmax e | .exp2 e
  | .log2 e | .rcp e | .rsqrt e | .tanh e | .xclr e | .xadd e | .xrd e | .xst e | .xmrg e | .sset e | .sadd e | .sadd64 e | .smovv e
  | .xrds e | .gblk e | .loop e | .rctx e | .popq e | .pushq e | .group e | .halt e | .veGroupCompletion e => some e
  | .registerWrite r _ => match r with
    | .opeStatus e | .seqConfig e | .seqStatus e | .seqBeat0 e | .veConfig e | .veStatus e | .veBeat0 e => some e
    | _ => none
  | _ => none

/-- A command of the board, the standby island or the clock: it acts without the module's power (R440). -/
def onStandby (c : Instr) : Bool :=
  match c with
  | .beatBoundary | .vinInRange | .pwrEnRise | .railStepGood | .railFault _ | .railPowerLoss _ | .pwrEnFall | .inputLoss
  | .inputOvercurrent | .sensorTrip _ | .railOffStep | .modRst _ | .sensorSample _ _ | .sensorTimeout _ | .limitCleared _
  | .pldmSetEffecter _ | .pldmGetSensor _ | .pldmFruRead | .pldmRequestUpdate | .pldmActivate _ | .i3cEntdaa _ | .mctpPacket _
  | .mctpReassemblyTimeout | .emergencyLatchRelease | .mctpSetEndpointId _ | .pldmCancelUpdate | .pldmFirmwareData _ _ => true
  | _ => false

end Sys2Proof.Machine

/-- A step of the block takes the command at the front of the queue and runs it with the queue's rest; on an empty queue it idles (the model's choice, log 38). -/
def Obligations.StepTakesFront : Prop :=
  ∀ (c : Instr) (rest : List Instr) (d : Dev),
    step { pending := c :: rest, d := d } = exec c { pending := rest, d := d } ∧ step { pending := [], d := d } = .next { pending := [], d := d }

/-- R470, R447: right after reset the module is in BOOT with its time unit in FREERUN, no kennel but kennel 0, no task and no mailbox; every port, M-die, queue, tree, litter and slot has
the reset values of its registers, every store reads zero, no page is mapped, and nothing waits. -/
def Sys2Proof.Claim.ResetState : Prop :=
  let d := State.reset.d
  State.reset.pending = [] ∧ d.dstate = .boot ∧ d.time.tstate = .freerun ∧ d.time.config = 0x228401F400000#64 ∧ d.time.origin = 0 ∧ d.throttle = 0 ∧ d.begun = []
    ∧ (∀ m, mbx d m = none) ∧ (∀ k, task d k = none) ∧ (∀ k, (kennel d k).st = if k = 0 then .live else .free)
    ∧ (∀ p, (port d p).st = .disabled ∧ (port d p).cfg = 0x3000000000000000#64 ∧ (port d p).kmask = 1) ∧ (∀ i, (mdie d i).cfg = 0x4000008000400#64)
    ∧ (∀ q, (hq d q).en = false) ∧ (∀ t, (tree d t).en = false) ∧ (∀ l, litEn (litter d l) = false) ∧ (∀ n i, (sslot d n i).act = none ∧ (sslot d n i).gen = 0)
    ∧ (∀ k a, Mem.byte (kmem d k) a = 0) ∧ (∀ k pg, (page d k pg).v = false) ∧ (∀ e a, Mem.byte (tile d e) a = 0)
    ∧ (∀ e, (pair d e).seq.run = false ∧ (pair d e).ve.run = false ∧ (pair d e).scalars = []) ∧ Calm d

/-- R6: a command of an engine pair that the presence map does not have has no side effect. Every command has an effect the spec gives, in every state and with every operand, and none
changes the queue of those that wait. -/
def Sys2Proof.Claim.EveryCommandRuns : Prop :=
  ∀ (c : Instr) (s : State),
    (∀ e, pairOf c = some e → present s.d e.val = false → exec c s = .next s) ∧ ∃ t, exec c s = .next t ∧ t.pending = s.pending

/-- R440: in OFF only the standby island answers; every other command leaves the module as it is. -/
def Sys2Proof.Claim.OffAnswersNothing : Prop :=
  ∀ (c : Instr) (s : State), s.d.dstate = .off → onStandby c = false → exec c s = .next s

/-- R394, R348: firmware acts on every report of a command before the next one: no step leaves a report, whatever the command and the state. -/
def Obligations.ReportsAnswered : Prop :=
  ∀ (s t : State), s.answered → step s = .next t → t.answered

/-- No report waits right after reset. -/
def Sys2Proof.Claim.ResetAnswered : Prop := State.reset.answered

/-- R211, R379: where nobody waits for a frame and no stream is in the middle of a row, no memory, table or task command of a kennel's mailbox
changes a byte of another kennel's memory. -/
def Obligations.KennelMemoryIsolated : Prop :=
  ∀ (i : Instr) (s t : State) (m : MbxId) (code : Nat) (complete : Bool) (f : Scp) (x : Mbx) (r : Req),
    scpOf i = some (m, code, complete, f) → 0x40 ≤ code → Served s m code x r → NobodyWaits s.d → RowsWhole s.d → exec i s = .next t →
    ∀ j, j ≠ x.kennel → kmem t.d j = kmem s.d j

/-- R227 to R231: a block of a page image decodes to the bytes that it was encoded from, whatever tokens the encoder chooses. -/
def Obligations.BlocksRoundTrip : Prop :=
  ∀ (et : Nat) (bs : List Byte), et < 4 → bs.length = 4096 → decodeBlock (encodeBlock et bs) = (.ok, bs)

/-- R13: a write of a unit register stores its RW fields, clears the W1C flags it writes ones to, and leaves everything else; a register without either ignores it. -/
def Sys2Proof.Claim.UnitRegisterWrites : Prop :=
  ∀ (s : State) (v : DWord) (e : Eng) (p : PortId) (q : QueueId) (m : MDieId), Awake s.d →
    let w (r : Reg) := exec (.registerWrite r v) s
    let rw (k old : DWord) : DWord := (old &&& ~~~k) ||| (v &&& k)
    (present s.d e.val = true →
      w (.opeStatus e) = becomes s (modPair s.d e.val (fun y => { y with ope := { y.ope with ovfFinal := y.ope.ovfFinal && !bit v 8, parityErr := y.ope.parityErr && !bit v 7 } }))
      ∧ w (.seqConfig e) = becomes s (modPair s.d e.val (fun y => { y with seq := { y.seq with cfg := rw (mask 64 55 52 ||| mask 64 35 0) y.seq.cfg } }))
      ∧ w (.seqStatus e) = becomes s (modPair s.d e.val (fun y => { y with seq := { y.seq with
          refused := y.seq.refused && !bit v 11, halted := y.seq.halted && !bit v 10, cfgErr := y.seq.cfgErr && !bit v 9 } }))
      ∧ w (.seqBeat0 e) = becomes s (modPair s.d e.val (fun y => { y with seq := { y.seq with beat0 := v } }))
      ∧ w (.veStatus e) = becomes s (modPair s.d e.val (fun y => { y with ve := { y.ve with
          refused := y.ve.refused && !bit v 11, halted := y.ve.halted && !bit v 10, cfgErr := y.ve.cfgErr && !bit v 9, xlimit := y.ve.xlimit && !bit v 8 } }))
      ∧ w (.veConfig e) = becomes s (modPair s.d e.val (fun y => { y with ve := { y.ve with cfg := rw veRw y.ve.cfg } }))
      ∧ w (.veBeat0 e) = becomes s (modPair s.d e.val (fun y => { y with ve := { y.ve with beat0 := v } }))) ∧
    (w (.hqStatus q) = becomes s (modHq s.d q.toNat (fun y => { y with fullSeen := y.fullSeen && !bit v 9, denied := y.denied && !bit v 8 }))) ∧
    (w (.portConfig p) = becomes s (modPort s.d p.toNat (fun y => { y with cfg := rw (mask 64 61 43) y.cfg }))) ∧
    (w (.portKennels p) = becomes s (modPort s.d p.toNat (fun y => { y with kmask := v ||| 1 }))) ∧
    (w (.portStatus p) = becomes s (modPort s.d p.toNat (fun y => { y with
      degraded := y.degraded && !bit v 35, rejected := y.rejected && !bit v 34, lateF := y.lateF && !bit v 33, retryF := y.retryF && !bit v 32 }))) ∧
    (fld v 15 0 < fld v 31 16 → fld v 31 16 * 4 ≤ frameTotal →
      w (.migConfig m) = becomes s (watermarkCheck (modMdie s.d m.toNat (fun y => { y with cfg := rw (mask 64 55 40 ||| mask 64 31 0) y.cfg })) m.toNat)) ∧
    (fld v 31 16 ≤ fld v 15 0 ∨ frameTotal < fld v 31 16 * 4 → w (.migConfig m) = becomes s s.d) ∧
    (w .timeStatus = becomes s { s.d with time := { s.d.time with
      stepped := s.d.time.stepped && !bit v 59, holdExpired := s.d.time.holdExpired && !bit v 58, inputRej := s.d.time.inputRej && !bit v 57 } }) ∧
    (w .readOnly = becomes s s.d)

/-- R427, R428: a host write of a BAR is the command of the register there; one of a size or alignment that R428 does not allow, or beyond the registers, is discarded with `WR_DROP`. -/
def Sys2Proof.Claim.BarWrites : Prop :=
  ∀ (s : State) (p : HostPort) (n : FnIx) (v : DWord) (m : MbxId) (ofs size : BitVec 18),
    let w (o z : BitVec 18) := exec (.registerWrite (.bar p n o z) v) s
    w 0x1000 8 = exec (.fnStatusWrite p n v) s ∧ w 0x1008 8 = exec (.fnIntCtrlWrite p n v) s ∧ w 0x2000 8 = exec (.attachDb p n v) s
    ∧ w (0x10000 + BitVec.ofNat 18 (8 * m.toNat)) 8 = exec (.mbxDb p n m v) s
    ∧ (FnThere s p n → ofs.toNat ∈ [0x0, 0x8, 0x10, 0x18, 0x1010, 0x1018, 0x1020] → w ofs 8 = becomes s s.d)
    ∧ (FnThere s p n → size ≠ 8 ∨ ofs.toNat % 8 ≠ 0 → ofs.toNat < 0x20000 → ∃ t, w ofs size = .next t ∧ (fn t.d p.val n.val).wrDrop = true
        ∧ (fn t.d p.val n.val).wrDropCnt = (fn s.d p.val n.val).wrDropCnt + 1 ∧ t.d = { s.d with fns := t.d.fns, out := t.d.out })

/-- R1, R5, R8, R13, R423, R427 to R430: what a host reads at the registers of a function that exists: part, grade, stepping and firmware release; the presence map; the serial
number; the module number with the port and the function; the status and its counters. Doorbells read zero, and so does an access of a size or alignment that R428 does not allow. -/
def Sys2Proof.Claim.BarReads : Prop :=
  ∀ (d : Dev) (p n ofs size : Nat), fnExists d p n = true → n ≤ 64 → attachedCount d p n ≤ 4096 →
    let f := fn d p n
    let at' (o : Nat) := barRead d p n o 8
    (fld (at' 0x0) 63 48 = 0x3024 ∧ fld (at' 0x0) 47 40 = (if d.fuses.presence = BitVec.allOnes 48 then 0x41 else 0x42) ∧ fld (at' 0x0) 39 32 = 0xB0
      ∧ (d.runningB = some true → fld (at' 0x0) 31 0 = Mem.readNat d.slotB.bytes 8 4)) ∧
    (∀ e < 48, bit (at' 0x8) e = bit d.fuses.presence e) ∧ at' 0x10 = d.fuses.serial ∧
    (d.epochOn = true → d.epochRun.moduleNo < 4096 → fld (at' 0x18) 25 14 = d.epochRun.moduleNo ∧ fld (at' 0x18) 7 7 = p ∧ fld (at' 0x18) 6 0 = n) ∧
    (fld (at' 0x1000) 63 60 = d.dstate.code ∧ bit (at' 0x1000) 2 = f.devChange ∧ bit (at' 0x1000) 1 = f.attachDone ∧ bit (at' 0x1000) 0 = f.wrDrop) ∧
    (at' 0x1008 = f.intCtrl ∧ at' 0x1010 = f.wrDropCnt.setWidth 64 ∧ at' 0x1018 = f.attachCnt.setWidth 64 ∧ at' 0x1020 = f.devChangeCnt.setWidth 64) ∧
    (at' 0x2000 = 0 ∧ ∀ m < 4096, at' (0x10000 + 8 * m) = 0) ∧
    (size ≠ 4 → size ≠ 8 → barRead d p n ofs size = 0) ∧ (ofs % 4 ≠ 0 → barRead d p n ofs size = 0) ∧
    ((pciConfig d n).vendor = 0x1F4C ∧ (pciConfig d n).device = (if n = 0 then 0x3024 else 0x3025) ∧ (pciConfig d n).barBytes = 2 ^ 18)

/-! ### The statements -/

/-- What the lane instructions of the VE write. -/
def Obligations.VeLaneArithmetic : Prop := Claim.VeBinaryLanes ∧ Claim.VeLaneResults

/-- What the guard, select, quantise and scalar instructions of the VE write. -/
def Obligations.VeGuardsAndScalars : Prop := Claim.VeGuardResults ∧ Claim.VeScalarResults

/-- Loads and stores of the VE in its operand cache. -/
def Obligations.VeMemoryAccess : Prop := Claim.VeLoads ∧ Claim.VeStores

/-- LOOP, POPQ, PUSHQ, GROUP, HALT and the completion of a group. -/
def Obligations.VeProgramRuns : Prop := Claim.VeProgramFlow ∧ Claim.VeGroupCompletes

/-- START, ABORT, TASK_SEED, and the refusal of a VE instruction. -/
def Obligations.VeStartsAndRefuses : Prop := Claim.VeControl ∧ Claim.VeRefusal

/-- START and ABORT of a sequencer, and the take-up of its descriptors. -/
def Obligations.SeqStartsAndTakesUp : Prop := Claim.SeqStartAndAbort ∧ Claim.SliceTakesUpLink ∧ Claim.SliceTakesUpWork ∧ Claim.SliceRefusal

/-- When a slice issues and what the engine holds then. -/
def Obligations.SliceIssue : Prop := Claim.SliceIssues ∧ Claim.IssueKeepsBounds

/-- Weight loads and promotion windows. -/
def Obligations.WeightsLoadAndPromote : Prop := Claim.WeightTileLoads ∧ Claim.WindowPromotes

/-- What a drain writes, and the completion of slices and HALT. -/
def Obligations.DrainAndCompletion : Prop := Claim.DrainWrites ∧ Claim.SliceCompletes ∧ Claim.HaltCompletes

/-- Pops of a handle queue. -/
def Obligations.QueuePops : Prop := Claim.QueuePopTakes ∧ Claim.QueuePopDenied

/-- Pushes into a handle queue and the arrival of biscuits. -/
def Obligations.QueuePushes : Prop := Claim.QueuePushStores ∧ Claim.BiscuitArrives

/-- How a stream slot begins: shadow, pops and staging. -/
def Obligations.SlotsPopAndStage : Prop := Claim.ShadowMoves ∧ Claim.RepetitionPopsRequested ∧ Claim.RepetitionReadsStage

/-- Reads and writes of a stream slot at the home M-die. -/
def Obligations.MemoryServes : Prop := Claim.MemoryReadServes ∧ Claim.MemoryWriteApplies ∧ Claim.MemoryWriteDenied

/-- The end of a repetition, and leashes. -/
def Obligations.RepetitionsEnd : Prop := Claim.RepetitionCompletes ∧ Claim.LeashFires

/-- Runahead prefetch and watch entries. -/
def Obligations.RunaheadAndWatches : Prop := Claim.RunaheadFetches ∧ Claim.WatchGranted

/-- Migrations, waits for a frame, and tensor hints. -/
def Obligations.MigrationsAndHints : Prop := Claim.MigrationsMovePages ∧ Claim.FrameWaitEnds ∧ Claim.HintsUpdate

/-- Bring-up of a Zholin port. -/
def Obligations.PortsComeUp : Prop := Claim.PortBringUp ∧ Claim.QualifyingEnds ∧ Claim.PcsLossRetrains

/-- Flit slots, acknowledgement timeouts and windows of a link. -/
def Obligations.LinkSlotsAndTimers : Prop := Claim.LinkTimers ∧ Claim.FlitSlotSends

/-- What the link layer discards and admits. -/
def Obligations.LinkReceives : Prop := Claim.LinkDiscards ∧ Claim.LinkAdmits

/-- Credits that IDLE and TCRED return. -/
def Obligations.CreditsReturn : Prop := Claim.IdleReturnsCredits ∧ Claim.TreeCreditsArrive

/-- Contributions to a reduction tree. -/
def Obligations.ReductionsCombine : Prop := Claim.RedOpensEntry ∧ Claim.RedXEscapes ∧ Claim.LocalContributionJoins ∧ Claim.EntryLeashExpires

/-- Multicast flits and peer reads. -/
def Obligations.McastAndPeerReads : Prop := Claim.McastForwards ∧ Claim.PeerReadsRoute ∧ Claim.PeerReadsDeliver

/-- Link keys: loading, switching and erasing. -/
def Obligations.LinkKeysMove : Prop := Claim.LinkKeysSwitch ∧ Claim.LinkKeysLoad

/-- What an accepted recovery message does, and the parity stripes from which a member is rebuilt. -/
def Obligations.RecoveryMessages : Prop := Claim.RcvRecords ∧ Claim.RcvMoves ∧ Claim.GoStartsReplay ∧ Claim.ParityStripes

/-- Update reports and freeze entries, and the default ranges of segments. -/
def Obligations.UpdatesAndFreezes : Prop := Claim.UpdateReports ∧ Claim.FreezeApply ∧ Claim.DefaultRangesTile

/-- Inputs of the time unit: PTP, 1PPS and barks. -/
def Obligations.TimeInputs : Prop := Claim.PtpInputs ∧ Claim.PpsInputs ∧ Claim.BarksHeard

/-- Timeouts and outputs of the time unit. -/
def Obligations.TimeTimers : Prop := Claim.TimeTimeouts ∧ Claim.TimeOutputs

/-- The beat boundary. -/
def Obligations.BeatBoundaries : Prop := Claim.BeatBoundaryAdvances ∧ Claim.BoundaryIsBeat

/-- Checks of a mailbox command: a refusal has no other effect. -/
def Obligations.CommandsChecked : Prop := Claim.RefusedHasNoEffect ∧ Claim.OutOfTurnWaits ∧ Claim.StateRefuses

/-- Queries: NOP, DEV_INFO, DEV_STATE, READ_UNIT, EVENT_MASK, TIME_GET, CFG_GET, TASK_STATUS. -/
def Obligations.QueriesAnswer : Prop := Claim.DeviceQueries ∧ Claim.UnitAndItemReads ∧ Claim.TaskStatusAndStandby

/-- Commands that move the device state, detach and reset. -/
def Obligations.DeviceStates : Prop := Claim.DeviceStatesMove ∧ Claim.SafeEndsTasks ∧ Claim.DetachAndReset

/-- Configuration epochs and boot images. -/
def Obligations.ConfigurationChanges : Prop := Claim.ConfigStaged ∧ Claim.ConfigCommits ∧ Claim.ImagesUpdate

/-- Creation, quota and destruction of kennels, and clearing of units. -/
def Obligations.KennelsLive : Prop := Claim.KennelsCreated ∧ Claim.KennelsDestroyed

/-- MAP, UNMAP, MEM_WRITE, MEM_READ and MIGRATE. -/
def Obligations.MemoryCommandsAct : Prop := Claim.PagesMap ∧ Claim.MemoryCommands ∧ Claim.MigrateAsks

/-- Queue, litter, tree, scalar and slot commands. -/
def Obligations.TablesAndSlots : Prop := Claim.QueueCommands ∧ Claim.TableCommands ∧ Claim.SlotCommands

/-- Task commands, batches, schedule rows and freeze entries. -/
def Obligations.TaskCommandsAct : Prop := Claim.TasksCreated ∧ Claim.TasksMove ∧ Claim.BatchesAndRows

/-- Attaching a mailbox. -/
def Obligations.AttachingAnswers : Prop := Claim.AttachDoorbell ∧ Claim.AttachAnswers ∧ Claim.AttachChecks

/-- Doorbells and the beginning of requests. -/
def Obligations.MailboxRequests : Prop := Claim.MailboxDoorbell ∧ Claim.RequestsBegin ∧ Claim.FirstChecksOrder

/-- Functions of a host port: ends, training, registers and interrupts. -/
def Obligations.FunctionsAndPorts : Prop := Claim.FunctionsEnd ∧ Claim.PortsTrain ∧ Claim.FunctionRegisters

/-- Rails, power-downs and emergencies. -/
def Obligations.PowerSequences : Prop := Claim.RailsRise ∧ Claim.RailsFall ∧ Claim.EmergenciesLatch

/-- FAULTED, module reset and BOOT. -/
def Obligations.ResetAndBoot : Prop := Claim.FaultsEndTasks ∧ Claim.ModuleResets ∧ Claim.BootEnds

/-- Sensors, limits and the throttle. -/
def Obligations.SensorsAndThrottle : Prop := Claim.SensorsJudge ∧ Claim.ThrottleFollows

/-- PLDM, MCTP and the management Ethernet port. -/
def Obligations.ManagementAnswers : Prop := Claim.PldmAnswers ∧ Claim.SlotHolders ∧ Claim.MctpReassembles ∧ Claim.EthernetSeeks

/-- The machine right after reset. -/
def Obligations.ResetHolds : Prop := Claim.ResetState ∧ Claim.ResetAnswered

/-- Every command has an effect, and in OFF only the standby island answers. -/
def Obligations.CommandsRunAndOffIsSilent : Prop := Claim.EveryCommandRuns ∧ Claim.OffAnswersNothing

/-- Register writes: RW stores, W1C clears, RO ignores; and what a host reads. -/
def Obligations.RegistersTakeWrites : Prop := Claim.UnitRegisterWrites ∧ Claim.BarWrites ∧ Claim.BarReads
end

