-- ==== Sys2Proof/Laws/Tbl.lean ====
section
/-! SUPPORT. Laws of sparse tables and of byte memory: read after write, and that every operation keeps the canonical form. A table is
taken apart at the place of a number: what stands before it, and what comes after. -/

namespace Sys2Proof.Machine

section

variable {α : Type} (d : α) (t : Tbl α) (k j : Nat) (v w : α)

/-- Entries that stand before the place of number k. -/
def Tbl.below : Tbl α := t.takeWhile (fun p => p.1 ≤ k)
/-- Entries that stand after it. -/
def Tbl.above : Tbl α := t.dropWhile (fun p => p.1 ≤ k)

theorem Tbl.below_above : t.below k ++ t.above k = t := List.takeWhile_append_dropWhile

/-- An entry goes between what stands before its place and what comes after. -/
theorem Tbl.insert_place : Tbl.insert t k v = t.below k ++ (k, v) :: t.above k := by
  induction t with
  | nil => rfl
  | cons p r ih => by_cases h : k < p.1 <;> simp_all [Tbl.insert, Tbl.below, Tbl.above, Nat.not_le_of_lt]

/-- A read looks for the first entry of its number. -/
theorem Tbl.get_find : Tbl.get d t k = ((t.find? (·.1 == k)).map (·.2)).getD d := by
  induction t with
  | nil => rfl
  | cons p r ih => by_cases h : p.1 = k <;> simp_all [Tbl.get]

/-- No entry of a number is left where it has been removed, and every other is. -/
theorem Tbl.find_erase : (Tbl.erase t k).find? (·.1 == j) = if j = k then none else t.find? (·.1 == j) := by
  rw [Tbl.erase, List.find?_filter]
  split <;> rename_i h
  · simp [h]
  · congr 1
    funext p
    by_cases e : p.1 = j <;> simp [e, h]

theorem Tbl.find_insert (h : t.find? (·.1 == k) = none) :
    (Tbl.insert t k v).find? (·.1 == j) = if j = k then some (k, v) else t.find? (·.1 == j) := by
  have split_at (q : Nat × α → Bool) : t.find? q = ((t.below k).find? q).or ((t.above k).find? q) := by
    rw [← List.find?_append, Tbl.below_above]
  rw [Tbl.insert_place, List.find?_append, List.find?_cons, split_at]
  by_cases e : j = k
  · rw [split_at, Option.or_eq_none_iff] at h
    simp [e, h.1]
  · simp [e, beq_eq_false_iff_ne.mpr (Ne.symm e)]

variable [DecidableEq α]

/-- What every entry reads as after a write. -/
theorem Tbl.get_set : Tbl.get d (Tbl.set d t k v) j = if j = k then v else Tbl.get d t j := by
  have none_left : (Tbl.erase t k).find? (·.1 == k) = none := by simp [Tbl.find_erase]
  simp only [Tbl.get_find, Tbl.set]
  by_cases hv : v = d <;> by_cases hj : j = k <;> simp [hv, hj, Tbl.find_erase, Tbl.find_insert _ _ _ _ none_left]

/-- A read of the entry just written gives what was written. -/
@[simp] theorem Tbl.get_set_self : Tbl.get d (Tbl.set d t k v) k = v := by simp [Tbl.get_set]

/-- A write leaves every other entry alone. -/
theorem Tbl.get_set_other (h : j ≠ k) : Tbl.get d (Tbl.set d t k v) j = Tbl.get d t j := by simp [Tbl.get_set, h]

@[simp] theorem Tbl.get_modify_self (f : α → α) : Tbl.get d (Tbl.modify d t k f) k = f (Tbl.get d t k) := by simp [Tbl.modify]

theorem Tbl.get_modify_other (f : α → α) (h : j ≠ k) : Tbl.get d (Tbl.modify d t k f) j = Tbl.get d t j := by
  rw [Tbl.modify, Tbl.get_set_other _ _ _ _ _ h]

omit [DecidableEq α] in
theorem Tbl.erase_insert : Tbl.erase (Tbl.insert t k v) k = Tbl.erase t k := by
  rw [Tbl.insert_place, Tbl.erase, List.filter_append, List.filter_cons_of_neg (by simp), ← List.filter_append, Tbl.below_above, Tbl.erase]

/-- The second of two writes of one entry stands. -/
theorem Tbl.set_set : Tbl.set d (Tbl.set d t k v) k w = Tbl.set d t k w := by
  have once : Tbl.erase (Tbl.set d t k v) k = Tbl.erase t k := by
    have twice : Tbl.erase (Tbl.erase t k) k = Tbl.erase t k := by simp [Tbl.erase]
    unfold Tbl.set
    split <;> simp only [Tbl.erase_insert, twice]
  rw [Tbl.set, once, Tbl.set]

theorem Tbl.modify_modify (f g : α → α) : Tbl.modify d (Tbl.modify d t k f) k g = Tbl.modify d t k (fun x => g (f x)) := by
  simp only [Tbl.modify, Tbl.get_set_self, Tbl.set_set]

/-! ### The canonical form -/

variable {d t}

theorem Tbl.wf_filter (q : Nat × α → Bool) (h : Tbl.wf d t) : Tbl.wf d (t.filter q) :=
  ⟨h.1.sublist (List.filter_sublist.map _), fun _ m => h.2 _ (List.mem_of_mem_filter m)⟩

omit [DecidableEq α] in
/-- In a table in order, what comes after the place of a number is greater. -/
theorem Tbl.above_gt (h : (t.map (·.1)).Pairwise (· < ·)) (p : Nat × α) (m : p ∈ t.above k) : k < p.1 := by
  have rising : ((t.above k).map (·.1)).Pairwise (· < ·) := h.sublist ((List.dropWhile_sublist _).map _)
  match e : t.above k with
  | [] => simp [e] at m
  | q :: r =>
    have first : k < q.1 := by
      have ne : t.dropWhile (fun p => decide (p.1 ≤ k)) ≠ [] := by rw [← Tbl.above, e]; simp
      have stops := List.head_dropWhile_not (fun p : Nat × α => decide (p.1 ≤ k)) ne
      simp only [show t.dropWhile (fun p => decide (p.1 ≤ k)) = q :: r from e, List.head_cons] at stops
      simpa using stops
    rw [e, List.map_cons, List.pairwise_cons] at rising
    rcases List.mem_cons.mp (e ▸ m) with rfl | m
    · exact first
    · exact first.trans (rising.1 _ (List.mem_map_of_mem m))

theorem Tbl.wf_insert (hv : v ≠ d) (h : Tbl.wf d t) (new : ∀ p ∈ t, p.1 ≠ k) : Tbl.wf d (Tbl.insert t k v) := by
  have part (p : Nat × α) (m : p ∈ t.below k ∨ p ∈ t.above k) : p ∈ t := by rw [← Tbl.below_above t k]; simpa using m
  have le (p : Nat × α) (m : p ∈ t.below k) : p.1 < k := by
    have := List.mem_takeWhile_imp m
    have := new p (part p (.inl m))
    grind
  have gt := Tbl.above_gt k h.1
  refine ⟨?_, ?_⟩
  · have := h.1
    rw [← Tbl.below_above t k] at this
    rw [Tbl.insert_place]
    grind [List.pairwise_cons]
  · rw [Tbl.insert_place]
    have := h.2
    grind

/-- A write keeps the canonical form. -/
theorem Tbl.wf_set (h : Tbl.wf d t) : Tbl.wf d (Tbl.set d t k v) := by
  unfold Tbl.set
  split <;> rename_i hv
  · exact Tbl.wf_filter _ h
  · exact Tbl.wf_insert _ _ hv (Tbl.wf_filter _ h) (fun p m => by simpa using (List.mem_filter.mp m).2)

theorem Tbl.wf_modify (f : α → α) (h : Tbl.wf d t) : Tbl.wf d (Tbl.modify d t k f) := Tbl.wf_set _ _ h

end

/-! ### Byte memory -/

section

variable (m : Mem) (a c n : Nat) (b : Byte) (bs : List Byte)

variable {m} in
theorem Mem.wf_setByte (h : Mem.wf m) : Mem.wf (Mem.setByte m a b) := Tbl.wf_set _ _ h

variable {m} in
theorem Mem.wf_write (h : Mem.wf m) : Mem.wf (Mem.write m a bs) := by
  induction bs generalizing m a with
  | nil => exact h
  | cons _ _ ih => exact ih _ (Mem.wf_setByte _ _ h)

variable {m} in
theorem Mem.wf_zero (h : Mem.wf m) : Mem.wf (Mem.zero m a n) := Tbl.wf_filter _ h

/-- What every byte reads as after a store: those that it stores to, as it put them, and the others as before. -/
theorem Mem.byte_write : Mem.byte (Mem.write m a bs) c = if h : a ≤ c ∧ c - a < bs.length then bs[c - a]'h.2 else Mem.byte m c := by
  induction bs generalizing m a with
  | nil => simp [Mem.write]
  | cons b r ih =>
    have here : Mem.byte (Mem.setByte m a b) c = if c = a then b else Mem.byte m c := Tbl.get_set _ _ _ _ _
    rw [Mem.write, ih, here]
    rcases Nat.lt_trichotomy c a with e | rfl | e
    · simp [show ¬ (a + 1 ≤ c) by omega, show ¬ (a ≤ c) by omega, e.ne]
    · simp
    · obtain ⟨i, rfl⟩ : ∃ i, c = a + 1 + i := ⟨c - (a + 1), by omega⟩
      simp [show a + 1 + i - a = i + 1 by omega, show a ≤ a + 1 + i by omega, show a + 1 + i ≠ a by omega]

/-- A store changes no byte outside the ones it stores to. -/
theorem Mem.byte_write_outside (h : c < a ∨ a + bs.length ≤ c) : Mem.byte (Mem.write m a bs) c = Mem.byte m c := by
  rw [Mem.byte_write, dif_neg (by omega)]

/-- A store leaves each of its bytes where it put it. -/
theorem Mem.byte_write_inside (i : Nat) (h : i < bs.length) : Mem.byte (Mem.write m a bs) (a + i) = bs[i] := by
  simp [Mem.byte_write, h]

end

end Sys2Proof.Machine
end

