-- ==== Sys2Proof/Laws/State.lean ====
section
/-! SUPPORT. What each named update of the device leaves alone, field by field, and what a changed table holds, so that no proof unfolds
a record update. -/

namespace Sys2Proof.Machine

section Fields

variable (d : Dev) (i j : Nat) (o : Out) (r : Report) (owner : Option Task) (holder : Option Mbx) (entries : List AEntry) (bytes : Mem)
  (word : BitVec 128) (taken : List TakeUp) (kennels : Kennel → Kennel) (hosts : HPort → HPort) (fns : Fn → Fn) (ports : Port → Port)
  (trees : Tree → Tree) (pairs : Pair → Pair) (mdies : MDie → MDie) (pages : Page → Page) (queues : Hq → Hq) (engines : Se → Se)
  (clock : TimeUnit → TimeUnit) (rails : Power → Power) (sensors : Sensor → Sensor) (level : Throttle → Throttle)
  (mgmt : Mgmt → Mgmt) (tasks : Task → Task) (boxes : Mbx → Mbx)

/-! `out` -/
@[simp] theorem modKennel_out : (modKennel d i kennels).out = d.out := rfl
@[simp] theorem modTime_out : (modTime d clock).out = d.out := rfl
@[simp] theorem modFn_out : (modFn d i j fns).out = d.out := rfl
@[simp] theorem modTask_out : (modTask d i tasks).out = d.out := by unfold modTask; split <;> rfl
@[simp] theorem report_out : (report d r).out = d.out := rfl
@[simp] theorem modPair_out : (modPair d i pairs).out = d.out := rfl
@[simp] theorem modPower_out : (modPower d rails).out = d.out := rfl
@[simp] theorem modPort_out : (modPort d i ports).out = d.out := rfl
@[simp] theorem setTakeUps_out : (setTakeUps d i taken).out = d.out := rfl
@[simp] theorem modMbx_out : (modMbx d i boxes).out = d.out := by unfold modMbx; split <;> rfl
@[simp] theorem modThr_out : (modThr d level).out = d.out := rfl
@[simp] theorem setTask_out : (setTask d i owner).out = d.out := rfl
@[simp] theorem modTree_out : (modTree d i trees).out = d.out := rfl
@[simp] theorem modMgmt_out : (modMgmt d mgmt).out = d.out := rfl
@[simp] theorem setMbx_out : (setMbx d i holder).out = d.out := rfl
@[simp] theorem modHq_out : (modHq d i queues).out = d.out := rfl
@[simp] theorem modHport_out : (modHport d i hosts).out = d.out := rfl
@[simp] theorem setAdder_out : (setAdder d i entries).out = d.out := rfl
@[simp] theorem modMdie_out : (modMdie d i mdies).out = d.out := rfl
@[simp] theorem modPage_out : (modPage d i pages).out = d.out := rfl
@[simp] theorem setKmem_out : (setKmem d i bytes).out = d.out := rfl
@[simp] theorem modSe_out : (modSe d i engines).out = d.out := rfl
@[simp] theorem setLitter_out : (setLitter d i word).out = d.out := rfl
@[simp] theorem modSensor_out : (modSensor d i sensors).out = d.out := rfl

/-! `reports` -/
@[simp] theorem emit_reports : (emit d o).reports = d.reports := rfl
@[simp] theorem modKennel_reports : (modKennel d i kennels).reports = d.reports := rfl
@[simp] theorem modTime_reports : (modTime d clock).reports = d.reports := rfl
@[simp] theorem modFn_reports : (modFn d i j fns).reports = d.reports := rfl
@[simp] theorem modTask_reports : (modTask d i tasks).reports = d.reports := by unfold modTask; split <;> rfl
@[simp] theorem modPair_reports : (modPair d i pairs).reports = d.reports := rfl
@[simp] theorem modPower_reports : (modPower d rails).reports = d.reports := rfl
@[simp] theorem modPort_reports : (modPort d i ports).reports = d.reports := rfl
@[simp] theorem setTakeUps_reports : (setTakeUps d i taken).reports = d.reports := rfl
@[simp] theorem modMbx_reports : (modMbx d i boxes).reports = d.reports := by unfold modMbx; split <;> rfl
@[simp] theorem modThr_reports : (modThr d level).reports = d.reports := rfl
@[simp] theorem setTask_reports : (setTask d i owner).reports = d.reports := rfl
@[simp] theorem modTree_reports : (modTree d i trees).reports = d.reports := rfl
@[simp] theorem modMgmt_reports : (modMgmt d mgmt).reports = d.reports := rfl
@[simp] theorem setMbx_reports : (setMbx d i holder).reports = d.reports := rfl
@[simp] theorem modHq_reports : (modHq d i queues).reports = d.reports := rfl
@[simp] theorem modHport_reports : (modHport d i hosts).reports = d.reports := rfl
@[simp] theorem setAdder_reports : (setAdder d i entries).reports = d.reports := rfl
@[simp] theorem modMdie_reports : (modMdie d i mdies).reports = d.reports := rfl
@[simp] theorem modPage_reports : (modPage d i pages).reports = d.reports := rfl
@[simp] theorem setKmem_reports : (setKmem d i bytes).reports = d.reports := rfl
@[simp] theorem modSe_reports : (modSe d i engines).reports = d.reports := rfl
@[simp] theorem setLitter_reports : (setLitter d i word).reports = d.reports := rfl
@[simp] theorem modSensor_reports : (modSensor d i sensors).reports = d.reports := rfl

/-! `delivered` -/
@[simp] theorem emit_delivered : (emit d o).delivered = d.delivered := rfl
@[simp] theorem modKennel_delivered : (modKennel d i kennels).delivered = d.delivered := rfl
@[simp] theorem modTime_delivered : (modTime d clock).delivered = d.delivered := rfl
@[simp] theorem modFn_delivered : (modFn d i j fns).delivered = d.delivered := rfl
@[simp] theorem modTask_delivered : (modTask d i tasks).delivered = d.delivered := by unfold modTask; split <;> rfl
@[simp] theorem report_delivered : (report d r).delivered = d.delivered := rfl
@[simp] theorem modPair_delivered : (modPair d i pairs).delivered = d.delivered := rfl
@[simp] theorem modPower_delivered : (modPower d rails).delivered = d.delivered := rfl
@[simp] theorem modPort_delivered : (modPort d i ports).delivered = d.delivered := rfl
@[simp] theorem setTakeUps_delivered : (setTakeUps d i taken).delivered = d.delivered := rfl
@[simp] theorem modMbx_delivered : (modMbx d i boxes).delivered = d.delivered := by unfold modMbx; split <;> rfl
@[simp] theorem modThr_delivered : (modThr d level).delivered = d.delivered := rfl
@[simp] theorem setTask_delivered : (setTask d i owner).delivered = d.delivered := rfl
@[simp] theorem modTree_delivered : (modTree d i trees).delivered = d.delivered := rfl
@[simp] theorem modMgmt_delivered : (modMgmt d mgmt).delivered = d.delivered := rfl
@[simp] theorem setMbx_delivered : (setMbx d i holder).delivered = d.delivered := rfl
@[simp] theorem modHq_delivered : (modHq d i queues).delivered = d.delivered := rfl
@[simp] theorem modHport_delivered : (modHport d i hosts).delivered = d.delivered := rfl
@[simp] theorem setAdder_delivered : (setAdder d i entries).delivered = d.delivered := rfl
@[simp] theorem modMdie_delivered : (modMdie d i mdies).delivered = d.delivered := rfl
@[simp] theorem modPage_delivered : (modPage d i pages).delivered = d.delivered := rfl
@[simp] theorem setKmem_delivered : (setKmem d i bytes).delivered = d.delivered := rfl
@[simp] theorem modSe_delivered : (modSe d i engines).delivered = d.delivered := rfl
@[simp] theorem setLitter_delivered : (setLitter d i word).delivered = d.delivered := rfl
@[simp] theorem modSensor_delivered : (modSensor d i sensors).delivered = d.delivered := rfl

/-! `fresh` -/
@[simp] theorem emit_fresh : (emit d o).fresh = d.fresh := rfl
@[simp] theorem modKennel_fresh : (modKennel d i kennels).fresh = d.fresh := rfl
@[simp] theorem modTime_fresh : (modTime d clock).fresh = d.fresh := rfl
@[simp] theorem modFn_fresh : (modFn d i j fns).fresh = d.fresh := rfl
@[simp] theorem modTask_fresh : (modTask d i tasks).fresh = d.fresh := by unfold modTask; split <;> rfl
@[simp] theorem report_fresh : (report d r).fresh = d.fresh := rfl
@[simp] theorem modPair_fresh : (modPair d i pairs).fresh = d.fresh := rfl
@[simp] theorem modPower_fresh : (modPower d rails).fresh = d.fresh := rfl
@[simp] theorem modPort_fresh : (modPort d i ports).fresh = d.fresh := rfl
@[simp] theorem setTakeUps_fresh : (setTakeUps d i taken).fresh = d.fresh := rfl
@[simp] theorem modMbx_fresh : (modMbx d i boxes).fresh = d.fresh := by unfold modMbx; split <;> rfl
@[simp] theorem modThr_fresh : (modThr d level).fresh = d.fresh := rfl
@[simp] theorem setTask_fresh : (setTask d i owner).fresh = d.fresh := rfl
@[simp] theorem modTree_fresh : (modTree d i trees).fresh = d.fresh := rfl
@[simp] theorem modMgmt_fresh : (modMgmt d mgmt).fresh = d.fresh := rfl
@[simp] theorem setMbx_fresh : (setMbx d i holder).fresh = d.fresh := rfl
@[simp] theorem modHq_fresh : (modHq d i queues).fresh = d.fresh := rfl
@[simp] theorem modHport_fresh : (modHport d i hosts).fresh = d.fresh := rfl
@[simp] theorem setAdder_fresh : (setAdder d i entries).fresh = d.fresh := rfl
@[simp] theorem modMdie_fresh : (modMdie d i mdies).fresh = d.fresh := rfl
@[simp] theorem modPage_fresh : (modPage d i pages).fresh = d.fresh := rfl
@[simp] theorem setKmem_fresh : (setKmem d i bytes).fresh = d.fresh := rfl
@[simp] theorem modSe_fresh : (modSe d i engines).fresh = d.fresh := rfl
@[simp] theorem setLitter_fresh : (setLitter d i word).fresh = d.fresh := rfl
@[simp] theorem modSensor_fresh : (modSensor d i sensors).fresh = d.fresh := rfl

/-! `eclk` -/
@[simp] theorem emit_eclk : (emit d o).eclk = d.eclk := rfl
@[simp] theorem modKennel_eclk : (modKennel d i kennels).eclk = d.eclk := rfl
@[simp] theorem modTime_eclk : (modTime d clock).eclk = d.eclk := rfl
@[simp] theorem modFn_eclk : (modFn d i j fns).eclk = d.eclk := rfl
@[simp] theorem modTask_eclk : (modTask d i tasks).eclk = d.eclk := by unfold modTask; split <;> rfl
@[simp] theorem report_eclk : (report d r).eclk = d.eclk := rfl
@[simp] theorem modPair_eclk : (modPair d i pairs).eclk = d.eclk := rfl
@[simp] theorem modPower_eclk : (modPower d rails).eclk = d.eclk := rfl
@[simp] theorem modPort_eclk : (modPort d i ports).eclk = d.eclk := rfl
@[simp] theorem setTakeUps_eclk : (setTakeUps d i taken).eclk = d.eclk := rfl
@[simp] theorem modMbx_eclk : (modMbx d i boxes).eclk = d.eclk := by unfold modMbx; split <;> rfl
@[simp] theorem modThr_eclk : (modThr d level).eclk = d.eclk := rfl
@[simp] theorem setTask_eclk : (setTask d i owner).eclk = d.eclk := rfl
@[simp] theorem modTree_eclk : (modTree d i trees).eclk = d.eclk := rfl
@[simp] theorem modMgmt_eclk : (modMgmt d mgmt).eclk = d.eclk := rfl
@[simp] theorem setMbx_eclk : (setMbx d i holder).eclk = d.eclk := rfl
@[simp] theorem modHq_eclk : (modHq d i queues).eclk = d.eclk := rfl
@[simp] theorem modHport_eclk : (modHport d i hosts).eclk = d.eclk := rfl
@[simp] theorem setAdder_eclk : (setAdder d i entries).eclk = d.eclk := rfl
@[simp] theorem modMdie_eclk : (modMdie d i mdies).eclk = d.eclk := rfl
@[simp] theorem modPage_eclk : (modPage d i pages).eclk = d.eclk := rfl
@[simp] theorem setKmem_eclk : (setKmem d i bytes).eclk = d.eclk := rfl
@[simp] theorem modSe_eclk : (modSe d i engines).eclk = d.eclk := rfl
@[simp] theorem setLitter_eclk : (setLitter d i word).eclk = d.eclk := rfl
@[simp] theorem modSensor_eclk : (modSensor d i sensors).eclk = d.eclk := rfl

/-! `dstate` -/
@[simp] theorem emit_dstate : (emit d o).dstate = d.dstate := rfl
@[simp] theorem modKennel_dstate : (modKennel d i kennels).dstate = d.dstate := rfl
@[simp] theorem modTime_dstate : (modTime d clock).dstate = d.dstate := rfl
@[simp] theorem modFn_dstate : (modFn d i j fns).dstate = d.dstate := rfl
@[simp] theorem modTask_dstate : (modTask d i tasks).dstate = d.dstate := by unfold modTask; split <;> rfl
@[simp] theorem report_dstate : (report d r).dstate = d.dstate := rfl
@[simp] theorem modPair_dstate : (modPair d i pairs).dstate = d.dstate := rfl
@[simp] theorem modPower_dstate : (modPower d rails).dstate = d.dstate := rfl
@[simp] theorem modPort_dstate : (modPort d i ports).dstate = d.dstate := rfl
@[simp] theorem setTakeUps_dstate : (setTakeUps d i taken).dstate = d.dstate := rfl
@[simp] theorem modMbx_dstate : (modMbx d i boxes).dstate = d.dstate := by unfold modMbx; split <;> rfl
@[simp] theorem modThr_dstate : (modThr d level).dstate = d.dstate := rfl
@[simp] theorem setTask_dstate : (setTask d i owner).dstate = d.dstate := rfl
@[simp] theorem modTree_dstate : (modTree d i trees).dstate = d.dstate := rfl
@[simp] theorem modMgmt_dstate : (modMgmt d mgmt).dstate = d.dstate := rfl
@[simp] theorem setMbx_dstate : (setMbx d i holder).dstate = d.dstate := rfl
@[simp] theorem modHq_dstate : (modHq d i queues).dstate = d.dstate := rfl
@[simp] theorem modHport_dstate : (modHport d i hosts).dstate = d.dstate := rfl
@[simp] theorem setAdder_dstate : (setAdder d i entries).dstate = d.dstate := rfl
@[simp] theorem modMdie_dstate : (modMdie d i mdies).dstate = d.dstate := rfl
@[simp] theorem modPage_dstate : (modPage d i pages).dstate = d.dstate := rfl
@[simp] theorem setKmem_dstate : (setKmem d i bytes).dstate = d.dstate := rfl
@[simp] theorem modSe_dstate : (modSe d i engines).dstate = d.dstate := rfl
@[simp] theorem setLitter_dstate : (setLitter d i word).dstate = d.dstate := rfl
@[simp] theorem modSensor_dstate : (modSensor d i sensors).dstate = d.dstate := rfl

/-! `time` -/
@[simp] theorem emit_time : (emit d o).time = d.time := rfl
@[simp] theorem modKennel_time : (modKennel d i kennels).time = d.time := rfl
@[simp] theorem modFn_time : (modFn d i j fns).time = d.time := rfl
@[simp] theorem modTask_time : (modTask d i tasks).time = d.time := by unfold modTask; split <;> rfl
@[simp] theorem report_time : (report d r).time = d.time := rfl
@[simp] theorem modPair_time : (modPair d i pairs).time = d.time := rfl
@[simp] theorem modPower_time : (modPower d rails).time = d.time := rfl
@[simp] theorem modPort_time : (modPort d i ports).time = d.time := rfl
@[simp] theorem setTakeUps_time : (setTakeUps d i taken).time = d.time := rfl
@[simp] theorem modMbx_time : (modMbx d i boxes).time = d.time := by unfold modMbx; split <;> rfl
@[simp] theorem modThr_time : (modThr d level).time = d.time := rfl
@[simp] theorem setTask_time : (setTask d i owner).time = d.time := rfl
@[simp] theorem modTree_time : (modTree d i trees).time = d.time := rfl
@[simp] theorem modMgmt_time : (modMgmt d mgmt).time = d.time := rfl
@[simp] theorem setMbx_time : (setMbx d i holder).time = d.time := rfl
@[simp] theorem modHq_time : (modHq d i queues).time = d.time := rfl
@[simp] theorem modHport_time : (modHport d i hosts).time = d.time := rfl
@[simp] theorem setAdder_time : (setAdder d i entries).time = d.time := rfl
@[simp] theorem modMdie_time : (modMdie d i mdies).time = d.time := rfl
@[simp] theorem modPage_time : (modPage d i pages).time = d.time := rfl
@[simp] theorem setKmem_time : (setKmem d i bytes).time = d.time := rfl
@[simp] theorem modSe_time : (modSe d i engines).time = d.time := rfl
@[simp] theorem setLitter_time : (setLitter d i word).time = d.time := rfl
@[simp] theorem modSensor_time : (modSensor d i sensors).time = d.time := rfl

/-! `fns` -/
@[simp] theorem emit_fns : (emit d o).fns = d.fns := rfl
@[simp] theorem modKennel_fns : (modKennel d i kennels).fns = d.fns := rfl
@[simp] theorem modTime_fns : (modTime d clock).fns = d.fns := rfl
@[simp] theorem modTask_fns : (modTask d i tasks).fns = d.fns := by unfold modTask; split <;> rfl
@[simp] theorem report_fns : (report d r).fns = d.fns := rfl
@[simp] theorem modPair_fns : (modPair d i pairs).fns = d.fns := rfl
@[simp] theorem modPower_fns : (modPower d rails).fns = d.fns := rfl
@[simp] theorem modPort_fns : (modPort d i ports).fns = d.fns := rfl
@[simp] theorem setTakeUps_fns : (setTakeUps d i taken).fns = d.fns := rfl
@[simp] theorem modMbx_fns : (modMbx d i boxes).fns = d.fns := by unfold modMbx; split <;> rfl
@[simp] theorem modThr_fns : (modThr d level).fns = d.fns := rfl
@[simp] theorem setTask_fns : (setTask d i owner).fns = d.fns := rfl
@[simp] theorem modTree_fns : (modTree d i trees).fns = d.fns := rfl
@[simp] theorem modMgmt_fns : (modMgmt d mgmt).fns = d.fns := rfl
@[simp] theorem setMbx_fns : (setMbx d i holder).fns = d.fns := rfl
@[simp] theorem modHq_fns : (modHq d i queues).fns = d.fns := rfl
@[simp] theorem modHport_fns : (modHport d i hosts).fns = d.fns := rfl
@[simp] theorem setAdder_fns : (setAdder d i entries).fns = d.fns := rfl
@[simp] theorem modMdie_fns : (modMdie d i mdies).fns = d.fns := rfl
@[simp] theorem modPage_fns : (modPage d i pages).fns = d.fns := rfl
@[simp] theorem setKmem_fns : (setKmem d i bytes).fns = d.fns := rfl
@[simp] theorem modSe_fns : (modSe d i engines).fns = d.fns := rfl
@[simp] theorem setLitter_fns : (setLitter d i word).fns = d.fns := rfl
@[simp] theorem modSensor_fns : (modSensor d i sensors).fns = d.fns := rfl

/-! `mbx` -/
@[simp] theorem emit_mbx : (emit d o).mbx = d.mbx := rfl
@[simp] theorem modKennel_mbx : (modKennel d i kennels).mbx = d.mbx := rfl
@[simp] theorem modTime_mbx : (modTime d clock).mbx = d.mbx := rfl
@[simp] theorem modFn_mbx : (modFn d i j fns).mbx = d.mbx := rfl
@[simp] theorem modTask_mbx : (modTask d i tasks).mbx = d.mbx := by unfold modTask; split <;> rfl
@[simp] theorem report_mbx : (report d r).mbx = d.mbx := rfl
@[simp] theorem modPair_mbx : (modPair d i pairs).mbx = d.mbx := rfl
@[simp] theorem modPower_mbx : (modPower d rails).mbx = d.mbx := rfl
@[simp] theorem modPort_mbx : (modPort d i ports).mbx = d.mbx := rfl
@[simp] theorem setTakeUps_mbx : (setTakeUps d i taken).mbx = d.mbx := rfl
@[simp] theorem modThr_mbx : (modThr d level).mbx = d.mbx := rfl
@[simp] theorem setTask_mbx : (setTask d i owner).mbx = d.mbx := rfl
@[simp] theorem modTree_mbx : (modTree d i trees).mbx = d.mbx := rfl
@[simp] theorem modMgmt_mbx : (modMgmt d mgmt).mbx = d.mbx := rfl
@[simp] theorem modHq_mbx : (modHq d i queues).mbx = d.mbx := rfl
@[simp] theorem modHport_mbx : (modHport d i hosts).mbx = d.mbx := rfl
@[simp] theorem setAdder_mbx : (setAdder d i entries).mbx = d.mbx := rfl
@[simp] theorem modMdie_mbx : (modMdie d i mdies).mbx = d.mbx := rfl
@[simp] theorem modPage_mbx : (modPage d i pages).mbx = d.mbx := rfl
@[simp] theorem setKmem_mbx : (setKmem d i bytes).mbx = d.mbx := rfl
@[simp] theorem modSe_mbx : (modSe d i engines).mbx = d.mbx := rfl
@[simp] theorem setLitter_mbx : (setLitter d i word).mbx = d.mbx := rfl
@[simp] theorem modSensor_mbx : (modSensor d i sensors).mbx = d.mbx := rfl

/-! `begun` -/
@[simp] theorem emit_begun : (emit d o).begun = d.begun := rfl
@[simp] theorem modKennel_begun : (modKennel d i kennels).begun = d.begun := rfl
@[simp] theorem modTime_begun : (modTime d clock).begun = d.begun := rfl
@[simp] theorem modFn_begun : (modFn d i j fns).begun = d.begun := rfl
@[simp] theorem modTask_begun : (modTask d i tasks).begun = d.begun := by unfold modTask; split <;> rfl
@[simp] theorem report_begun : (report d r).begun = d.begun := rfl
@[simp] theorem modPair_begun : (modPair d i pairs).begun = d.begun := rfl
@[simp] theorem modPower_begun : (modPower d rails).begun = d.begun := rfl
@[simp] theorem modPort_begun : (modPort d i ports).begun = d.begun := rfl
@[simp] theorem setTakeUps_begun : (setTakeUps d i taken).begun = d.begun := rfl
@[simp] theorem modMbx_begun : (modMbx d i boxes).begun = d.begun := by unfold modMbx; split <;> rfl
@[simp] theorem modThr_begun : (modThr d level).begun = d.begun := rfl
@[simp] theorem setTask_begun : (setTask d i owner).begun = d.begun := rfl
@[simp] theorem modTree_begun : (modTree d i trees).begun = d.begun := rfl
@[simp] theorem modMgmt_begun : (modMgmt d mgmt).begun = d.begun := rfl
@[simp] theorem setMbx_begun : (setMbx d i holder).begun = d.begun := rfl
@[simp] theorem modHq_begun : (modHq d i queues).begun = d.begun := rfl
@[simp] theorem modHport_begun : (modHport d i hosts).begun = d.begun := rfl
@[simp] theorem setAdder_begun : (setAdder d i entries).begun = d.begun := rfl
@[simp] theorem modMdie_begun : (modMdie d i mdies).begun = d.begun := rfl
@[simp] theorem modPage_begun : (modPage d i pages).begun = d.begun := rfl
@[simp] theorem setKmem_begun : (setKmem d i bytes).begun = d.begun := rfl
@[simp] theorem modSe_begun : (modSe d i engines).begun = d.begun := rfl
@[simp] theorem setLitter_begun : (setLitter d i word).begun = d.begun := rfl
@[simp] theorem modSensor_begun : (modSensor d i sensors).begun = d.begun := rfl

/-! `kennels` -/
@[simp] theorem emit_kennels : (emit d o).kennels = d.kennels := rfl
@[simp] theorem modTime_kennels : (modTime d clock).kennels = d.kennels := rfl
@[simp] theorem modFn_kennels : (modFn d i j fns).kennels = d.kennels := rfl
@[simp] theorem modTask_kennels : (modTask d i tasks).kennels = d.kennels := by unfold modTask; split <;> rfl
@[simp] theorem report_kennels : (report d r).kennels = d.kennels := rfl
@[simp] theorem modPair_kennels : (modPair d i pairs).kennels = d.kennels := rfl
@[simp] theorem modPower_kennels : (modPower d rails).kennels = d.kennels := rfl
@[simp] theorem modPort_kennels : (modPort d i ports).kennels = d.kennels := rfl
@[simp] theorem setTakeUps_kennels : (setTakeUps d i taken).kennels = d.kennels := rfl
@[simp] theorem modMbx_kennels : (modMbx d i boxes).kennels = d.kennels := by unfold modMbx; split <;> rfl
@[simp] theorem modThr_kennels : (modThr d level).kennels = d.kennels := rfl
@[simp] theorem setTask_kennels : (setTask d i owner).kennels = d.kennels := rfl
@[simp] theorem modTree_kennels : (modTree d i trees).kennels = d.kennels := rfl
@[simp] theorem modMgmt_kennels : (modMgmt d mgmt).kennels = d.kennels := rfl
@[simp] theorem setMbx_kennels : (setMbx d i holder).kennels = d.kennels := rfl
@[simp] theorem modHq_kennels : (modHq d i queues).kennels = d.kennels := rfl
@[simp] theorem modHport_kennels : (modHport d i hosts).kennels = d.kennels := rfl
@[simp] theorem setAdder_kennels : (setAdder d i entries).kennels = d.kennels := rfl
@[simp] theorem modMdie_kennels : (modMdie d i mdies).kennels = d.kennels := rfl
@[simp] theorem modPage_kennels : (modPage d i pages).kennels = d.kennels := rfl
@[simp] theorem setKmem_kennels : (setKmem d i bytes).kennels = d.kennels := rfl
@[simp] theorem modSe_kennels : (modSe d i engines).kennels = d.kennels := rfl
@[simp] theorem setLitter_kennels : (setLitter d i word).kennels = d.kennels := rfl
@[simp] theorem modSensor_kennels : (modSensor d i sensors).kennels = d.kennels := rfl

/-! `tasks` -/
@[simp] theorem emit_tasks : (emit d o).tasks = d.tasks := rfl
@[simp] theorem modKennel_tasks : (modKennel d i kennels).tasks = d.tasks := rfl
@[simp] theorem modTime_tasks : (modTime d clock).tasks = d.tasks := rfl
@[simp] theorem modFn_tasks : (modFn d i j fns).tasks = d.tasks := rfl
@[simp] theorem report_tasks : (report d r).tasks = d.tasks := rfl
@[simp] theorem modPair_tasks : (modPair d i pairs).tasks = d.tasks := rfl
@[simp] theorem modPower_tasks : (modPower d rails).tasks = d.tasks := rfl
@[simp] theorem modPort_tasks : (modPort d i ports).tasks = d.tasks := rfl
@[simp] theorem setTakeUps_tasks : (setTakeUps d i taken).tasks = d.tasks := rfl
@[simp] theorem modMbx_tasks : (modMbx d i boxes).tasks = d.tasks := by unfold modMbx; split <;> rfl
@[simp] theorem modThr_tasks : (modThr d level).tasks = d.tasks := rfl
@[simp] theorem modTree_tasks : (modTree d i trees).tasks = d.tasks := rfl
@[simp] theorem modMgmt_tasks : (modMgmt d mgmt).tasks = d.tasks := rfl
@[simp] theorem setMbx_tasks : (setMbx d i holder).tasks = d.tasks := rfl
@[simp] theorem modHq_tasks : (modHq d i queues).tasks = d.tasks := rfl
@[simp] theorem modHport_tasks : (modHport d i hosts).tasks = d.tasks := rfl
@[simp] theorem setAdder_tasks : (setAdder d i entries).tasks = d.tasks := rfl
@[simp] theorem modMdie_tasks : (modMdie d i mdies).tasks = d.tasks := rfl
@[simp] theorem modPage_tasks : (modPage d i pages).tasks = d.tasks := rfl
@[simp] theorem setKmem_tasks : (setKmem d i bytes).tasks = d.tasks := rfl
@[simp] theorem modSe_tasks : (modSe d i engines).tasks = d.tasks := rfl
@[simp] theorem setLitter_tasks : (setLitter d i word).tasks = d.tasks := rfl
@[simp] theorem modSensor_tasks : (modSensor d i sensors).tasks = d.tasks := rfl

/-! `ports` -/
@[simp] theorem emit_ports : (emit d o).ports = d.ports := rfl
@[simp] theorem modKennel_ports : (modKennel d i kennels).ports = d.ports := rfl
@[simp] theorem modTime_ports : (modTime d clock).ports = d.ports := rfl
@[simp] theorem modFn_ports : (modFn d i j fns).ports = d.ports := rfl
@[simp] theorem modTask_ports : (modTask d i tasks).ports = d.ports := by unfold modTask; split <;> rfl
@[simp] theorem report_ports : (report d r).ports = d.ports := rfl
@[simp] theorem modPair_ports : (modPair d i pairs).ports = d.ports := rfl
@[simp] theorem modPower_ports : (modPower d rails).ports = d.ports := rfl
@[simp] theorem setTakeUps_ports : (setTakeUps d i taken).ports = d.ports := rfl
@[simp] theorem modMbx_ports : (modMbx d i boxes).ports = d.ports := by unfold modMbx; split <;> rfl
@[simp] theorem modThr_ports : (modThr d level).ports = d.ports := rfl
@[simp] theorem setTask_ports : (setTask d i owner).ports = d.ports := rfl
@[simp] theorem modTree_ports : (modTree d i trees).ports = d.ports := rfl
@[simp] theorem modMgmt_ports : (modMgmt d mgmt).ports = d.ports := rfl
@[simp] theorem setMbx_ports : (setMbx d i holder).ports = d.ports := rfl
@[simp] theorem modHq_ports : (modHq d i queues).ports = d.ports := rfl
@[simp] theorem modHport_ports : (modHport d i hosts).ports = d.ports := rfl
@[simp] theorem setAdder_ports : (setAdder d i entries).ports = d.ports := rfl
@[simp] theorem modMdie_ports : (modMdie d i mdies).ports = d.ports := rfl
@[simp] theorem modPage_ports : (modPage d i pages).ports = d.ports := rfl
@[simp] theorem setKmem_ports : (setKmem d i bytes).ports = d.ports := rfl
@[simp] theorem modSe_ports : (modSe d i engines).ports = d.ports := rfl
@[simp] theorem setLitter_ports : (setLitter d i word).ports = d.ports := rfl
@[simp] theorem modSensor_ports : (modSensor d i sensors).ports = d.ports := rfl

/-! `trees` -/
@[simp] theorem emit_trees : (emit d o).trees = d.trees := rfl
@[simp] theorem modKennel_trees : (modKennel d i kennels).trees = d.trees := rfl
@[simp] theorem modTime_trees : (modTime d clock).trees = d.trees := rfl
@[simp] theorem modFn_trees : (modFn d i j fns).trees = d.trees := rfl
@[simp] theorem modTask_trees : (modTask d i tasks).trees = d.trees := by unfold modTask; split <;> rfl
@[simp] theorem report_trees : (report d r).trees = d.trees := rfl
@[simp] theorem modPair_trees : (modPair d i pairs).trees = d.trees := rfl
@[simp] theorem modPower_trees : (modPower d rails).trees = d.trees := rfl
@[simp] theorem modPort_trees : (modPort d i ports).trees = d.trees := rfl
@[simp] theorem setTakeUps_trees : (setTakeUps d i taken).trees = d.trees := rfl
@[simp] theorem modMbx_trees : (modMbx d i boxes).trees = d.trees := by unfold modMbx; split <;> rfl
@[simp] theorem modThr_trees : (modThr d level).trees = d.trees := rfl
@[simp] theorem setTask_trees : (setTask d i owner).trees = d.trees := rfl
@[simp] theorem modMgmt_trees : (modMgmt d mgmt).trees = d.trees := rfl
@[simp] theorem setMbx_trees : (setMbx d i holder).trees = d.trees := rfl
@[simp] theorem modHq_trees : (modHq d i queues).trees = d.trees := rfl
@[simp] theorem modHport_trees : (modHport d i hosts).trees = d.trees := rfl
@[simp] theorem setAdder_trees : (setAdder d i entries).trees = d.trees := rfl
@[simp] theorem modMdie_trees : (modMdie d i mdies).trees = d.trees := rfl
@[simp] theorem modPage_trees : (modPage d i pages).trees = d.trees := rfl
@[simp] theorem setKmem_trees : (setKmem d i bytes).trees = d.trees := rfl
@[simp] theorem modSe_trees : (modSe d i engines).trees = d.trees := rfl
@[simp] theorem setLitter_trees : (setLitter d i word).trees = d.trees := rfl
@[simp] theorem modSensor_trees : (modSensor d i sensors).trees = d.trees := rfl

/-! `adders` -/
@[simp] theorem emit_adders : (emit d o).adders = d.adders := rfl
@[simp] theorem modKennel_adders : (modKennel d i kennels).adders = d.adders := rfl
@[simp] theorem modTime_adders : (modTime d clock).adders = d.adders := rfl
@[simp] theorem modFn_adders : (modFn d i j fns).adders = d.adders := rfl
@[simp] theorem modTask_adders : (modTask d i tasks).adders = d.adders := by unfold modTask; split <;> rfl
@[simp] theorem report_adders : (report d r).adders = d.adders := rfl
@[simp] theorem modPair_adders : (modPair d i pairs).adders = d.adders := rfl
@[simp] theorem modPower_adders : (modPower d rails).adders = d.adders := rfl
@[simp] theorem modPort_adders : (modPort d i ports).adders = d.adders := rfl
@[simp] theorem setTakeUps_adders : (setTakeUps d i taken).adders = d.adders := rfl
@[simp] theorem modMbx_adders : (modMbx d i boxes).adders = d.adders := by unfold modMbx; split <;> rfl
@[simp] theorem modThr_adders : (modThr d level).adders = d.adders := rfl
@[simp] theorem setTask_adders : (setTask d i owner).adders = d.adders := rfl
@[simp] theorem modTree_adders : (modTree d i trees).adders = d.adders := rfl
@[simp] theorem modMgmt_adders : (modMgmt d mgmt).adders = d.adders := rfl
@[simp] theorem setMbx_adders : (setMbx d i holder).adders = d.adders := rfl
@[simp] theorem modHq_adders : (modHq d i queues).adders = d.adders := rfl
@[simp] theorem modHport_adders : (modHport d i hosts).adders = d.adders := rfl
@[simp] theorem modMdie_adders : (modMdie d i mdies).adders = d.adders := rfl
@[simp] theorem modPage_adders : (modPage d i pages).adders = d.adders := rfl
@[simp] theorem setKmem_adders : (setKmem d i bytes).adders = d.adders := rfl
@[simp] theorem modSe_adders : (modSe d i engines).adders = d.adders := rfl
@[simp] theorem setLitter_adders : (setLitter d i word).adders = d.adders := rfl
@[simp] theorem modSensor_adders : (modSensor d i sensors).adders = d.adders := rfl

/-! `hqs` -/
@[simp] theorem emit_hqs : (emit d o).hqs = d.hqs := rfl
@[simp] theorem modKennel_hqs : (modKennel d i kennels).hqs = d.hqs := rfl
@[simp] theorem modTime_hqs : (modTime d clock).hqs = d.hqs := rfl
@[simp] theorem modFn_hqs : (modFn d i j fns).hqs = d.hqs := rfl
@[simp] theorem modTask_hqs : (modTask d i tasks).hqs = d.hqs := by unfold modTask; split <;> rfl
@[simp] theorem report_hqs : (report d r).hqs = d.hqs := rfl
@[simp] theorem modPair_hqs : (modPair d i pairs).hqs = d.hqs := rfl
@[simp] theorem modPower_hqs : (modPower d rails).hqs = d.hqs := rfl
@[simp] theorem modPort_hqs : (modPort d i ports).hqs = d.hqs := rfl
@[simp] theorem setTakeUps_hqs : (setTakeUps d i taken).hqs = d.hqs := rfl
@[simp] theorem modMbx_hqs : (modMbx d i boxes).hqs = d.hqs := by unfold modMbx; split <;> rfl
@[simp] theorem modThr_hqs : (modThr d level).hqs = d.hqs := rfl
@[simp] theorem setTask_hqs : (setTask d i owner).hqs = d.hqs := rfl
@[simp] theorem modTree_hqs : (modTree d i trees).hqs = d.hqs := rfl
@[simp] theorem modMgmt_hqs : (modMgmt d mgmt).hqs = d.hqs := rfl
@[simp] theorem setMbx_hqs : (setMbx d i holder).hqs = d.hqs := rfl
@[simp] theorem modHport_hqs : (modHport d i hosts).hqs = d.hqs := rfl
@[simp] theorem setAdder_hqs : (setAdder d i entries).hqs = d.hqs := rfl
@[simp] theorem modMdie_hqs : (modMdie d i mdies).hqs = d.hqs := rfl
@[simp] theorem modPage_hqs : (modPage d i pages).hqs = d.hqs := rfl
@[simp] theorem setKmem_hqs : (setKmem d i bytes).hqs = d.hqs := rfl
@[simp] theorem modSe_hqs : (modSe d i engines).hqs = d.hqs := rfl
@[simp] theorem setLitter_hqs : (setLitter d i word).hqs = d.hqs := rfl
@[simp] theorem modSensor_hqs : (modSensor d i sensors).hqs = d.hqs := rfl

/-! `popReqs` -/
@[simp] theorem emit_popReqs : (emit d o).popReqs = d.popReqs := rfl
@[simp] theorem modKennel_popReqs : (modKennel d i kennels).popReqs = d.popReqs := rfl
@[simp] theorem modTime_popReqs : (modTime d clock).popReqs = d.popReqs := rfl
@[simp] theorem modFn_popReqs : (modFn d i j fns).popReqs = d.popReqs := rfl
@[simp] theorem modTask_popReqs : (modTask d i tasks).popReqs = d.popReqs := by unfold modTask; split <;> rfl
@[simp] theorem report_popReqs : (report d r).popReqs = d.popReqs := rfl
@[simp] theorem modPair_popReqs : (modPair d i pairs).popReqs = d.popReqs := rfl
@[simp] theorem modPower_popReqs : (modPower d rails).popReqs = d.popReqs := rfl
@[simp] theorem modPort_popReqs : (modPort d i ports).popReqs = d.popReqs := rfl
@[simp] theorem setTakeUps_popReqs : (setTakeUps d i taken).popReqs = d.popReqs := rfl
@[simp] theorem modMbx_popReqs : (modMbx d i boxes).popReqs = d.popReqs := by unfold modMbx; split <;> rfl
@[simp] theorem modThr_popReqs : (modThr d level).popReqs = d.popReqs := rfl
@[simp] theorem setTask_popReqs : (setTask d i owner).popReqs = d.popReqs := rfl
@[simp] theorem modTree_popReqs : (modTree d i trees).popReqs = d.popReqs := rfl
@[simp] theorem modMgmt_popReqs : (modMgmt d mgmt).popReqs = d.popReqs := rfl
@[simp] theorem setMbx_popReqs : (setMbx d i holder).popReqs = d.popReqs := rfl
@[simp] theorem modHq_popReqs : (modHq d i queues).popReqs = d.popReqs := rfl
@[simp] theorem modHport_popReqs : (modHport d i hosts).popReqs = d.popReqs := rfl
@[simp] theorem setAdder_popReqs : (setAdder d i entries).popReqs = d.popReqs := rfl
@[simp] theorem modMdie_popReqs : (modMdie d i mdies).popReqs = d.popReqs := rfl
@[simp] theorem modPage_popReqs : (modPage d i pages).popReqs = d.popReqs := rfl
@[simp] theorem setKmem_popReqs : (setKmem d i bytes).popReqs = d.popReqs := rfl
@[simp] theorem modSe_popReqs : (modSe d i engines).popReqs = d.popReqs := rfl
@[simp] theorem setLitter_popReqs : (setLitter d i word).popReqs = d.popReqs := rfl
@[simp] theorem modSensor_popReqs : (modSensor d i sensors).popReqs = d.popReqs := rfl

/-! `pushReqs` -/
@[simp] theorem emit_pushReqs : (emit d o).pushReqs = d.pushReqs := rfl
@[simp] theorem modKennel_pushReqs : (modKennel d i kennels).pushReqs = d.pushReqs := rfl
@[simp] theorem modTime_pushReqs : (modTime d clock).pushReqs = d.pushReqs := rfl
@[simp] theorem modFn_pushReqs : (modFn d i j fns).pushReqs = d.pushReqs := rfl
@[simp] theorem modTask_pushReqs : (modTask d i tasks).pushReqs = d.pushReqs := by unfold modTask; split <;> rfl
@[simp] theorem report_pushReqs : (report d r).pushReqs = d.pushReqs := rfl
@[simp] theorem modPair_pushReqs : (modPair d i pairs).pushReqs = d.pushReqs := rfl
@[simp] theorem modPower_pushReqs : (modPower d rails).pushReqs = d.pushReqs := rfl
@[simp] theorem modPort_pushReqs : (modPort d i ports).pushReqs = d.pushReqs := rfl
@[simp] theorem setTakeUps_pushReqs : (setTakeUps d i taken).pushReqs = d.pushReqs := rfl
@[simp] theorem modMbx_pushReqs : (modMbx d i boxes).pushReqs = d.pushReqs := by unfold modMbx; split <;> rfl
@[simp] theorem modThr_pushReqs : (modThr d level).pushReqs = d.pushReqs := rfl
@[simp] theorem setTask_pushReqs : (setTask d i owner).pushReqs = d.pushReqs := rfl
@[simp] theorem modTree_pushReqs : (modTree d i trees).pushReqs = d.pushReqs := rfl
@[simp] theorem modMgmt_pushReqs : (modMgmt d mgmt).pushReqs = d.pushReqs := rfl
@[simp] theorem setMbx_pushReqs : (setMbx d i holder).pushReqs = d.pushReqs := rfl
@[simp] theorem modHq_pushReqs : (modHq d i queues).pushReqs = d.pushReqs := rfl
@[simp] theorem modHport_pushReqs : (modHport d i hosts).pushReqs = d.pushReqs := rfl
@[simp] theorem setAdder_pushReqs : (setAdder d i entries).pushReqs = d.pushReqs := rfl
@[simp] theorem modMdie_pushReqs : (modMdie d i mdies).pushReqs = d.pushReqs := rfl
@[simp] theorem modPage_pushReqs : (modPage d i pages).pushReqs = d.pushReqs := rfl
@[simp] theorem setKmem_pushReqs : (setKmem d i bytes).pushReqs = d.pushReqs := rfl
@[simp] theorem modSe_pushReqs : (modSe d i engines).pushReqs = d.pushReqs := rfl
@[simp] theorem setLitter_pushReqs : (setLitter d i word).pushReqs = d.pushReqs := rfl
@[simp] theorem modSensor_pushReqs : (modSensor d i sensors).pushReqs = d.pushReqs := rfl

/-! `arrivals` -/
@[simp] theorem emit_arrivals : (emit d o).arrivals = d.arrivals := rfl
@[simp] theorem modKennel_arrivals : (modKennel d i kennels).arrivals = d.arrivals := rfl
@[simp] theorem modTime_arrivals : (modTime d clock).arrivals = d.arrivals := rfl
@[simp] theorem modFn_arrivals : (modFn d i j fns).arrivals = d.arrivals := rfl
@[simp] theorem modTask_arrivals : (modTask d i tasks).arrivals = d.arrivals := by unfold modTask; split <;> rfl
@[simp] theorem report_arrivals : (report d r).arrivals = d.arrivals := rfl
@[simp] theorem modPair_arrivals : (modPair d i pairs).arrivals = d.arrivals := rfl
@[simp] theorem modPower_arrivals : (modPower d rails).arrivals = d.arrivals := rfl
@[simp] theorem modPort_arrivals : (modPort d i ports).arrivals = d.arrivals := rfl
@[simp] theorem setTakeUps_arrivals : (setTakeUps d i taken).arrivals = d.arrivals := rfl
@[simp] theorem modMbx_arrivals : (modMbx d i boxes).arrivals = d.arrivals := by unfold modMbx; split <;> rfl
@[simp] theorem modThr_arrivals : (modThr d level).arrivals = d.arrivals := rfl
@[simp] theorem setTask_arrivals : (setTask d i owner).arrivals = d.arrivals := rfl
@[simp] theorem modTree_arrivals : (modTree d i trees).arrivals = d.arrivals := rfl
@[simp] theorem modMgmt_arrivals : (modMgmt d mgmt).arrivals = d.arrivals := rfl
@[simp] theorem setMbx_arrivals : (setMbx d i holder).arrivals = d.arrivals := rfl
@[simp] theorem modHq_arrivals : (modHq d i queues).arrivals = d.arrivals := rfl
@[simp] theorem modHport_arrivals : (modHport d i hosts).arrivals = d.arrivals := rfl
@[simp] theorem setAdder_arrivals : (setAdder d i entries).arrivals = d.arrivals := rfl
@[simp] theorem modMdie_arrivals : (modMdie d i mdies).arrivals = d.arrivals := rfl
@[simp] theorem modPage_arrivals : (modPage d i pages).arrivals = d.arrivals := rfl
@[simp] theorem setKmem_arrivals : (setKmem d i bytes).arrivals = d.arrivals := rfl
@[simp] theorem modSe_arrivals : (modSe d i engines).arrivals = d.arrivals := rfl
@[simp] theorem setLitter_arrivals : (setLitter d i word).arrivals = d.arrivals := rfl
@[simp] theorem modSensor_arrivals : (modSensor d i sensors).arrivals = d.arrivals := rfl

/-! `ses` -/
@[simp] theorem emit_ses : (emit d o).ses = d.ses := rfl
@[simp] theorem modKennel_ses : (modKennel d i kennels).ses = d.ses := rfl
@[simp] theorem modTime_ses : (modTime d clock).ses = d.ses := rfl
@[simp] theorem modFn_ses : (modFn d i j fns).ses = d.ses := rfl
@[simp] theorem modTask_ses : (modTask d i tasks).ses = d.ses := by unfold modTask; split <;> rfl
@[simp] theorem report_ses : (report d r).ses = d.ses := rfl
@[simp] theorem modPair_ses : (modPair d i pairs).ses = d.ses := rfl
@[simp] theorem modPower_ses : (modPower d rails).ses = d.ses := rfl
@[simp] theorem modPort_ses : (modPort d i ports).ses = d.ses := rfl
@[simp] theorem setTakeUps_ses : (setTakeUps d i taken).ses = d.ses := rfl
@[simp] theorem modMbx_ses : (modMbx d i boxes).ses = d.ses := by unfold modMbx; split <;> rfl
@[simp] theorem modThr_ses : (modThr d level).ses = d.ses := rfl
@[simp] theorem setTask_ses : (setTask d i owner).ses = d.ses := rfl
@[simp] theorem modTree_ses : (modTree d i trees).ses = d.ses := rfl
@[simp] theorem modMgmt_ses : (modMgmt d mgmt).ses = d.ses := rfl
@[simp] theorem setMbx_ses : (setMbx d i holder).ses = d.ses := rfl
@[simp] theorem modHq_ses : (modHq d i queues).ses = d.ses := rfl
@[simp] theorem modHport_ses : (modHport d i hosts).ses = d.ses := rfl
@[simp] theorem setAdder_ses : (setAdder d i entries).ses = d.ses := rfl
@[simp] theorem modMdie_ses : (modMdie d i mdies).ses = d.ses := rfl
@[simp] theorem modPage_ses : (modPage d i pages).ses = d.ses := rfl
@[simp] theorem setKmem_ses : (setKmem d i bytes).ses = d.ses := rfl
@[simp] theorem setLitter_ses : (setLitter d i word).ses = d.ses := rfl
@[simp] theorem modSensor_ses : (modSensor d i sensors).ses = d.ses := rfl

/-! `pairs` -/
@[simp] theorem emit_pairs : (emit d o).pairs = d.pairs := rfl
@[simp] theorem modKennel_pairs : (modKennel d i kennels).pairs = d.pairs := rfl
@[simp] theorem modTime_pairs : (modTime d clock).pairs = d.pairs := rfl
@[simp] theorem modFn_pairs : (modFn d i j fns).pairs = d.pairs := rfl
@[simp] theorem modTask_pairs : (modTask d i tasks).pairs = d.pairs := by unfold modTask; split <;> rfl
@[simp] theorem report_pairs : (report d r).pairs = d.pairs := rfl
@[simp] theorem modPower_pairs : (modPower d rails).pairs = d.pairs := rfl
@[simp] theorem modPort_pairs : (modPort d i ports).pairs = d.pairs := rfl
@[simp] theorem setTakeUps_pairs : (setTakeUps d i taken).pairs = d.pairs := rfl
@[simp] theorem modMbx_pairs : (modMbx d i boxes).pairs = d.pairs := by unfold modMbx; split <;> rfl
@[simp] theorem modThr_pairs : (modThr d level).pairs = d.pairs := rfl
@[simp] theorem setTask_pairs : (setTask d i owner).pairs = d.pairs := rfl
@[simp] theorem modTree_pairs : (modTree d i trees).pairs = d.pairs := rfl
@[simp] theorem modMgmt_pairs : (modMgmt d mgmt).pairs = d.pairs := rfl
@[simp] theorem setMbx_pairs : (setMbx d i holder).pairs = d.pairs := rfl
@[simp] theorem modHq_pairs : (modHq d i queues).pairs = d.pairs := rfl
@[simp] theorem modHport_pairs : (modHport d i hosts).pairs = d.pairs := rfl
@[simp] theorem setAdder_pairs : (setAdder d i entries).pairs = d.pairs := rfl
@[simp] theorem modMdie_pairs : (modMdie d i mdies).pairs = d.pairs := rfl
@[simp] theorem modPage_pairs : (modPage d i pages).pairs = d.pairs := rfl
@[simp] theorem setKmem_pairs : (setKmem d i bytes).pairs = d.pairs := rfl
@[simp] theorem modSe_pairs : (modSe d i engines).pairs = d.pairs := rfl
@[simp] theorem setLitter_pairs : (setLitter d i word).pairs = d.pairs := rfl
@[simp] theorem modSensor_pairs : (modSensor d i sensors).pairs = d.pairs := rfl

/-! `mdies` -/
@[simp] theorem emit_mdies : (emit d o).mdies = d.mdies := rfl
@[simp] theorem modKennel_mdies : (modKennel d i kennels).mdies = d.mdies := rfl
@[simp] theorem modTime_mdies : (modTime d clock).mdies = d.mdies := rfl
@[simp] theorem modFn_mdies : (modFn d i j fns).mdies = d.mdies := rfl
@[simp] theorem modTask_mdies : (modTask d i tasks).mdies = d.mdies := by unfold modTask; split <;> rfl
@[simp] theorem report_mdies : (report d r).mdies = d.mdies := rfl
@[simp] theorem modPair_mdies : (modPair d i pairs).mdies = d.mdies := rfl
@[simp] theorem modPower_mdies : (modPower d rails).mdies = d.mdies := rfl
@[simp] theorem modPort_mdies : (modPort d i ports).mdies = d.mdies := rfl
@[simp] theorem setTakeUps_mdies : (setTakeUps d i taken).mdies = d.mdies := rfl
@[simp] theorem modMbx_mdies : (modMbx d i boxes).mdies = d.mdies := by unfold modMbx; split <;> rfl
@[simp] theorem modThr_mdies : (modThr d level).mdies = d.mdies := rfl
@[simp] theorem setTask_mdies : (setTask d i owner).mdies = d.mdies := rfl
@[simp] theorem modTree_mdies : (modTree d i trees).mdies = d.mdies := rfl
@[simp] theorem modMgmt_mdies : (modMgmt d mgmt).mdies = d.mdies := rfl
@[simp] theorem setMbx_mdies : (setMbx d i holder).mdies = d.mdies := rfl
@[simp] theorem modHq_mdies : (modHq d i queues).mdies = d.mdies := rfl
@[simp] theorem modHport_mdies : (modHport d i hosts).mdies = d.mdies := rfl
@[simp] theorem setAdder_mdies : (setAdder d i entries).mdies = d.mdies := rfl
@[simp] theorem modPage_mdies : (modPage d i pages).mdies = d.mdies := rfl
@[simp] theorem setKmem_mdies : (setKmem d i bytes).mdies = d.mdies := rfl
@[simp] theorem modSe_mdies : (modSe d i engines).mdies = d.mdies := rfl
@[simp] theorem setLitter_mdies : (setLitter d i word).mdies = d.mdies := rfl
@[simp] theorem modSensor_mdies : (modSensor d i sensors).mdies = d.mdies := rfl

/-! `mem` -/
@[simp] theorem emit_mem : (emit d o).mem = d.mem := rfl
@[simp] theorem modKennel_mem : (modKennel d i kennels).mem = d.mem := rfl
@[simp] theorem modTime_mem : (modTime d clock).mem = d.mem := rfl
@[simp] theorem modFn_mem : (modFn d i j fns).mem = d.mem := rfl
@[simp] theorem modTask_mem : (modTask d i tasks).mem = d.mem := by unfold modTask; split <;> rfl
@[simp] theorem report_mem : (report d r).mem = d.mem := rfl
@[simp] theorem modPair_mem : (modPair d i pairs).mem = d.mem := rfl
@[simp] theorem modPower_mem : (modPower d rails).mem = d.mem := rfl
@[simp] theorem modPort_mem : (modPort d i ports).mem = d.mem := rfl
@[simp] theorem setTakeUps_mem : (setTakeUps d i taken).mem = d.mem := rfl
@[simp] theorem modMbx_mem : (modMbx d i boxes).mem = d.mem := by unfold modMbx; split <;> rfl
@[simp] theorem modThr_mem : (modThr d level).mem = d.mem := rfl
@[simp] theorem setTask_mem : (setTask d i owner).mem = d.mem := rfl
@[simp] theorem modTree_mem : (modTree d i trees).mem = d.mem := rfl
@[simp] theorem modMgmt_mem : (modMgmt d mgmt).mem = d.mem := rfl
@[simp] theorem setMbx_mem : (setMbx d i holder).mem = d.mem := rfl
@[simp] theorem modHq_mem : (modHq d i queues).mem = d.mem := rfl
@[simp] theorem modHport_mem : (modHport d i hosts).mem = d.mem := rfl
@[simp] theorem setAdder_mem : (setAdder d i entries).mem = d.mem := rfl
@[simp] theorem modMdie_mem : (modMdie d i mdies).mem = d.mem := rfl
@[simp] theorem modPage_mem : (modPage d i pages).mem = d.mem := rfl
@[simp] theorem modSe_mem : (modSe d i engines).mem = d.mem := rfl
@[simp] theorem setLitter_mem : (setLitter d i word).mem = d.mem := rfl
@[simp] theorem modSensor_mem : (modSensor d i sensors).mem = d.mem := rfl

/-! `pages` -/
@[simp] theorem emit_pages : (emit d o).pages = d.pages := rfl
@[simp] theorem modKennel_pages : (modKennel d i kennels).pages = d.pages := rfl
@[simp] theorem modTime_pages : (modTime d clock).pages = d.pages := rfl
@[simp] theorem modFn_pages : (modFn d i j fns).pages = d.pages := rfl
@[simp] theorem modTask_pages : (modTask d i tasks).pages = d.pages := by unfold modTask; split <;> rfl
@[simp] theorem report_pages : (report d r).pages = d.pages := rfl
@[simp] theorem modPair_pages : (modPair d i pairs).pages = d.pages := rfl
@[simp] theorem modPower_pages : (modPower d rails).pages = d.pages := rfl
@[simp] theorem modPort_pages : (modPort d i ports).pages = d.pages := rfl
@[simp] theorem setTakeUps_pages : (setTakeUps d i taken).pages = d.pages := rfl
@[simp] theorem modMbx_pages : (modMbx d i boxes).pages = d.pages := by unfold modMbx; split <;> rfl
@[simp] theorem modThr_pages : (modThr d level).pages = d.pages := rfl
@[simp] theorem setTask_pages : (setTask d i owner).pages = d.pages := rfl
@[simp] theorem modTree_pages : (modTree d i trees).pages = d.pages := rfl
@[simp] theorem modMgmt_pages : (modMgmt d mgmt).pages = d.pages := rfl
@[simp] theorem setMbx_pages : (setMbx d i holder).pages = d.pages := rfl
@[simp] theorem modHq_pages : (modHq d i queues).pages = d.pages := rfl
@[simp] theorem modHport_pages : (modHport d i hosts).pages = d.pages := rfl
@[simp] theorem setAdder_pages : (setAdder d i entries).pages = d.pages := rfl
@[simp] theorem modMdie_pages : (modMdie d i mdies).pages = d.pages := rfl
@[simp] theorem setKmem_pages : (setKmem d i bytes).pages = d.pages := rfl
@[simp] theorem modSe_pages : (modSe d i engines).pages = d.pages := rfl
@[simp] theorem setLitter_pages : (setLitter d i word).pages = d.pages := rfl
@[simp] theorem modSensor_pages : (modSensor d i sensors).pages = d.pages := rfl

/-! `waits` -/
@[simp] theorem emit_waits : (emit d o).waits = d.waits := rfl
@[simp] theorem modKennel_waits : (modKennel d i kennels).waits = d.waits := rfl
@[simp] theorem modTime_waits : (modTime d clock).waits = d.waits := rfl
@[simp] theorem modFn_waits : (modFn d i j fns).waits = d.waits := rfl
@[simp] theorem modTask_waits : (modTask d i tasks).waits = d.waits := by unfold modTask; split <;> rfl
@[simp] theorem report_waits : (report d r).waits = d.waits := rfl
@[simp] theorem modPair_waits : (modPair d i pairs).waits = d.waits := rfl
@[simp] theorem modPower_waits : (modPower d rails).waits = d.waits := rfl
@[simp] theorem modPort_waits : (modPort d i ports).waits = d.waits := rfl
@[simp] theorem setTakeUps_waits : (setTakeUps d i taken).waits = d.waits := rfl
@[simp] theorem modMbx_waits : (modMbx d i boxes).waits = d.waits := by unfold modMbx; split <;> rfl
@[simp] theorem modThr_waits : (modThr d level).waits = d.waits := rfl
@[simp] theorem setTask_waits : (setTask d i owner).waits = d.waits := rfl
@[simp] theorem modTree_waits : (modTree d i trees).waits = d.waits := rfl
@[simp] theorem modMgmt_waits : (modMgmt d mgmt).waits = d.waits := rfl
@[simp] theorem setMbx_waits : (setMbx d i holder).waits = d.waits := rfl
@[simp] theorem modHq_waits : (modHq d i queues).waits = d.waits := rfl
@[simp] theorem modHport_waits : (modHport d i hosts).waits = d.waits := rfl
@[simp] theorem setAdder_waits : (setAdder d i entries).waits = d.waits := rfl
@[simp] theorem modMdie_waits : (modMdie d i mdies).waits = d.waits := rfl
@[simp] theorem modPage_waits : (modPage d i pages).waits = d.waits := rfl
@[simp] theorem setKmem_waits : (setKmem d i bytes).waits = d.waits := rfl
@[simp] theorem modSe_waits : (modSe d i engines).waits = d.waits := rfl
@[simp] theorem setLitter_waits : (setLitter d i word).waits = d.waits := rfl
@[simp] theorem modSensor_waits : (modSensor d i sensors).waits = d.waits := rfl

/-! `reads` -/
@[simp] theorem emit_reads : (emit d o).reads = d.reads := rfl
@[simp] theorem modKennel_reads : (modKennel d i kennels).reads = d.reads := rfl
@[simp] theorem modTime_reads : (modTime d clock).reads = d.reads := rfl
@[simp] theorem modFn_reads : (modFn d i j fns).reads = d.reads := rfl
@[simp] theorem modTask_reads : (modTask d i tasks).reads = d.reads := by unfold modTask; split <;> rfl
@[simp] theorem report_reads : (report d r).reads = d.reads := rfl
@[simp] theorem modPair_reads : (modPair d i pairs).reads = d.reads := rfl
@[simp] theorem modPower_reads : (modPower d rails).reads = d.reads := rfl
@[simp] theorem modPort_reads : (modPort d i ports).reads = d.reads := rfl
@[simp] theorem setTakeUps_reads : (setTakeUps d i taken).reads = d.reads := rfl
@[simp] theorem modMbx_reads : (modMbx d i boxes).reads = d.reads := by unfold modMbx; split <;> rfl
@[simp] theorem modThr_reads : (modThr d level).reads = d.reads := rfl
@[simp] theorem setTask_reads : (setTask d i owner).reads = d.reads := rfl
@[simp] theorem modTree_reads : (modTree d i trees).reads = d.reads := rfl
@[simp] theorem modMgmt_reads : (modMgmt d mgmt).reads = d.reads := rfl
@[simp] theorem setMbx_reads : (setMbx d i holder).reads = d.reads := rfl
@[simp] theorem modHq_reads : (modHq d i queues).reads = d.reads := rfl
@[simp] theorem modHport_reads : (modHport d i hosts).reads = d.reads := rfl
@[simp] theorem setAdder_reads : (setAdder d i entries).reads = d.reads := rfl
@[simp] theorem modMdie_reads : (modMdie d i mdies).reads = d.reads := rfl
@[simp] theorem modPage_reads : (modPage d i pages).reads = d.reads := rfl
@[simp] theorem setKmem_reads : (setKmem d i bytes).reads = d.reads := rfl
@[simp] theorem modSe_reads : (modSe d i engines).reads = d.reads := rfl
@[simp] theorem setLitter_reads : (setLitter d i word).reads = d.reads := rfl
@[simp] theorem modSensor_reads : (modSensor d i sensors).reads = d.reads := rfl

/-! `power` -/
@[simp] theorem emit_power : (emit d o).power = d.power := rfl
@[simp] theorem modKennel_power : (modKennel d i kennels).power = d.power := rfl
@[simp] theorem modTime_power : (modTime d clock).power = d.power := rfl
@[simp] theorem modFn_power : (modFn d i j fns).power = d.power := rfl
@[simp] theorem modTask_power : (modTask d i tasks).power = d.power := by unfold modTask; split <;> rfl
@[simp] theorem report_power : (report d r).power = d.power := rfl
@[simp] theorem modPair_power : (modPair d i pairs).power = d.power := rfl
@[simp] theorem modPort_power : (modPort d i ports).power = d.power := rfl
@[simp] theorem setTakeUps_power : (setTakeUps d i taken).power = d.power := rfl
@[simp] theorem modMbx_power : (modMbx d i boxes).power = d.power := by unfold modMbx; split <;> rfl
@[simp] theorem modThr_power : (modThr d level).power = d.power := rfl
@[simp] theorem setTask_power : (setTask d i owner).power = d.power := rfl
@[simp] theorem modTree_power : (modTree d i trees).power = d.power := rfl
@[simp] theorem modMgmt_power : (modMgmt d mgmt).power = d.power := rfl
@[simp] theorem setMbx_power : (setMbx d i holder).power = d.power := rfl
@[simp] theorem modHq_power : (modHq d i queues).power = d.power := rfl
@[simp] theorem modHport_power : (modHport d i hosts).power = d.power := rfl
@[simp] theorem setAdder_power : (setAdder d i entries).power = d.power := rfl
@[simp] theorem modMdie_power : (modMdie d i mdies).power = d.power := rfl
@[simp] theorem modPage_power : (modPage d i pages).power = d.power := rfl
@[simp] theorem setKmem_power : (setKmem d i bytes).power = d.power := rfl
@[simp] theorem modSe_power : (modSe d i engines).power = d.power := rfl
@[simp] theorem setLitter_power : (setLitter d i word).power = d.power := rfl
@[simp] theorem modSensor_power : (modSensor d i sensors).power = d.power := rfl

end Fields

/-! What a changed table holds, at its own number and at every other. -/

section Tables

variable (d : Dev) (i j : Nat)

@[simp] theorem pair_modPair (f : Pair → Pair) : pair (modPair d i f) i = f (pair d i) := Tbl.get_modify_self ..
theorem pair_modPair_other (f : Pair → Pair) (h : j ≠ i) : pair (modPair d i f) j = pair d j := by
  unfold pair modPair
  exact Tbl.get_modify_other _ _ _ _ _ h
theorem modPair_modPair (f g : Pair → Pair) : modPair (modPair d i f) i g = modPair d i (fun x => g (f x)) := by
  simp only [modPair, Tbl.modify_modify]

@[simp] theorem port_modPort (f : Port → Port) : port (modPort d i f) i = f (port d i) := Tbl.get_modify_self ..
theorem port_modPort_other (f : Port → Port) (h : j ≠ i) : port (modPort d i f) j = port d j := by
  unfold port modPort
  exact Tbl.get_modify_other _ _ _ _ _ h
theorem modPort_modPort (f g : Port → Port) : modPort (modPort d i f) i g = modPort d i (fun x => g (f x)) := by
  simp only [modPort, Tbl.modify_modify]

@[simp] theorem tree_modTree (f : Tree → Tree) : tree (modTree d i f) i = f (tree d i) := Tbl.get_modify_self ..
theorem tree_modTree_other (f : Tree → Tree) (h : j ≠ i) : tree (modTree d i f) j = tree d j := by
  unfold tree modTree
  exact Tbl.get_modify_other _ _ _ _ _ h
theorem modTree_modTree (f g : Tree → Tree) : modTree (modTree d i f) i g = modTree d i (fun x => g (f x)) := by
  simp only [modTree, Tbl.modify_modify]

@[simp] theorem hq_modHq (f : Hq → Hq) : hq (modHq d i f) i = f (hq d i) := Tbl.get_modify_self ..
theorem hq_modHq_other (f : Hq → Hq) (h : j ≠ i) : hq (modHq d i f) j = hq d j := by
  unfold hq modHq
  exact Tbl.get_modify_other _ _ _ _ _ h
theorem modHq_modHq (f g : Hq → Hq) : modHq (modHq d i f) i g = modHq d i (fun x => g (f x)) := by
  simp only [modHq, Tbl.modify_modify]

@[simp] theorem mdie_modMdie (f : MDie → MDie) : mdie (modMdie d i f) i = f (mdie d i) := Tbl.get_modify_self ..
theorem mdie_modMdie_other (f : MDie → MDie) (h : j ≠ i) : mdie (modMdie d i f) j = mdie d j := by
  unfold mdie modMdie
  exact Tbl.get_modify_other _ _ _ _ _ h
theorem modMdie_modMdie (f g : MDie → MDie) : modMdie (modMdie d i f) i g = modMdie d i (fun x => g (f x)) := by
  simp only [modMdie, Tbl.modify_modify]

@[simp] theorem sensor_modSensor (f : Sensor → Sensor) : sensor (modSensor d i f) i = f (sensor d i) := Tbl.get_modify_self ..
theorem modSensor_modSensor (f g : Sensor → Sensor) : modSensor (modSensor d i f) i g = modSensor d i (fun x => g (f x)) := by
  simp only [modSensor, Tbl.modify_modify]

@[simp] theorem hport_modHport (f : HPort → HPort) : hport (modHport d i f) i = f (hport d i) := Tbl.get_modify_self ..

theorem modKennel_modKennel (f g : Kennel → Kennel) : modKennel (modKennel d i f) i g = modKennel d i (fun x => g (f x)) := by
  simp only [modKennel, Tbl.modify_modify]

@[simp] theorem fn_modFn (f : Fn → Fn) : fn (modFn d i j f) i j = f (fn d i j) := Tbl.get_modify_self ..

@[simp] theorem mbx_setMbx (x : Option Mbx) : mbx (setMbx d i x) i = x := Tbl.get_set_self ..
theorem mbx_setMbx_other (x : Option Mbx) (h : j ≠ i) : mbx (setMbx d i x) j = mbx d j := by
  unfold mbx setMbx
  exact Tbl.get_set_other _ _ _ _ _ h

@[simp] theorem task_setTask (t : Option Task) : task (setTask d i t) i = t := Tbl.get_set_self ..
theorem task_setTask_other (t : Option Task) (h : j ≠ i) : task (setTask d i t) j = task d j := by
  unfold task setTask
  exact Tbl.get_set_other _ _ _ _ _ h

end Tables

end Sys2Proof.Machine
end

