-- ==== Sys2Proof/Laws/HostSide.lean ====
section
/-! SUPPORT. What telling the hosts can change: outputs, functions and mailboxes, and nothing else (R366 to R368, R431,
R436). -/

namespace Sys2Proof.Machine

/-- Nothing but outputs, functions and mailboxes differs. -/
def HostOnly (before after : Dev) : Prop := { before with out := after.out, fns := after.fns, mbx := after.mbx } = after

theorem HostOnly.refl (d : Dev) : HostOnly d d := rfl

theorem HostOnly.trans {a b c : Dev} (h : HostOnly a b) (g : HostOnly b c) : HostOnly a c := by
  unfold HostOnly at *
  rw [← g, ← h]

/-- What telling the hosts keeps, as far as what follows a command rests on it. -/
theorem HostOnly.keeps {d e : Dev} (h : HostOnly d e) :
    (e.dstate = d.dstate ∧ e.eclk = d.eclk) ∧ (e.reports = d.reports ∧ e.delivered = d.delivered) ∧ e.tasks = d.tasks := by
  rw [← h]
  exact ⟨⟨rfl, rfl⟩, ⟨rfl, rfl⟩, rfl⟩

theorem HostOnly.emit (d : Dev) (o : Out) : HostOnly d (emit d o) := rfl
theorem HostOnly.modFn (d : Dev) (p n : Nat) (f : Fn → Fn) : HostOnly d (modFn d p n f) := rfl
theorem HostOnly.setMbx (d : Dev) (m : Nat) (x : Option Mbx) : HostOnly d (setMbx d m x) := rfl

theorem HostOnly.modMbx (d : Dev) (m : Nat) (f : Mbx → Mbx) : HostOnly d (modMbx d m f) := by
  unfold Machine.modMbx
  split
  · exact HostOnly.setMbx _ _ _
  · exact HostOnly.refl d

theorem HostOnly.each {α : Type} (d : Dev) (xs : List α) (f : Dev → α → Dev) (h : ∀ d x, HostOnly d (f d x)) : HostOnly d (each d xs f) := by
  induction xs generalizing d with
  | nil => exact HostOnly.refl d
  | cons x r ih => exact (h d x).trans (ih (f d x))

theorem HostOnly.sendMsix (d : Dev) (p n v : Nat) : HostOnly d (sendMsix d p n v) := by
  unfold Machine.sendMsix
  simp only
  split
  · exact HostOnly.refl d
  · split
    · exact HostOnly.modFn _ _ _ _
    · exact HostOnly.emit _ _

theorem HostOnly.updFn (d : Dev) (p n : Nat) (w : Bool) (g : Fn → Fn) : HostOnly d (updFn d p n w g) := by
  unfold Machine.updFn
  simp only
  split
  · exact (HostOnly.modFn d p n g).trans (HostOnly.sendMsix _ _ _ _)
  · exact HostOnly.modFn d p n g

theorem HostOnly.setDevChange (d : Dev) : HostOnly d (setDevChange d) := HostOnly.each _ _ _ (fun _ _ => HostOnly.updFn _ _ _ _ _)
theorem HostOnly.setWrDrop (d : Dev) (p n : Nat) : HostOnly d (setWrDrop d p n) := HostOnly.updFn _ _ _ _ _
theorem HostOnly.setAttachDone (d : Dev) (p n : Nat) : HostOnly d (setAttachDone d p n) := HostOnly.updFn _ _ _ _ _

theorem HostOnly.signalCq (d : Dev) (m : Nat) (x : Mbx) : HostOnly d (signalCq d m x) := by
  unfold Machine.signalCq
  split
  · exact HostOnly.sendMsix _ _ _ _
  · exact HostOnly.modMbx _ _ _

theorem HostOnly.signalEq (d : Dev) (m : Nat) (x : Mbx) : HostOnly d (signalEq d m x) := by
  unfold Machine.signalEq
  split
  · exact HostOnly.sendMsix _ _ _ _
  · exact HostOnly.modMbx _ _ _

theorem HostOnly.writeEvent (d : Dev) (m : Nat) (e : Ev) : HostOnly d (writeEvent d m e) := by
  unfold Machine.writeEvent
  split
  · exact HostOnly.refl d
  · exact ((HostOnly.emit d _).trans (HostOnly.setMbx _ _ _)).trans (HostOnly.signalEq _ _ _)

theorem HostOnly.writeLost (d : Dev) (m : Nat) : HostOnly d (writeLost d m) := by
  unfold Machine.writeLost
  split
  · exact HostOnly.refl d
  · exact (HostOnly.writeEvent _ _ _).trans (HostOnly.modMbx _ _ _)

theorem HostOnly.postEvent (d : Dev) (m : Nat) (e : Ev) : HostOnly d (postEvent d m e) := by
  unfold Machine.postEvent
  split
  · exact HostOnly.refl d
  · rename_i x _
    by_cases h : eqFree x < (if x.lost = 0 then 1 else 2)
    · rw [if_pos h]
      exact HostOnly.modMbx _ _ _
    · rw [if_neg h]
      refine HostOnly.trans ?_ (HostOnly.writeEvent _ _ _)
      split
      · exact HostOnly.refl d
      · exact HostOnly.writeLost _ _

/-- Raising an event changes no unit. -/
theorem HostOnly.raise (d : Dev) (e : Ev) : HostOnly d (raise d e) := by
  refine HostOnly.each _ _ _ (fun d m => ?_)
  split
  · split
    · exact HostOnly.postEvent _ _ _
    · exact HostOnly.refl d
  · exact HostOnly.refl d

theorem HostOnly.reply (d : Dev) (m : Nat) (c : Sc) (a b e : DWord) : HostOnly d (reply d m c a b e) := by
  unfold Machine.reply
  split
  · exact HostOnly.refl d
  · split
    · exact HostOnly.refl d
    · exact ((HostOnly.emit d _).trans (HostOnly.setMbx _ _ _)).trans (HostOnly.signalCq _ _ _)

/-- A reply changes no unit: outputs, functions, mailboxes, and the order of the requests begun. -/
theorem finish_frame (d : Dev) (m : Nat) (c : Sc) (a b e : DWord) :
    HostOnly { d with begun := d.begun.filter (· != m) } (finish d m c a b e) :=
  (HostOnly.reply _ _ _ _ _ _).trans (HostOnly.modMbx _ _ _)

/-- Entering a device state changes the state, and tells the hosts. -/
theorem setDState_frame (d : Dev) (n : DState) (c : DWord) : HostOnly { d with dstate := n } (setDState d n c) := by
  unfold setDState
  split
  · rename_i h
    subst h
    exact HostOnly.refl d
  · exact (HostOnly.setDevChange _).trans (HostOnly.raise _ _)

end Sys2Proof.Machine
end

