-- ==== Sys2Proof/Laws/Settle.lean ====
section
/-! SUPPORT. What follows a command at once: nothing on a calm device, and after it no report is left. -/

namespace Sys2Proof.Machine

/-- On a device without reports, deliveries, rounds that wait for QUIET and commits under way, nothing follows. -/
theorem settle_calm (d : Dev) (h : Calm d) : settle d = d := by
  simp [settle, h.1.1, h.1.2, h.2.1, h.2.2]

/-- What follows a command looks at the tasks alone, beside reports and deliveries. -/
theorem anyTask_tasks (d e : Dev) (p : Task → Bool) (h : e.tasks = d.tasks) : anyTask e p = anyTask d p := by
  unfold anyTask
  rw [h]

/-- A change that leaves reports, deliveries and tasks alone keeps the device calm. -/
theorem Calm.of_eq {d e : Dev} (h : Calm d) (r : e.reports = d.reports ∧ e.delivered = d.delivered) (t : e.tasks = d.tasks) : Calm e := by
  refine ⟨⟨r.1.trans h.1.1, r.2.trans h.1.2⟩, ?_, ?_⟩
  · exact (anyTask_tasks d e _ t).trans h.2.1
  · exact (anyTask_tasks d e _ t).trans h.2.2

theorem Calm.host {d e : Dev} (h : Calm d) (g : HostOnly d e) : Calm e := h.of_eq g.keeps.2.1 g.keeps.2.2

theorem onReports_reports (n : Nat) (d : Dev) : (onReports n d).reports = [] := by
  induction n generalizing d with
  | zero => rfl
  | succ n ih =>
    unfold onReports
    split
    · rename_i h
      exact List.isEmpty_iff.mp h
    · exact ih _

/-- A command of a unit with power, on a device that its operation leaves calm. -/
theorem run_calm (f : Dev → Dev) (s : State) (h : s.d.dstate ≠ .off) (g : Calm (f s.d)) : run f s = .next { s with d := f s.d } := by
  simp [run, powered, h, settle_calm _ g]

theorem runBoard_calm (f : Dev → Dev) (s : State) (g : Calm (f s.d)) : runBoard f s = .next { s with d := f s.d } := by
  simp [runBoard, settle_calm _ g]

theorem runPair_calm (e : Eng) (f : Dev → Dev) (s : State) (p : present s.d e.val) (h : s.d.dstate ≠ .off) (g : Calm (f s.d)) :
    runPair e f s = .next { s with d := f s.d } := by
  simp [runPair, p, run_calm f s h g]

end Sys2Proof.Machine
end

