-- ==== Sys2Proof/Tests/Slice0.lean ====
section
/-! SUPPORT. The model's own tests: well-formedness, a concrete state for the hypotheses of each statement, and small
steps with results taken from the spec. -/

namespace Sys2Proof.Tests

open Sys2Proof.Machine

set_option Elab.async false

/-! ### Helpers -/

/-- A state with an empty queue. -/
abbrev on (d : Dev) : State := { d := d }

/-- The outcome is a next state whose device passes a test. -/
def gives (o : Host.Outcome State Fault Refusal) (p : Dev → Bool) : Bool :=
  match o with
  | .next t => p t.d
  | _ => false

/-- A device in READY whose pair 0 is `p`, with bytes in its tile store. -/
def onPair0 (p : Pair) (bs : List Byte) : Dev := { dstate := .ready, pairs := [(0, p)], tiles := [(0, Mem.write [] 0 bs)] }

def words (ws : List DWord) : List Byte := ws.flatMap (fun w => leBytes 8 w.toNat)

/-! ### The vector engine -/

/-- A running VE whose program is the one word with these nonzero bytes. -/
def veOf (bs : Mem) : Dev := { dstate := .ready, pairs := [(0, { ve := { run := true } })], tiles := [(0, bs)] }

/-- One word for each instruction that uses register 0 alone, but for guard destinations, which are G1 (Tables 5-2 to 5-4). -/
def veWords : List Nat :=
  [0x0000000000000000, 0x0100200000000000, 0x0200200000000000, 0x0300200000000000, 0x0400200000000000, 0x0500200000000000,
    0x0600200000000000, 0x0700200000000000, 0x0808200000000000, 0x0900200000000000, 0x0A00200000000000, 0x1000200000000000,
    0x1100200000000000, 0x1200200000000000, 0x1300200000000000, 0x1408200000000000, 0x1800200100000000, 0x1900200300000000,
    0x1A00000000000000, 0x1B00000000000000, 0x2000200000000000, 0x2100200000000000, 0x2200200000000000, 0x2308200000000000,
    0x2400200000000000, 0x2808000000000000, 0x3000000000000000, 0x3100000000000000, 0x3200000100000000, 0x3300000100000000,
    0x3400000100000000, 0x3800000000000000, 0x3900000000000000, 0x3A00000000000000, 0x3B00000000000000, 0x3C00000000000000,
    0x4000000000000000, 0x4100200000000000, 0x4200000000000000, 0x4300200000000000, 0x4400200000000000, 0x5000000000000007,
    0x5100000000000007, 0x5200000000000007, 0x5300000000000000, 0x5400000000000000, 0x5504000000000000, 0x5800000000400002,
    0x5900000000000000, 0x5A00000000000005, 0x5B00000000000005, 0x5C00000000000001, 0x5D00000000000001]

/-- Each of these words passes its checks. -/
theorem witness_VeWords : ∀ w ∈ veWords, wordCheck (BitVec.ofNat 64 w) = none := by decide +kernel

/-- VeBinaryLanes, VeScalarResults, VeLoads, VeProgramFlow: IADD, SSET, LD and HALT are each the next instruction of a VE that runs. -/
theorem witness_VeReady :
    VeReady (veOf [(5, 0x20#8), (7, 0x10#8)]) 0 0x1000200000000000#64 (vBin 1) ∧
    VeReady (veOf [(0, 7#8), (7, 0x50#8)]) 0 0x5000000000000007#64 { scalar := true, d := true, imm := 0xFFFFFFFF, lat := 1 } ∧
    VeReady (veOf [(5, 0x20#8), (7, 0x20#8)]) 0 0x2000200000000000#64 { d := true, g := true, b := .mem, modHi := 2, lat := 6 } ∧
    VeReady (veOf [(0, 1#8), (7, 0x5D#8)]) 0 0x5D00000000000001#64 { scalar := true, imm := 0xFF } := by
  refine ⟨?_, ?_, ?_, ?_⟩ <;> (unfold VeReady Awake Calm; decide +kernel)

/-- VeLaneResults, VeGuardResults, VeStores, VeExactAccumulator: ITOF, FCMP, ST, XADD and XMRG likewise. -/
theorem witness_VeReadyMore :
    VeReady (veOf [(7, 0x1A#8)]) 0 0x1A00000000000000#64 (vUn 3 1) ∧
    VeReady (veOf [(5, 0x20#8), (6, 8#8), (7, 0x08#8)]) 0 0x0808200000000000#64 { vBin 2 with dg := true, modHi := 5 } ∧
    VeReady (veOf [(5, 0x20#8), (7, 0x21#8)]) 0 0x2100200000000000#64 { a := true, g := true, b := .mem, modHi := 8 } ∧
    VeReady (veOf [(5, 0x20#8), (7, 0x41#8)]) 0 0x4100200000000000#64 { a := true, g := true, b := .xadd, modHi := 1, lat := 18, occ := 16 } ∧
    VeReady (veOf [(5, 0x20#8), (7, 0x44#8)]) 0 0x4400200000000000#64 { b := .mem, lat := 18, occ := 24 } := by
  refine ⟨?_, ?_, ?_, ?_, ?_⟩ <;> (unfold VeReady Awake Calm; decide +kernel)

/-- VeProgramFlow: LOOP of one instruction, POPQ, PUSHQ and GROUP likewise. -/
theorem witness_VeReadyFlow :
    VeReady (veOf [(0, 2#8), (2, 0x40#8), (7, 0x58#8)]) 0 0x5800000000400002#64 { scalar := true, modHi := 1, imm := 0xFFFFFFFF } ∧
    VeReady (veOf [(0, 5#8), (7, 0x5A#8)]) 0 0x5A00000000000005#64 { scalar := true, d := true, pd := true, imm := 0x7FFF, lat := 8 } ∧
    VeReady (veOf [(0, 5#8), (7, 0x5B#8)]) 0 0x5B00000000000005#64 { scalar := true, a := true, pa := true, imm := 0x7FFF } ∧
    VeReady (veOf [(0, 1#8), (7, 0x5C#8)]) 0 0x5C00000000000001#64 { scalar := true, imm := 0x1FF } := by
  refine ⟨?_, ?_, ?_, ?_⟩ <;> (unfold VeReady Awake Calm; decide +kernel)

/-- Each row of the statements on lanes, guards, scalars, loads and stores is one of those words. -/
theorem witness_VeRows :
    (binRows 0).all (fun r => (veWords.map (· / 2 ^ 56)).contains r.1) && (laneRows 0).all (fun r => (veWords.map (· / 2 ^ 56)).contains r.1) &&
    (guardRows 0).all (fun r => (veWords.map (· / 2 ^ 56)).contains r.1) && (scalarRows 0).all (fun r => (veWords.map (· / 2 ^ 56)).contains r.1) &&
    (loadRows 0).all (fun r => (veWords.map (· / 2 ^ 56)).contains r.1) && (storeRows 0).all (fun r => (veWords.map (· / 2 ^ 56)).contains r.1) = true := by decide +kernel

/-- VeLoads, VeStores, VeExactAccumulator: the last bytes of the operand cache can be read and written. -/
theorem witness_VeAccess :
    (∀ r ∈ loadRows 0, accessAddr {} (BitVec.ofNat 64 (r.1 * 2 ^ 56 + 2 ^ 45)) 64 (r.2.2.1 (BitVec.ofNat 64 (r.1 * 2 ^ 56 + 2 ^ 45))) = some 0) ∧
    (∀ r ∈ storeRows 0, accessAddr {} (BitVec.ofNat 64 (r.1 * 2 ^ 56 + 2 ^ 45)) r.2.2.1 (r.2.2.2.1 (BitVec.ofNat 64 (r.1 * 2 ^ 56 + 2 ^ 45))) = some 0) ∧
    accessAddr { scalars := [(0, 0x7FE0#32)] } (0x2000200000000000#64) 64 2048 = some (cacheBytes - 2048) ∧ accessAddr {} (0x4400200000000000#64) 64 1536 = some 0 := by decide +kernel

/-- VeRefusal: outside the tile store, and an opcode of no row. -/
theorem witness_VeRefusal :
    Awake (onPair0 { ve := { run := true, base := 262143, pcNext := 8 } } []) ∧ veFetchFits { run := true, base := 262143, pcNext := 8 } = false ∧
    veFetchFits { run := true, base := 262143, pcNext := 7 } = true ∧ runsTask (onPair0 { ve := { run := true } } []) 0 = false ∧
    vInfo (veFetch (veOf [(7, 0xFF#8)]) 0) = none ∧ veHeld (veOf [(7, 0xFF#8)]) { run := true } = false ∧ veHeld (veOf []) { run := true, base := 262143, pcNext := 8 } = false := by unfold Awake Calm; decide +kernel

/-- VeControl: a stopped and a running VE. -/
theorem witness_VeControl : Awake (onPair0 {} []) ∧ Awake (onPair0 { ve := { run := true } } []) ∧ present (onPair0 {} []) 0 = true := by
  unfold Awake Calm; decide +kernel

/-- VeGroupCompletes: a closer in time and one late. -/
theorem witness_VeGroupCompletes :
    Awake (onPair0 { ve := { run := true, closers := [{ stop := 1, ready := 0 }] } } []) ∧
    beatEclk (onPair0 {} []) 1 < 2000000 ∧ ({ stop := 1, ready := 2000000 } : Closer).popWait = false := by unfold Awake Calm; decide +kernel

/-- R143: 1 + 2 = 3, 2 × 3 = 6, 1 × 2 + 3 = 5, −(1 × 2) + 3 = 1. -/
theorem test_fp32 : fadd 0x3F800000 0x40000000 = 0x40400000#32 ∧ fsub 0x40400000 0x3F800000 = 0x40000000#32 ∧ fmul 0x40000000 0x40400000 = 0x40C00000#32 ∧
    ffma 0x3F800000 0x40000000 0x40400000 = 0x40A00000#32 ∧ ffnma 0x3F800000 0x40000000 0x40400000 = 0x3F800000#32 := by decide +kernel

/-- R154: 2³ = 8, log₂ 8 = 3, 1/4, 1/√4, tanh 0. -/
theorem test_functions : exp2W 0x40400000 = 0x41000000#32 ∧ log2W 0x41000000 = 0x40400000#32 ∧ rcpW 0x40800000 = 0x3E800000#32 ∧
    rsqrtW 0x40800000 = 0x3F000000#32 ∧ tanhW 0 = 0#32 := by decide +kernel

/-- Table 5-4: integers wrap at 2³², and minima are of signed integers. -/
theorem test_integers : (binRows 0).map (fun r => r.2.2 0xFFFFFFFF#32 2#32) |>.drop 5 |> (· = [1#32, 0xFFFFFFFD#32, 0xFFFFFFFF#32, 2#32]) := by decide +kernel

/-- Table 5-4: SSET writes its immediate, and the issue is counted; SADD64 carries from the low to the high word of the pair. -/
theorem test_scalars :
    gives (exec (.sset 0) (on (veOf [(0, 7#8), (7, 0x50#8)]))) (fun d => scalar (pair d 0) 0 == 7 && (pair d 0).ve.issueCnt == 1) = true ∧
    gives (exec (.sadd64 0) (on { veOf [(0, 7#8), (7, 0x52#8)] with pairs := [(0, { ve := { run := true }, scalars := [(0, 0xFFFFFFFF#32)] })] }))
      (fun d => scalar (pair d 0) 0 == 6 && scalar (pair d 0) 1 == 1) = true := by decide +kernel

/-- R140, R145: ST writes the lanes of its guard and no others, least significant byte first. -/
theorem test_st : storePieces 0 2#512 [0x55667788#32, 0x11223344#32] = [(4, [0x44#8, 0x33#8, 0x22#8, 0x11#8])] := by decide +kernel

/-! ### Sequencers and the array -/

/-- Pair 0 of a module in READY, with nonzero bytes of its tile store. -/
def pairOf0 (p : Pair) (bs : Mem) : Dev := { dstate := .ready, pairs := [(0, p)], tiles := [(0, bs)] }

/-- A SLICE of one row and one column with `K` 0, a LINK to address 5, a HALT of one beat. -/
def sliceDesc : SDesc := { w0 := 0x1000000000804000#64, w1 := 0x1100000 }
def linkDesc : SDesc := { w0 := 0x2000000000000000#64, w1 := 5 }
def haltDesc : SDesc := { w0 := 0x3010000000000000#64 }
def sliceBytes : Mem := [(1, 0x40#8), (2, 0x80#8), (7, 0x10#8), (10, 0x10#8), (11, 0x01#8)]
/-- The same SLICE with `K` 32. -/
def longDesc : SDesc := { w0 := 0x1000002000804000#64, w1 := 0x1100000 }
def inArray (x : SDesc) : Flight := { t := { d := x, pc := 0 }, first := 0, cL := 0, bank := false }

/-- SeqStartAndAbort: a `SEQ_CONFIG` in range and one out of it, on a stopped and on a running sequencer. -/
theorem witness_SeqStartAndAbort :
    Awake (pairOf0 {} []) ∧ present (pairOf0 {} []) 0 = true ∧ Awake (pairOf0 { seq := { run := true } } []) ∧
    4 ≤ fld (accWrite seqRw 0 0 0x0040000000000000#64) 55 52 ∧ ¬ 4 ≤ fld (accWrite seqRw 0 0 0x0030000000000000#64) 55 52 := by
  unfold Awake Calm; decide +kernel

/-- SliceTakesUpLink, SliceTakesUpWork: a LINK, a SLICE and a HALT are each the next descriptor and pass their checks. -/
theorem witness_NextDesc :
    (NextDesc (pairOf0 { seq := { run := true } } [(7, 0x20#8), (8, 5#8)]) 0 linkDesc ∧ linkDesc.kind = 2 ∧ linkCheck linkDesc = none) ∧
    (NextDesc (pairOf0 { seq := { run := true } } sliceBytes) 0 sliceDesc ∧ sliceDesc.kind = 1 ∧ sliceCheck {} { run := true } sliceDesc = none) ∧
    (NextDesc (pairOf0 { seq := { run := true } } [(6, 0x10#8), (7, 0x30#8)]) 0 haltDesc ∧ haltDesc.kind = 3 ∧ haltCheck haltDesc = none) := by
  unfold NextDesc Awake Calm; decide +kernel

/-- SliceRefusal: beyond the tile store, of no kind, and one descriptor of each kind that its checks refuse. -/
theorem witness_SliceRefusal :
    Awake (pairOf0 { seq := { run := true } } []) ∧ runsTask (pairOf0 {} []) 0 = false ∧ descFits 262144 = false ∧ descFits 262143 = true ∧
    (fetchDesc [] 0).kind = 0 ∧ sliceCheck {} { run := true } { w0 := 0x1000000000004000#64, w1 := 0x1100000 } = some .range ∧
    sliceCheck {} { run := true } { w0 := 0x1000000000804000#64, w1 := 0x1100000, w7 := 1 } = some .format ∧
    linkCheck { w0 := 0x2000000000000001#64 } = some .format ∧ haltCheck { w0 := 0x3000000000000000#64 } = some .range := by
  unfold Awake Calm; decide +kernel

/-- SliceIssues, IssueKeepsBounds: a taken-up slice that nothing holds. -/
theorem witness_SliceIssues :
    Awake (pairOf0 { seq := { run := true, cur := some { d := sliceDesc, pc := 0 } } } []) ∧
    issueBlocked (pairOf0 {} []) {} { run := true, cur := some { d := sliceDesc, pc := 0 } } { d := sliceDesc, pc := 0 } = false := by
  unfold Awake Calm; decide +kernel

/-- WeightTileLoads, WindowPromotes, DrainWrites: a flight that still loads, one with a window to come, one with its drain due. -/
theorem witness_ArrayWork :
    ([{ inArray sliceDesc with loadDue := true }].find? (·.loadDue) = some { inArray sliceDesc with loadDue := true }) ∧
    (0 < windows longDesc ∧ longDesc.n ≤ 256) ∧ ((inArray sliceDesc).settled = true ∧ windows sliceDesc = 0) := by decide +kernel

/-- CheckCycleReplays: an unsettled attempt that has overflowed, the last and not the last, and one that has not. -/
theorem witness_CheckCycleReplays :
    let f : Flight := { inArray sliceDesc with settled := false, over' := true }
    (windows f.t.d ≤ f.win ∧ finalAttempt f = false) ∧ finalAttempt { f with tRef := 255 } = true ∧ finalAttempt { f with replays := 4 } = true := by decide +kernel

/-- SliceCompletes, HaltCompletes: a settled slice with its windows promoted, and a HALT that is alone. -/
theorem witness_Completes :
    Awake (pairOf0 { seq := { flight := [inArray sliceDesc] } } []) ∧ (inArray sliceDesc).loadDue = false ∧ (inArray sliceDesc).drainDue = false ∧
    Awake (pairOf0 { seq := { cur := some { d := haltDesc, pc := 0 } } } []) := by unfold Awake Calm; decide +kernel

/-- R100, its worked example: row 37 and the spare 257 are bypassed, columns 200 and 201 too; logical row 100 enters physical row 101, and
the last logical cell is physical (256, 257). -/
theorem test_repair :
    bypassedRows 0x000001B26C800225#64 = [37, 257] ∧ bypassedCols 0x000001B26C800225#64 = [200, 201] ∧ logicalLine [37, 257] 101 = some 100 ∧
    logicalLine [37, 257] 256 = some 255 ∧ logicalLine [200, 201] 257 = some 255 := by decide +kernel

/-- R123: a HALT sets `HALTED`, clears `RUN` and counts one record. -/
theorem test_halt :
    gives (exec (.haltDescriptor 0) (on (pairOf0 { seq := { run := true, cur := some { d := haltDesc, pc := 0 } } } [])))
      (fun d => (pair d 0).seq.halted && !(pair d 0).seq.run && (pair d 0).seq.doneCnt == 1) = true := by decide +kernel

/-! ### Handle queues, stream engines and memory -/

/-- Queue 5 of kennel 0, one biscuit deep. -/
def queue5 (items : List DWord) (ws : List Waiter) : Dev :=
  { dstate := .ready, hqs := [(5, { cfg := 0x8000000000000000#64, items := items, waiters := ws })] }

/-- Slot 0 of stream engine 0, with page 0 of kennel 0 in a state, readable and writable. -/
def slot0 (a : Active) (st : PgState) : Dev :=
  { dstate := .ready, ses := [(0, { slots := [(0, { act := some a })] })], dirs := [(0, 0x8000000000000000#64)]
    pages := [(0, { pte := 0xE000000000000000#64, st := st })] }

/-- A COPY of one row of 64 bytes between tile stores, and one into memory. -/
def copyDesc : Desc := { w0 := 0x1010000000000000#64, w1 := 0x1000000000000000#64, w2 := 0x1000000000000000#64, w3 := 0x0001000100010001#64 }
def copyOut : Desc := { copyDesc with w2 := 0x4000000000000000#64 }
def row64 : List Byte := List.replicate 64 7#8

/-- QueuePopTakes, QueuePopDenied: a queue with a biscuit, an empty one, and a disabled one that a sequencer pops; a pop that goes first, and one that an earlier
pop of a lower unit precedes. -/
theorem witness_QueuePops :
    Awake { queue5 [9] [] with popReqs := [⟨.fw, 0, 5, 0, 0⟩] } ∧ hqAllows (hq (queue5 [9] []) 5) 0 = true ∧
    takeFirst [(⟨.fw, 0, 5, 0, 0⟩ : PopReq)] (fun x => x.unit == UnitId.fw) = some (⟨.fw, 0, 5, 0, 0⟩, []) ∧ (hq (queue5 [] []) 5).items = [] ∧
    hqAllows (hq (queue5 [] []) 6) 0 = false ∧ popFirst { queue5 [9] [] with popReqs := [⟨.fw, 0, 5, 0, 0⟩] } ⟨.fw, 0, 5, 0, 0⟩ = true ∧
    (∃ r, popFirst { queue5 [9] [] with popReqs := [⟨.fw, 0, 5, 0, 0⟩, ⟨.seq 0, 0, 5, 0, 0⟩] } r = false) := by
  unfold Awake Calm
  and_intros <;> first | decide +kernel | exact ⟨⟨.fw, 0, 5, 0, 0⟩, by decide +kernel⟩ | exact ⟨⟨.seq 0, 0, 5, 0, 0⟩, by decide +kernel⟩

/-- QueuePushStores: a waiting pop, room, and a full queue; a first push and a retry. -/
theorem witness_QueuePushes :
    PushComes { queue5 [] [] with pushReqs := [⟨.fw, 5, 0, 3, 0, false⟩] } .fw (.queuePush .fw) ⟨.fw, 5, 0, 3, 0, false⟩ [] ∧
    PushComes { queue5 [] [] with pushReqs := [⟨.fw, 5, 0, 3, 0, true⟩] } .fw (.pushRetry .fw) ⟨.fw, 5, 0, 3, 0, true⟩ [] ∧
    Awake (queue5 [] []) ∧ (hq (queue5 [] []) 5).items.length < (hq (queue5 [] []) 5).depth ∧ (hq (queue5 [9] []) 5).depth ≤ (hq (queue5 [9] []) 5).items.length ∧
    (hq (queue5 [] [⟨.fw, 0, 0⟩]) 5).waiters = [⟨.fw, 0, 0⟩] := by unfold PushComes Awake Calm; decide +kernel

/-- BiscuitArrives: at a sequencer, a VE with a POPQ under way, a slot, a take-up that waits for two, and firmware. -/
theorem witness_BiscuitArrives :
    let a : Active := { desc := copyDesc, gen := 0, kennel := 0, next := 1, reps := [{ num := 0, popsLeft := 1 }] }
    let z : Dev := { slot0 a .zero with arrivals := [⟨.zl 0, 0, 9, 8⟩], takeUps := [(0, [{ litter := 0, kennel := 0, ofs := 0, asked := true, popsLeft := 2 }])] }
    takeFirst [(⟨.ve 0, 0, 9, 8⟩ : Arrival)] (fun a => a.unit == UnitId.ve 0) = some (⟨.ve 0, 0, 9, 8⟩, []) ∧
    Awake { pairOf0 { ve := { run := true, popTo := some (2, 0) } } [] with arrivals := [⟨.ve 0, 0, 9, 8⟩] } ∧
    (Awake { slot0 a .zero with arrivals := [⟨.se 0 0, 0, 9, 8⟩] } ∧ (sslot (slot0 a .zero) 0 0).act = some a) ∧
    (Awake z ∧ takeUps z 0 = [{ litter := 0, kennel := 0, ofs := 0, asked := true, popsLeft := 2 }]) ∧ takesReports (slot0 a .zero) 0 = false := by
  unfold Awake Calm; decide +kernel

/-- ShadowMoves, RepetitionPopsRequested: a shadow over an empty position; a descriptor whose turn has come. -/
theorem witness_SlotsBegin :
    let a : Active := { desc := copyDesc, gen := 0, kennel := 0 }
    Awake { dstate := .ready, ses := [(0, { slots := [(0, { shd := some (copyDesc, 1, 0, 0) })] })] } ∧ InSlot (slot0 a .zero) 0 0 a ∧ Awake (slot0 a .zero) ∧
    a.waiting = false ∧ a.next ≤ a.desc.rep ∧ a.reps.getLast? = none ∧ a.desc.align = false ∧ popsOutstanding (slot0 a .zero) (seUnit 0) + (popList (slot0 a .zero) copyDesc).length ≤ 64 ∧
    ({ a with next := 1 } : Active).next = a.desc.rep + 1 := by
  unfold InSlot Awake Calm; decide +kernel

/-- RepetitionReadsStage: a store read for memory, a store read for another store, and a biscuit too short for the row. -/
theorem witness_RepetitionReads :
    let d (r : Rep) (x : Desc) : Dev := slot0 { desc := x, gen := 0, kennel := 0, next := 1, reps := [r] } .near
    let r : Rep := { num := 0 }
    let bad : Rep := { num := 0, biscuits := [(0, 0x1000000000000000#64)] }
    let far : Desc := { copyDesc with w2 := 0x2000000000000000#64 }
    (Awake (d r copyOut) ∧ nextSlot (d r copyOut) 0 = some 0 ∧ repCheck (d r copyOut) 0 copyOut r = none ∧ isStore (placeOf copyOut r true).sp = true ∧ destMem copyOut r = true ∧
      0 < repBytes copyOut r ∧ repBytes copyOut r ≤ stageRoom (d r copyOut) 0) ∧
    (nextSlot (d r far) 0 = some 0 ∧ repCheck (d r far) 0 far r = none ∧ isStore (placeOf far r false).sp = true ∧ (placeOf far r false).sp ≠ (placeOf far r true).sp ∧
      0 ≤ (placeOf far r false).base ∧ 0 ≤ (placeOf far r true).base ∧ 64 ≤ stageRoom (d r far) 0) ∧
    nextSlot (d bad copyOut) 0 = some 0 ∧ repCheck (d bad copyOut) 0 { copyOut with w1 := 0xF000000000000000#64 } bad = some .range := by
  unfold Awake Calm; decide +kernel

/-- MemoryReadServes: a read of a NEAR page, of a ZERO page, of one that the kennel may not read, and of a poisoned line. -/
theorem witness_MemoryRead :
    let p : Piece := { off := 0, addr := 0, len := 64, src := .memory, issued := some 0 }
    let a : Active := { desc := copyDesc, gen := 0, kennel := 0, next := 1, reps := [{ num := 0, reading := true, cursor := 64, pieces := [p] }] }
    let q : Dev := { slot0 a .near with pages := [(0, { pte := 0xE000000000000000#64, st := .near, poison := [0] })] }
    (Awake (slot0 a .near) ∧ InSlot (slot0 a .near) 0 0 a ∧ firstRead a = some (0, p) ∧ (∀ q ∈ mdieReads (slot0 a .near) (homeOf (slot0 a .near) 0 0), goesFirst q p = false) ∧
      tableBad (slot0 a .near) 0 0 = false ∧ canRead (slot0 a .near) 0 0 = true ∧ (peek (slot0 a .near) 0 0 64).1 = .ok) ∧
    (page (slot0 a .zero) 0 0).st = .zero ∧ canRead { slot0 a .near with pages := [] } 0 0 = false ∧ (peek q 0 0 64).1 = .poison ∧ a.desc.leash = 0 := by
  unfold InSlot Awake Calm; decide +kernel

/-- A slot that writes a staged row into memory, 64 bytes at its address. -/
def writing (a : Nat) : Active :=
  { desc := { copyOut with w2 := copyOut.w2 ||| BitVec.ofNat 64 (a / 64 * 65536) }, gen := 0, kennel := 0, next := 1
    reps := [{ num := 0, reading := true, cursor := 64, pieces := [{ off := 0, addr := 0, len := 64, src := .store, issued := some 0, bytes := some row64 }] }] }

/-- MemoryWriteApplies, MemoryWriteDenied: its bytes go next, to a page NEAR or PROMOTING that is writable, and to one that is not mapped. -/
theorem witness_MemoryWrite :
    let r : Rep := { num := 0, reading := true, cursor := 64, pieces := [{ off := 0, addr := 0, len := 64, src := .store, issued := some 0, bytes := some row64 }] }
    let p : Piece := { off := 0, addr := 0, len := 64, src := .store, issued := some 0, bytes := some row64 }
    WritesNext (slot0 (writing 0) .near) 0 0 (writing 0) r p [] row64 0 ∧ WritesNext (slot0 (writing 0) .promoting) 0 0 (writing 0) r p [] row64 0 ∧
    canWrite (slot0 (writing 0) .near) 0 0 = true ∧ Awake (slot0 (writing 0) .near) ∧
    WritesNext (slot0 (writing pageBytes) .near) 0 0 (writing pageBytes) r p [] row64 pageBytes ∧ canWrite (slot0 (writing pageBytes) .near) 0 pageBytes = false ∧
    runsTask (slot0 (writing 0) .near) 0 = false := by
  unfold WritesNext InSlot Awake Calm; decide +kernel

/-- RepetitionCompletes: a COPY between stores that has written its row, without and with a push, the last repetition and one before it, a
gather that stopped, and one with bytes still to write. -/
theorem witness_RepetitionCompletes :
    let r : Rep := { num := 0, reading := true, cursor := 64 }
    let a (x : Desc) (r : Rep) : Active := { desc := x, gen := 0, kennel := 0, next := 1, reps := [r] }
    let push : Desc := { copyDesc with w4 := 0x8005_0000#64, w2 := 0 }
    let three : Desc := { copyDesc with w0 := 0x1010030000000000#64 }
    let g : Rep := { r with cursor := 0, stopRow := some 0 }
    (Awake (slot0 (a copyDesc r) .zero) ∧ writer (a copyDesc r) = some r ∧ repComplete (slot0 (a copyDesc r) .zero) 0 0 copyDesc r = true ∧
      pushList (slot0 (a copyDesc r) .zero) copyDesc r = [] ∧ copyDesc.rep < (a copyDesc r).next ∧ (a three r).next ≤ three.rep) ∧
    (pushList (slot0 (a push r) .zero) push r).length = 1 ∧ repComplete (slot0 (a copyDesc g) .zero) 0 0 copyDesc g = true ∧
    repComplete (slot0 (a copyDesc r) .zero) 0 0 copyDesc { r with cursor := 0 } = false := by unfold Awake Calm; decide +kernel

/-- RunaheadFetches: the next block of a NEAR page with a watch share and without one, and of a page that the kennel may not read. -/
theorem witness_Runahead :
    let x : Desc := { copyDesc with w0 := 0x1010000100000000#64, w1 := 0x4000000000000000#64, w3 := 0 }
    let r : Rep := { num := 0, reading := true }
    let a : Active := { desc := x, gen := 0, kennel := 0, next := 1, reps := [r] }
    let d (w : DWord) : Dev := { slot0 a .near with kennels := [(0, { st := .live, quota := { w3 := w } })] }
    let share : DWord := put 64 12 8 ||| put 64 0 0x800
    (Awake (d share) ∧ 0 < x.runahead * 4096 ∧ readsIssued x r = true ∧ (placeOf x r true).sp = 4 ∧ 0 < stageRoom (d share) 0 ∧ inSpace (sourceEnd x r) 1 = some 0 ∧
      aheadPage (d share) 0 0 = true ∧ (takeEntry (d share) 0 0 0 0).2 = true ∧ (peek (d share) 0 0 4096).1 = .ok) ∧
    (takeEntry (d 0) 0 0 0 0).2 = false ∧ aheadPage { d share with pages := [] } 0 0 = false := by unfold Awake Calm; decide +kernel

/-- WatchGranted: a prefetch that waited, and an entry to take. -/
theorem witness_WatchGranted :
    let a : Active := { desc := copyDesc, gen := 0, kennel := 0, next := 1, reps := [{ num := 0, reading := true, cursor := 64, pieces := [{ off := 0, addr := 0, len := 64, src := .memory }] }] }
    let d : Dev := { slot0 a .near with watchQ := [(0, 0, 0, 0)], kennels := [(0, { st := .live, quota := { w3 := 0x800 } })] }
    Awake d ∧ d.watchQ.find? (waiterReady d 0) = some (0, 0, 0, 0) ∧ (sslot d 0 0).act = some a ∧ { d with watchQ := [] }.watchQ.find? (waiterReady d 0) = none ∧
    unwatched { off := 0, addr := 0, len := 64, src := .memory } = true := by unfold Awake Calm; decide +kernel

/-- LeashFires: a boundary passed with a read that has not come, and a dormant descriptor in slot 1; a descriptor without a leash. -/
theorem witness_LeashFires :
    let r : Rep := { num := 0, reading := true, cursor := 64, pieces := [{ off := 0, addr := 0, len := 64, src := .memory, issued := some 0 }] }
    let a : Active := { desc := { copyDesc with w0 := 0x1010000001000000#64, w7 := 0x8400000000000000#64 }, gen := 0, kennel := 0, next := 1, reps := [r] }
    let f : Active := { desc := copyDesc, gen := 0, kennel := 0, waiting := true }
    let d : Dev := { dstate := .ready, eclk := 10000000, ses := [(0, { slots := [(0, { act := some a }), (1, { act := some f })] })] }
    Awake d ∧ a.desc.leash ≠ 0 ∧ repStart a r.num + a.desc.leash ≤ beatNow d ∧ leashLate a r = true ∧ (sslot d 0 a.desc.fbSlot).act = some f ∧ a.desc.fbEn = true ∧ a.desc.fbSlot ≠ 0 ∧
    a.desc.rep < a.next ∧ copyDesc.leash = 0 := by unfold Awake Calm; decide +kernel

/-- MigrationsMovePages: a promotion and a demotion that can start, and each at its end; an image with a bad map entry. -/
theorem witness_Migrations :
    let d (st : PgState) (up running : Bool) : Dev := { slot0 { desc := copyDesc, gen := 0, kennel := 0 } st with
      mdies := [(0, { migs := [⟨0, up, 5, running⟩] })], kennels := [(0, { st := .live, quota := { w1 := 0x0000040000000001#64 } })] }
    (Awake (d .far true false) ∧ (mdie (d .far true false) 0).migs.filter (canStart (d .far true false) 0) = [⟨0, true, 5, false⟩] ∧ wantFrame (d .far true false) 0 = []) ∧
    (Awake (d .near false false) ∧ (mdie (d .near false false) 0).migs.filter (canStart (d .near false false) 0) = [⟨0, false, 5, false⟩]) ∧
    (mdie (d .promoting true true) 0).migs.find? (fun x => x.key == 0 && x.running) = some ⟨0, true, 5, true⟩ ∧ mapBad (page (d .promoting true true) 0 0) = false ∧
    mapBad { image := [(0, { map := 0xFFFF })] } = true ∧ wantFrame (d .demoting false true) 0 = [] ∧ pageKey 0 0 = 0 ∧ (page (d .far true false) 0 0).home = 0 := by
  unfold Awake Calm; decide +kernel

/-- FrameWaitEnds: a first write that has waited 16 beats of a kennel without frames, and one of a kennel with a frame. -/
theorem witness_FrameWait :
    let a : Active := { desc := copyOut, gen := 0, kennel := 0 }
    let d (w : DWord) : Dev := { slot0 a .zero with eclk := 10000000, waits := [⟨0, 0, row64, .stream 0 0, 0⟩], kennels := [(0, { st := .live, quota := { w1 := w } })] }
    Awake (d 0) ∧ (page (d 0) 0 0).st = .zero ∧ frameReady (d 0) 0 0 = false ∧ (mdie (d 0) 0).freedAt = none ∧ due (d 0) 0 (16 * beatPeriod (d 0) * 3 / 2) = true ∧
    frameReady (d 0x0000040000000001#64) 0 0 = true ∧ InSlot (d 0) 0 0 a := by unfold InSlot Awake Calm; decide +kernel

/-- R186: a pop takes the oldest biscuit, which arrives 8 ECLK later. -/
theorem test_pop :
    gives (exec (.queuePop .fw) (on { queue5 [9, 4] [] with popReqs := [⟨.fw, 0, 5, 0, 20⟩] }))
      (fun d => (hq d 5).items == [4] && d.arrivals == [⟨.fw, 0, 9, 28⟩]) = true := by decide +kernel

/-- R187: a push that meets the full queue is tried again 16 ECLK later. -/
theorem test_push_full :
    gives (exec (.queuePush .fw) (on { queue5 [9] [] with pushReqs := [⟨.fw, 5, 0, 3, 20, false⟩] }))
      (fun d => (hq d 5).fullCnt == 1 && d.pushReqs == [⟨.fw, 5, 0, 3, 36, true⟩]) = true := by decide +kernel

/-- R227, Table 7-8: a block of zeros and its image give the bytes back. -/
theorem test_block : (decodeBlock {}).1 = .ok ∧ (decodeBlock {}).2.length = 4096 := by decide +kernel

/-! ### Zholin ports, trees and recovery -/

/-- Port 0, with kennels 0 and 1 that hold link keys. -/
def linked (x : Port) : Dev := { dstate := .ready, ports := [(0, x)], kennels := [(0, { cur := some {} }), (1, { st := .live, cur := some {} })] }
def upPort : Port := { st := .up, kmask := 3 }
def rx (ty c k : Nat) (tsf : DWord) (pay : List Byte) : RxFlit := { flit := { ftype := ty, tc := c, ktag := k, tsf := tsf, pay := pay } }

theorem received {d : Dev} {p : PortId} {r : RxFlit} {row : FlitRow} (h : Awake d ∧ flitRow r.flit = row ∧ (rxCheck d p.toNat r).2 = some (held r)) :
    Received d p r row (rxCheck d p.toNat r).1 := ⟨h.1, h.2.1, Prod.ext rfl h.2.2⟩

/-- PortBringUp, QualifyingEnds, PcsLossRetrains: a port in each state of Table 8-2, with its time gone by. -/
theorem witness_PortStates :
    (∀ st ∈ [PState.disabled, .training, .qualifying, .negotiating, .up, .failed], Awake { linked { st := st } with eclk := 1000000000 }) ∧
    due { linked {} with eclk := 1000000000 } 0 (ms 500) = true ∧ bit (0x8000000000000000#64) 63 = true ∧ bit ({} : Port).cfg 63 = false ∧ (linked upPort).tasks = [] := by
  unfold Awake Calm; decide +kernel

/-- NegotiationAgrees: NEG with a common version and without one, NEG_DONE with the version chosen. -/
theorem witness_Neg :
    let x : Port := { st := .negotiating }
    let y : Port := { st := .negotiating, link := { chosen := some 2 } }
    let neg := rx 1 0 0 0x01C0000000000000#64 []
    let bare := rx 1 0 0 0x0100000000000000#64 []
    let done := rx 1 0 0 0x0280000000000000#64 []
    Received (linked x) 0 neg .neg (rxCheck (linked x) 0 neg).1 ∧ Received (linked x) 0 bare .neg (rxCheck (linked x) 0 bare).1 ∧
    Received (linked y) 0 done .negDone (rxCheck (linked y) 0 done).1 :=
  ⟨received (by unfold Awake Calm; decide +kernel), received (by unfold Awake Calm; decide +kernel),
    received (by unfold Awake Calm; decide +kernel)⟩

theorem witness_NegFields :
    fld (0x01C0000000000000#64) 55 54 &&& fld ({} : Port).cfg 61 60 = 3 ∧ fld (0x0100000000000000#64) 55 54 &&& fld ({} : Port).cfg 61 60 = 0 ∧
    fld (0x0280000000000000#64) 55 54 = 2 ∧ bit ({} : Port).cfg 59 = false := by decide +kernel

/-- LinkTimers, LinkDiscards, LinkAdmits, FlitSlotSends: an UP port with flits to send and without. -/
theorem witness_Link :
    let x : Port := { upPort with slot := 256, link := { unacked := [(0, negDoneFlit 2)], q0 := [negDoneFlit 2] } }
    Awake { linked x with eclk := 1000000 } ∧ due { linked x with eclk := 1000000 } x.link.ackAt (lclk 4096) = true ∧ 0 < x.link.credit.getD 0 0 ∧
    portAllows (linked upPort) 0 1 = true ∧ wellFormedFlit (rx 3 1 1 0 []).flit = true ∧ (rx 3 1 1 0 []).seq = ((port (linked upPort) 0).link.rxSeq + 1) % 1024 := by
  unfold Awake Calm; decide +kernel

/-- IdleReturnsCredits, TreeCreditsArrive, RedOpensEntry, RedXEscapes, McastForwards: flits that every earlier check passes. -/
theorem witness_Flits :
    let up (t : Tree) : Dev := { linked upPort with trees := [(0, t)] }
    let idle := rx 0 0 0 5 []
    let tcred := rx 1 0 0 0x0300008000000000#64 []
    let red := rx 3 1 1 0x0001000000000000#64 []
    let redX := rx 4 1 1 0x0002000000000000#64 []
    let mc := rx 5 2 1 0 []
    Received (linked upPort) 0 idle .idle (rxCheck (linked upPort) 0 idle).1 ∧ Received (up {}) 0 tcred .tcred (rxCheck (up {}) 0 tcred).1 ∧
    Received (up {}) 0 red .red (rxCheck (up {}) 0 red).1 ∧ Received (up {}) 0 redX .redX (rxCheck (up {}) 0 redX).1 ∧
    Received (up {}) 0 mc .mcast (rxCheck (up {}) 0 mc).1 :=
  ⟨received (by unfold Awake Calm; decide +kernel), received (by unfold Awake Calm; decide +kernel),
    received (by unfold Awake Calm; decide +kernel), received (by unfold Awake Calm; decide +kernel),
    received (by unfold Awake Calm; decide +kernel)⟩

/-- TreeCreditsArrive, RedOpensEntry, McastForwards: trees that take them; port 1 is the other contributor. -/
theorem witness_Trees :
    let leaf : Tree := { entry := put 128 127 1 }
    let sums : Tree := { entry := put 128 127 1 ||| put 128 121 1 ||| put 128 99 3 ||| put 128 91 1 ||| put 128 87 1, stepV := true }
    let cast : Tree := { entry := put 128 127 1 ||| put 128 121 1 ||| put 128 120 1 ||| put 128 99 2 }
    (leaf.en = true ∧ leaf.mcast = false ∧ leaf.root = false ∧ leaf.upPort = 0 ∧ fld (0x0300008000000000#64) 55 44 = 0 ∧ fld (0x0300008000000000#64) 43 37 = 4) ∧
    (redExpected { linked upPort with trees := [(0, sums)] } 0 (rx 3 1 1 0x0001000000000000#64 []).flit = true ∧ Nat.testBit sums.down 1 = true ∧ sums.openStep % 4096 = 0) ∧
    (cast.en = true ∧ cast.kennel = 1 ∧ cast.mcast = true ∧ cast.root = false ∧ cast.upPort = 0 ∧ cast.localN ≠ 1) := by decide +kernel

/-- RedXEscapes: seven containers are needed, five come. -/
theorem witness_RedXEscapes :
    let w : EscWait := { flit := (rx 3 1 1 0x0002000000000000#64 []).flit, need := [0, 1, 2, 3, 4, 5, 6] }
    w.flit.tsf = (rx 4 1 1 0x0002000000000000#64 []).flit.tsf ∧ w.got.length + 5 < w.need.length ∧ runsTask (linked upPort) 1 = false := by decide +kernel

/-- LocalContributionJoins: 64 staged FP32 elements, one local credit, two local contributors; without a credit; before the bytes have come. -/
theorem witness_LocalContribution :
    let t (c : Nat) : Tree := { entry := put 128 127 1 ||| put 128 95 2 ||| put 128 87 1, stepV := true, localCredit := [(0, c)] }
    let x : Desc := { w0 := 0x4010000000000000#64, w3 := 0x0001000400040004#64, w5 := put 64 48 1 }
    let r : Rep := { num := 0, reading := true, cursor := 256, pieces := [{ off := 0, addr := 0, len := 256, src := .store, issued := some 0, bytes := some (List.replicate 256 0) }] }
    let a : Active := { desc := x, gen := 0, kennel := 0, next := 1, reps := [r] }
    let d : Dev := { slot0 a .zero with trees := [(0, t 1)] }
    Awake d ∧ writer a = some r ∧ x.kind = 4 ∧ nextChunk x r = some 0 ∧ stagedRange r 0 (chunkBytes x) = some (List.replicate 256 0) ∧ (t 1).en = true ∧ (t 1).kennel = 0 ∧
    2 ≤ (t 1).localN ∧ x.step % 4096 = (t 1).openStep % 4096 ∧ (t 1).closing = false ∧ Tbl.get 0 (t 0).localCredit x.cidx = 0 ∧ stagedRange { r with pieces := [] } 0 (chunkBytes x) = none := by
  unfold Awake Calm; decide +kernel

/-- EntryLeashExpires: an entry past its leash whose missing peer barks, of a task in STARTING. -/
theorem witness_EntryLeash :
    let t : Tree := { entry := put 128 127 1 ||| put 128 99 1 ||| put 128 48 1 }
    let e : AEntry := { tree := 0, kennel := 0, step := 0, coll := 0, elem := 0, openBeat := 0, got := [], acc := none }
    let d : Dev := { linked { upPort with bark := { alive := true } } with eclk := 10000000, trees := [(0, t)], adders := [(0, [e])], tasks := [(0, some { st := .starting })] }
    Awake d ∧ isDone t e = false ∧ e.openBeat + t.leash ≤ beatNow d ∧ (∀ p ∈ missingPorts t e, (port d p).bark.alive = true) := by unfold Awake Calm; decide +kernel

/-- PeerReadsRoute, PeerReadsDeliver: a read for module 5 with a route, and a response for this module. -/
theorem witness_PeerReads :
    let d : Dev := { linked upPort with epochRun := { routes := [(5, 17)] } }
    let q := rx 6 3 1 0x0050000000000000#64 (List.replicate 256 0)
    let s := rx 7 2 1 0 (List.replicate 256 0)
    Received d 0 q .readReq (rxCheck d 0 q).1 ∧ Received d 0 s .readRsp (rxCheck d 0 s).1 ∧ 16 ≤ Tbl.get 0 (rxCheck d 0 q).1.epochRun.routes (fld q.flit.tsf 63 52) :=
  ⟨received (by unfold Awake Calm; decide +kernel), received (by unfold Awake Calm; decide +kernel), by decide +kernel⟩

/-- PeerReadsRoute, PeerReadsDeliver: a request and a response for this module; a read of a slot that waits for them, one that has waited 256 beats, and one
whose slot has gone on. -/
theorem witness_PeerHere :
    let d : Dev := { linked { upPort with version := 2 } with epochRun := { routes := [(0, 17)] } }
    let q := rx 6 3 1 0 (List.replicate 6 0 ++ [1#8] ++ List.replicate 249 0)
    let p : Piece := { off := 0, addr := 0, len := 256, src := .peer 5, issued := some 0 }
    let a : Active := { desc := copyDesc, gen := 0, kennel := 1, next := 1, reps := [{ num := 0, reading := true, cursor := 256, pieces := [p] }] }
    let z : PeerRead := { engine := 0, slot := 0, kennel := 1, rep := 0, off := 0, len := 1, beat := 0 }
    let e : Dev := { linked upPort with reads := [(0, some z)], ses := [(0, { slots := [(0, { act := some a })] })] }
    Received d 0 q .readReq (rxCheck d 0 q).1 ∧ (fld q.flit.tsf 63 52 = d.epochRun.moduleNo ∧ fld q.flit.tsf 27 24 ≠ 15 ∧ reqLen q.flit = 1 ∧ tooLongFor (rxCheck d 0 q).1 0 q.flit = false) ∧
    (Tbl.get none e.reads 0 = some z ∧ z.live = true ∧ z.len ≤ z.got + 1 ∧ stoppedTask e 1 = false ∧ InSlot e 0 0 a ∧ a.desc.leash = 0) ∧ z.beat + 256 ≤ beatNow { e with eclk := 10000000 } :=
  ⟨received (by unfold Awake Calm; decide +kernel), by decide +kernel, by unfold InSlot; decide +kernel, by decide +kernel⟩

/-- LinkKeysSwitch: a next key at its beat, and an old one 64 beats later. -/
theorem witness_KeySwitch :
    let d : Dev := { dstate := .ready, eclk := 150000000, kennels := [(1, { st := .live, next := some {} }), (2, { st := .live, cur := some {}, old := some {} })] }
    Awake d ∧ (kennel d 1).next = some {} ∧ ({} : LinkKey).switchBeat + 64 ≤ beatNow d := by unfold Awake Calm; decide +kernel

/-- A task of kennel 1 on modules 0 and 1, in a round, with its RCV messages. -/
def ringTask : Task := { st := .running, roster := [0, 1], secs := [⟨0x0D, 0, 0, [], 0⟩] }
def inRound : Task := { ringTask with st := .recovering, rounds := [{ num := 1, abortStep := 0, kind := .task, sender := 0, beat := 0 }], inRound := true, quietSent := true }
def ring (t : Task) : Dev := { linked upPort with tasks := [(1, some t)] }
def rcv (code md round arg : Nat) : RxFlit := rx 1 0 0 (rcvTsf 1 code md round arg) []

theorem rcv_acts {d : Dev} {r : RxFlit} {x : Rcv} {t : Task}
    (h : (Awake d ∧ flitRow r.flit = .rcv x.code ∧ (rxCheck d 0 r).2 = some (held r)) ∧
      (rcvTake (rxCheck d 0 r).1 0 r.flit).2 = some x ∧ task d x.k = some t ∧ rcvOf r.flit.tsf = x) :
    RcvActs d 0 r x t (rcvTake (rxCheck d 0 r).1 0 r.flit).1 := ⟨_, received h.1, Prod.ext rfl h.2.1, h.2.2⟩

/-- RcvRecords, RcvMoves: messages of the present round and of the next one. -/
theorem witness_Rcv :
    RcvActs (ring inRound) 0 (rcv 2 1 1 0) ⟨1, 2, 1, 1, 0⟩ inRound (rcvTake (rxCheck (ring inRound) 0 (rcv 2 1 1 0)).1 0 (rcv 2 1 1 0).flit).1 ∧
    RcvActs (ring inRound) 0 (rcv 3 1 1 0) ⟨1, 3, 1, 1, 0⟩ inRound (rcvTake (rxCheck (ring inRound) 0 (rcv 3 1 1 0)).1 0 (rcv 3 1 1 0).flit).1 ∧
    RcvActs (ring ringTask) 0 (rcv 1 1 1 0) ⟨1, 1, 1, 1, 0⟩ ringTask (rcvTake (rxCheck (ring ringTask) 0 (rcv 1 1 1 0)).1 0 (rcv 1 1 1 0).flit).1 :=
  ⟨rcv_acts (by unfold Awake Calm; decide +kernel),
    rcv_acts (by unfold Awake Calm; decide +kernel),
    rcv_acts (by unfold Awake Calm; decide +kernel)⟩

/-- RcvRecords, RcvMoves: LOST, JOIN, END, COMMITTED, GO, and ADOPT of a standby that is this module. -/
theorem witness_RcvMore :
    let by' : Task := { ringTask with st := .created, isStandby := true, standbys := [0], roster := [1, 2] }
    let act (d : Dev) (t : Task) (r : RxFlit) (x : Rcv) : Prop :=
      (flitRow r.flit = .rcv x.code ∧ (rxCheck d 0 r).2 = some r.flit ∧ (rcvTake (rxCheck d 0 r).1 0 r.flit).2 = some x ∧ task d x.k = some t ∧ rcvOf r.flit.tsf = x)
    act (ring inRound) inRound (rcv 4 1 1 0) ⟨1, 4, 1, 1, 0⟩ ∧ act (ring inRound) inRound (rcv 6 1 1 0) ⟨1, 6, 1, 1, 0⟩ ∧
    act (ring inRound) inRound (rcv 8 1 1 8) ⟨1, 8, 1, 1, 8⟩ ∧ act (ring inRound) inRound (rcv 9 1 1 0) ⟨1, 9, 1, 1, 0⟩ ∧
    act (ring inRound) inRound (rcv 7 1 1 0) ⟨1, 7, 1, 1, 0⟩ ∧ act (ring by') by' (rcv 5 0 1 1) ⟨1, 5, 0, 1, 1⟩ := by decide +kernel

/-- RcvRecords, RcvMoves, GoStartsReplay: the conditions on the task. -/
theorem witness_RcvTasks :
    inThisRound inRound ⟨1, 2, 1, 1, 0⟩ = true ∧ ringTask.hasParity = true ∧ roundNum ringTask = 0 ∧ inRound.asking = none ∧
    ({ inRound with roster := [3, 1] } : Task).posOf 0 = none ∧ ({ inRound with coordinator := 1 } : Task).coordinator ≠ selfModule (ring inRound) ∧
    ({ inRound with committed := [(0, 8)] } : Task).committed ≠ [] ∧ flitRow (rcv 10 1 1 8).flit = .rcv 10 ∧ ({ st := .created } : Task).st.active = false := by decide +kernel

/-- GoStartsReplay: a group of one member with no state pages, and the CRC of its sections. -/
theorem witness_Go :
    let bs : List Byte := List.replicate 64 0 ++ [2#8] ++ List.replicate 63 0
    let t : Task := { inRound with secs := [⟨0x0D, 0, 0, bs, 0⟩], crc := crc32c bs, image := some (0, []) }
    (∃ g, t.myGroup (ring t) = some g ∧ g.stateN = 0) ∧ t.freezes = [] ∧ t.remaps = [] ∧ lostPos t = none ∧ t.window = none := by
  refine ⟨⟨groupOf ([2#8] ++ List.replicate 63 0), ?_⟩, ?_⟩ <;> decide +kernel

/-- CoordinatorDecides: three rounds by lag with every QUIET; a round that still waits; a standby asked. -/
theorem witness_Coordinator :
    let rd (n : Nat) : Round := { num := n, abortStep := 0, kind := .lag, sender := 0, beat := 0 }
    let t : Task := { inRound with rounds := [rd 3, rd 2, rd 1], quiets := [0, 1] }
    let u : Task := { inRound with asking := some (1, 5, 0), roster := [0, 1], lost := [1], asked := [5], secs := [] }
    Awake (ring t) ∧ struckThrice t = true ∧ (∀ m ∈ members t, m ∈ t.quiets) ∧ t.coordinator = selfModule (ring t) ∧ members inRound ≠ [] ∧
    (∃ m ∈ members inRound, m ∉ inRound.quiets) ∧ u.roster.zipIdx.find? (fun z => u.lost.contains z.1) = some (1, 1) ∧
    u.standbys.find? (fun z => !u.asked.contains z && !u.roster.contains z) = none ∧ foldTarget u 1 = none := by unfold Awake Calm; decide +kernel

/-- UpdateReports: a report of step 0 in memory, named by the oldest biscuit of the task's firmware queue, which is queue 0 without a report area;
an empty queue, one of another kennel, and a report in a page that is not mapped. -/
theorem witness_UpdateReport :
    let t : Task := { st := .running, stepLast := 3 }
    let d (items : List DWord) : Dev := { dstate := .ready, hqs := [(0, { cfg := 0x8000000000000000#64, items := items })], tasks := [(0, some t)], dirs := [(0, 0x8000000000000000#64)]
                                          pages := [(0, { pte := 0xE000000000000000#64, st := .zero })] }
    Awake (d [0x4000004000000000#64]) ∧ t.fwQueue = 0 ∧ popsOutstanding (d []) (· == .fw) < 16 ∧ hqAllows (hq (d []) 0) 0 = true ∧ hqAllows (hq (d []) 0) 1 = false ∧
    (reportBytes (d []) 0 (0x4000004000000000#64) .clean).2 = some (zeros 64) ∧ (reportBytes { d [] with pages := [] } 0 (0x4000004000000000#64) .clean).2 = none ∧
    t.stallFrom = none ∧ t.myGroup (d []) = none ∧ { t with st := .created }.st ≠ .running := by
  unfold Awake Calm; decide +kernel

/-- FreezeApply: an entry for step 3 of block 0, which module 0 owns; and another step. The plane's place is open (log 99): where it is at address 0, its
byte is in a NEAR page. -/
theorem witness_Freeze (h : ∀ bs, Config.planeAddr bs = 0) :
    let rec0 : List Byte := leBytes 16 16
    let t : Task := { st := .running, roster := [0], secs := [⟨0x07, 0, 0, rec0, 0⟩], freezes := [⟨0, [3, 0, 1, 1]⟩] }
    let d : Dev := { dstate := .running, tasks := [(0, some t)], dirs := [(0, 0x8000000000000000#64)], pages := [(0, { pte := 0xE000000000000000#64, st := .near })] }
    let z := planeBit (Config.planeAddr (t.data 0x09)) (firstOwned t (selfModule d) * 2 ^ 19) 0
    (Awake d ∧ t.st.active = true ∧ t.inRound = false ∧ freezeWindow d 0 3 = true ∧ freezeEntries t = [[3, 0, 1, 1]] ∧ ownerOf t 0 = some (selfModule d)) ∧
    (∃ r coll j, blockPlace t 0 = some (r, coll, j) ∧ mapsOf d t (recTree r) coll = []) ∧ z = (0, 0) ∧
    (canRead d 0 0 = true ∧ canWrite d 0 0 = true ∧ tableBad d 0 0 = false ∧ cached d 0 0 0 = none ∧ (∀ w ∈ freezeEntries t, nth w 0 ≠ 4)) := by
  intro rec0 t d z
  refine ⟨by unfold Awake Calm; decide +kernel, ⟨16#128, 0, 0, by decide +kernel⟩, ?_, by decide +kernel⟩
  show planeBit (Config.planeAddr _) _ 0 = _
  rw [h]; decide +kernel

/-- ParityStripes: a task of two members whose first stripe takes a chunk, its page NEAR and writable. -/
theorem witness_Parity :
    let rec' : List Byte := [2#8] ++ List.replicate 7 0 ++ [8#8] ++ List.replicate 55 0
    let t : Task := { ringTask with secs := [⟨0x0D, 0, 0, List.replicate 64 0 ++ rec', 0⟩], parity := some { step := 0, ord := 0 } }
    let d : Dev := { ring t with dirs := [(8192, 0x8000000000000000#64)], pages := [(8388608, { pte := 0xE000000800000000#64, st := .near })] }
    let e : AEntry := { tree := 0, kennel := 1, step := 0, coll := 0, elem := 0, openBeat := 0, got := [], acc := some (.words [7#32]) }
    (∃ g, t.myGroup d = some g ∧ g.size = 2 ∧ e.tree = g.ptree0 + rankOf d t g ∧ stripeByte e.coll (e.elem * 16) < stripeBytes g ∧ g.parityArea = 0) ∧ t.parity ≠ none ∧
    canWrite d 1 0 = true ∧ tableBad d 1 0 = false ∧ (page d 1 0).st = .near ∧ (page d 1 0).poison = [] ∧ holderOf 2 0 0 = 1 := by
  refine ⟨⟨groupOf ([2#8] ++ List.replicate 7 0 ++ [8#8] ++ List.replicate 55 0), ?_⟩, ?_⟩ <;> decide +kernel

/-- DefaultRangesTile: a ring of two and its roster; the number of segments is open (log 98). -/
theorem witness_Ranges (h : ∀ bs, Config.segments bs = 5) :
    let t : Task := { roster := [7, 8] }
    t.secs = [] ∧ t.roster.length = 2 ∧ t.segCount = 5 ∧ defaultRange 5 2 0 = (0, 2) ∧ defaultRange 5 2 1 = (2, 3) := by
  refine ⟨rfl, rfl, ?_, rfl, rfl⟩
  show Config.segments _ = 5
  exact h _

/-- R265, R264: the version of the highest bit that both sides allow. -/
theorem test_version :
    gives (exec (.neg 0 (rx 1 0 0 0x01C0000000000000#64 [])) (on (linked { st := .negotiating }))) (fun d => (port d 0).link.chosen == some 2) = true := by decide +kernel

/-- R257: three TC0 flits freed at the peer return three credits. -/
theorem test_idle : gives (exec (.idle 0 (rx 0 0 0 3 [])) (on (linked upPort))) (fun d => (port d 0).link.credit == [19, 128, 96, 16]) = true := by decide +kernel

/-! ### The time unit -/

/-- A module in READY with a time unit, long after reset. -/
def timed (t : TimeUnit) : Dev := { dstate := .ready, eclk := 100000000000, time := t }
def master : Master := { ident := 7, prio := 1, interval := 0, since := 0 }

/-- PtpInputs: a known best master, an outstanding Delay_Req, and a locked unit with its reference. -/
theorem witness_PtpInputs :
    let d := timed { tstate := .locked, refOk := true, masters := [master] }
    Awake d ∧ (5#8).toNat ≠ ptpDomain d ∧ (0#8).toNat = ptpDomain d ∧ bestMaster d.time.masters = some master ∧ timeSrc d = 0 ∧ d.time.offs = [] ∧
    (timed { delayReq := some 3 }).time.delayReq ≠ none ∧ (timed { delayReq := some 3 }).time.tstate ≠ .locked := by unfold Awake Calm; decide +kernel

/-- TimeTimeouts: each reference past its limit, in FREERUN, LOCKED and HOLDOVER. -/
theorem witness_TimeTimeouts :
    let free := timed { delayReq := some 0, lastSync := some 0, syncInt := 1500000000, masters := [master], lastPps := some 0 }
    let locked := timed { tstate := .locked, lastSync := some 0, syncInt := 1500000000 }
    let barks := timed { config := 0x800228401F400000#64, lastBark := some 0 }
    let held := timed { tstate := .holdover, holdSince := 0 }
    (Awake free ∧ due free 0 (ms 1000) = true ∧ timeSrc free ≠ 2 ∧ due free 0 (4 * 1500000000) = true ∧ due free 0 (3 * logEclk 0) = true ∧ due free 0 (ms 1500) = true) ∧
    (Awake locked ∧ due locked 0 (4 * locked.time.syncInt) = true) ∧ (Awake barks ∧ timeSrc barks = 2 ∧ 0 + 16 ≤ beatNow barks) ∧
    (Awake held ∧ due held held.time.holdSince (ms (100 * holdMax held)) = true ∧ NoTasks held) := by unfold NoTasks Awake Calm; decide +kernel

/-- TimeOutputs, PpsInputs: a known master on an up link, and a locked unit just after a whole second. -/
theorem witness_TimeOutputs :
    let d : Dev := { timed { masters := [master] } with mgmt := { ethUp := true } }
    let e : Dev := { timed { tstate := .locked } with eclk := 1500000000 }
    (Awake d ∧ timeSrc d ≠ 2 ∧ timeSrc d ≠ 1 ∧ d.time.delayReq = none ∧ d.time.masters ≠ [] ∧ d.time.lastPpsTime = none) ∧
    (Awake e ∧ ppsOutEn e = true ∧ timeNow e % 1000000000 < beatPeriod e) := by unfold Awake Calm; decide +kernel

/-- BeatBoundaryAdvances, BoundaryIsBeat: the beat of reset, and boundary 5. -/
theorem witness_BeatBoundary :
    Awake (timed {}) ∧ NoTasks (timed {}) ∧ 0 < beatPeriod (timed {}) ∧ (∀ p < 16, (port (timed {}) p).bark.alive = false) ∧
    (timed {}).time.origin.toNat + 5 * beatPeriod (timed {}) < 2 ^ 64 ∧ (timed {}).timeOff ≤ (timed {}).time.origin.toNat := by unfold NoTasks Awake Calm; decide +kernel

/-- StartBeatRuns: a task before its start beat, one at it, and one that recovers with its round over. -/
theorem witness_StartBeat :
    let d (t : Task) : Dev := { timed {} with tasks := [(1, some t)] }
    Awake (d { st := .starting }) ∧ beatNow (d {}) < 2 ^ 40 ∧ ({ st := .starting } : Task).startBeat ≤ beatNow (d {}) ∧ ({ st := .starting } : Task).hasParity = false ∧
    Awake (d { st := .recovering }) ∧ task (d { st := .recovering }) 1 = some { st := .recovering } := by unfold Awake Calm; decide +kernel

/-- BarksHeard: a bark three beats ahead of the present beat, and a far one. -/
theorem witness_Barks :
    let near := rx 2 0 0 0 []
    let far := rx 2 0 0 0x8000000000000000#64 []
    let d := linked upPort
    Received d 0 near .bark (rxCheck d 0 near).1 ∧ Received d 0 far .bark (rxCheck d 0 far).1 ∧
    (fld (0#64) 63 52 + 4100 - beatNow (rxCheck d 0 near).1 % 4096) % 4096 ≤ 5 ∧ 5 < (fld (0x8000000000000000#64) 63 52 + 4100 - beatNow (rxCheck d 0 far).1 % 4096) % 4096 :=
  ⟨received (by unfold Awake Calm; decide +kernel), received (by unfold Awake Calm; decide +kernel),
    by decide +kernel, by decide +kernel⟩

/-- R322: from reset the first boundary comes after one period of 1,000 ns, at ECLK 1,500. -/
theorem test_beat : gives (exec .beatBoundary (on { dstate := .ready })) (fun d => d.eclk == 1500 && beatNow d == 1) = true := by decide +kernel

/-- R320: a 1PPS edge of a pin high for only 99 ns is rejected and counted. -/
theorem test_pps : gives (exec (.ppsEdge 0 100 99) (on { dstate := .ready })) (fun d => d.time.rejectCnt == 1 && d.time.inputRej) = true := by decide +kernel

/-! ### Commands of the mailboxes -/

/-- A request of the code `c` for kennel `t`, with a payload of `n` lines. -/
def reqOf (c : Nat) (t : Nat := 0) (n : Nat := 0) : Req := { hdr := BitVec.ofNat 64 (c * 2 ^ 48 + t * 2 ^ 26 + n) }
/-- A mailbox of kennel k whose request has begun. -/
def box (k : Nat) (r : Req) : Mbx := { port := 0, fn := k, kennel := k, version := 0x34, req := some r }
/-- A device whose only mailbox, of kennel k, has the request `r` in progress. -/
def asks (d : Dev) (k : Nat) (r : Req) : Dev := { d with mbx := [(0, some (box k r))], begun := [0] }
def ready : Dev := { dstate := .ready }
def config : Dev := { dstate := .config }
def live1 : Dev := { dstate := .ready, kennels := [(1, { st := .live, quota := { w2 := put 64 13 1024, w3 := put 64 48 8 ||| put 64 35 8 ||| put 64 24 8, w4 := put 64 12 64 ||| put 64 0 8 } })] }

theorem served {d : Dev} {k : Nat} {r : Req} (a : Awake (asks d k r)) (b : r.cmd = c) : Served (on (asks d k r)) 0 c (box k r) r :=
  ⟨a, by simp [asks, inTurn, mbx, Tbl.get, box, b]⟩

/-- Every clause of the command statements: for each code of Table 11-8 a mailbox of kennel 0, and one of kennel 1, is served. -/
theorem witness_Served (k : Nat) (c : Nat) (h : c < 2 ^ 16) (hk : k < 64) : Served (on (asks ready k (reqOf c k 4))) 0 c (box k (reqOf c k 4)) (reqOf c k 4) :=
  served (by unfold Awake Calm asks; simp [ready, quietDue, parityDue, anyTask]) (by
    simp only [reqOf, Req.cmd, fld, BitVec.toNat_ofNat, Nat.shiftRight_eq_div_pow]; omega)

/-- SafeEndsTasks, FaultsEndTasks, KennelsDestroyed, PagesMap, TasksMove and the others that say so: no stream is in the middle of a row, and nobody waits
for a frame, on a device without descriptors, waiting writes and migrations. -/
theorem witness_Whole (d : Dev) (a : d.ses = []) (b : d.waits = []) (c : d.mdies = []) : RowsWhole d ∧ NobodyWaits d :=
  ⟨fun _ _ _ _ h => by simp [sslot, se, a, Tbl.get] at h, b, fun _ _ h => by simp [mdie, c, Tbl.get] at h⟩

/-- RefusedHasNoEffect, StateRefuses, OutOfTurnWaits: DEV_READY in READY, and a second mailbox that waits. -/
theorem witness_Refused :
    let r := reqOf 0x10
    Served (on (asks ready 0 r)) 0 0x10 (box 0 r) r ∧ scpCheck (asks ready 0 r) 0x10 true devReadyCmd ⟨0, actsOn 0x10 (box 0 r) r, box 0 r, r⟩ = some .state ∧
    targetBad 0x10 (box 0 r) r = false ∧ devReadyCmd.field (asks ready 0 r) ⟨0, actsOn 0x10 (box 0 r) r, box 0 r, r⟩ = none ∧
    stateOk (asks ready 0 r) (box 0 r) r = false ∧ inTurn (asks ready 0 r) 1 0x10 = none := by unfold Served Awake Calm; decide +kernel

/-- DeviceQueries, UnitAndItemReads: a payload of 4 lines takes the device record, and one of 64 lines the largest unit and item. -/
theorem witness_Reads :
    let r : Req := { reqOf 6 0 64 with p0 := 0x0400000000000000#64 }
    let g : Req := { reqOf 0x20 0 64 with p0 := 0x0100000000000000#64 }
    Served (on (asks ready 0 r)) 0 6 (box 0 r) r ∧ fld r.p0 15 0 < unitCount (fld r.p0 63 56) ∧ 8 * (unitRegs ready (fld r.p0 63 56) (fld r.p0 15 0)).length ≤ 64 * r.plen ∧
    Served (on (asks ready 0 g)) 0 0x20 (box 0 g) g ∧ fld g.p0 15 0 < cfgCount (fld g.p0 63 56) ∧ (itemBytes ready.epochRun (fld g.p0 63 56) (fld g.p0 15 0)).length ≤ 64 * g.plen := by
  unfold Served Awake Calm; decide +kernel

/-- DeviceStatesMove, SafeEndsTasks, DetachAndReset: a task that runs in kennel 1; the sensors of SAFE hold no limit. -/
theorem witness_States :
    let d : Dev := { dstate := .running, tasks := [(1, some { st := .running })] }
    Served (on (asks d 0 (reqOf 0x13))) 0 0x13 (box 0 (reqOf 0x13)) (reqOf 0x13) ∧ Served (on (asks config 0 (reqOf 0x10))) 0 0x10 (box 0 (reqOf 0x10)) (reqOf 0x10) ∧
    Served (on (asks { dstate := .safe } 0 (reqOf 0x14))) 0 0x14 (box 0 (reqOf 0x14)) (reqOf 0x14) ∧ (∀ z ∈ ({ dstate := .safe } : Dev).sensors, z.2.held = false) ∧
    (∃ u, task d 1 = some u ∧ u.st.active = true) := by
  refine ⟨?_, ?_, ?_, by decide +kernel, ⟨_, rfl, rfl⟩⟩ <;> unfold Served Awake Calm <;> decide +kernel

/-- ConfigStaged: a value of each class that Table 11-11 allows, and a beat period at each end of its range. -/
theorem witness_ConfigStaged :
    (fld (0x3000000000000000#64) 42 0 = 0) ∧
    (let v : DWord := 0x228401F400000; fld v 63 62 ≠ 3 ∧ fld v 18 0 = 0 ∧ fld v 35 19 % 2 = 0 ∧ 250 ≤ fld v 35 19 ∧ fld v 35 19 ≤ 64000 ∧ 0 < fld v 48 41 ∧ 2 ≤ fld v 40 36) ∧
    (let v : DWord := 0x4000008000400; v &&& ~~~migRw = 0 ∧ fld v 15 0 < fld v 31 16 ∧ fld v 31 16 * 4 ≤ frameTotal) ∧
    (∀ b ∈ List.replicate 4096 (31#8), b.toNat < 32) ∧ fld (0x1005#64) 63 13 = 0 := by
  refine ⟨by decide +kernel, by decide +kernel, by decide +kernel, ?_, by decide +kernel⟩
  intro b h; rw [List.eq_of_mem_replicate h]; decide

/-- ConfigCommits: CONFIG and READY with no task and no port up. -/
theorem witness_ConfigCommits : config.dstate = .config ∧ config.tasks = [] ∧ (∀ p < 16, (port config p).st ≠ .up) ∧
    Served (on (asks config 0 (reqOf 0x22))) 0 0x22 (box 0 (reqOf 0x22)) (reqOf 0x22) := by unfold Served Awake Calm; decide +kernel

/-- ImagesUpdate: the slot that is not running holds an image that verifies. -/
theorem witness_Images :
    let d : Dev := { config with slotB := { bytes := [(0, 0x4B#8), (1, 0x50#8), (2, 0x4D#8), (3, 0x31#8)] }, runningB := some false }
    heldByOther d (.mailbox 0) = false ∧ inactiveB d = true ∧ verifies d (imgSlot d (inactiveB d)) {} = true ∧
    Served (on (asks d 0 (reqOf 0x29))) 0 0x29 (box 0 (reqOf 0x29)) (reqOf 0x29) := by unfold Served Awake Calm; decide +kernel

/-- KennelsCreated, KennelsDestroyed: a record of pair 0 and 64 pages for kennel 1, which is free, and kennel 1 LIVE and TEARING. -/
theorem witness_Kennels :
    let bs : List Byte := [1#8] ++ List.replicate 33 0 ++ [4#8] ++ List.replicate 29 0
    let d := ready
    let r := reqOf 0x30 1 1
    quotaField d bs = none ∧ quotaBound d 1 (quotaOf bs) = false ∧ quotaClearing d (quotaOf bs) = false ∧ ServedFor (on (asks d 0 r)) 0 0x30 (box 0 r) r 1 ∧
    (kennel d 1).st = .free ∧ ServedFor (on (asks live1 0 (reqOf 0x31 1))) 0 0x31 (box 0 (reqOf 0x31 1)) (reqOf 0x31 1) 1 ∧ (kennel live1 1).st = .live ∧ task live1 1 = none := by
  unfold ServedFor Served Awake Calm; decide +kernel

theorem witness_Teardown :
    let d : Dev := { ready with kennels := [(1, { st := .tearing })] }
    Awake d ∧ (kennel d 1).st = .tearing ∧ d.pairClearing = [] ∧ Awake { ready with pairClearing := [0], dieClearing := [1] } := by unfold Awake Calm; decide +kernel

/-- LinkKeysLoad: a record of type 1 in session 5 of mailbox 0, for a first key and for a later one; and one of type 2 in a vendor request. -/
theorem witness_LinkKeys :
    let d : Dev := { live1 with sessions := [(5, 0)] }
    let d' : Dev := { d with kennels := [(1, { st := .live, cur := some {} })] }
    let bs : List Byte := [5#8, 0, 0, 0, 1#8] ++ List.replicate 59 0
    let bs' : List Byte := [5#8, 0, 0, 0, 1#8, 1#8, 0, 0, 0, 0, 0, 1#8] ++ List.replicate 52 0
    let y := keyRec bs
    let z := keyRec bs'
    let w := vendorRec ([0x13#8, 0xFE#8, 0, 0, 0, 0, 0, 0, 0, 5#8, 0, 0, 0, 2#8] ++ List.replicate 50 0)
    (y.ktype = 1 ∧ y.rsvd = false ∧ d.sessions.contains (y.session, 0) = true ∧ (kennel d 1).st = .live ∧ (kennel d 1).next = none ∧ (kennel d 1).cur = none) ∧
    (z.ktype = 1 ∧ z.rsvd = false ∧ (kennel d' 1).cur = some {} ∧ beatNow d' + 1000 ≤ z.switchBeat ∧ z.kgen = (({} : LinkKey).kgen + 1) % 256) ∧
    (w.ktype = 2 ∧ w.rsvd = false ∧ d.sessions.contains (w.session, 0) = true ∧ (kennel d 0).st = .live ∧ (kennel d 0).next = none ∧ (kennel d 0).cur = none) := by decide +kernel

/-- SpdmAnswers: a code of each kind, and an open handshake. -/
theorem witness_Spdm :
    let d : Dev := { ready with handshakes := [(5, 0)] }
    spdmSupported 0x82 = true ∧ spdmSupported 0x90 = false ∧ (5, 0) ∈ d.handshakes ∧ d.sessions.length + d.handshakes.length < 16 ∧
    spdmCode ([0x13#8, 0xE4#8] : List Byte) = 0xE4 ∧ Served (on (asks d 0 { reqOf 0x34 0 1 with p0 := 64 })) 0 0x34 (box 0 { reqOf 0x34 0 1 with p0 := 64 }) { reqOf 0x34 0 1 with p0 := 64 } := by
  unfold Served Awake Calm; decide +kernel

/-- Kennel 1 with page 0 NEAR, readable and writable, and page 1 ZERO. -/
def paged : Dev := { live1 with dirs := [(8192, 0x8000000000000000#64)], pages := [(8388608, { pte := 0xE000000800000000#64, st := .near }), (8388609, { pte := 0xE000000800000000#64, st := .zero })] }

/-- PagesMap: two pages that are not mapped, and two that are, of a kennel with 64 pages. -/
theorem witness_Pages :
    let r : Req := { reqOf 0x40 with p1 := 2 }
    let z : Ctx := ⟨0, 1, box 1 r, r⟩
    (∀ pg < 2, (page live1 1 pg).v = false) ∧ pagesOf live1 1 + 2 ≤ (kennel live1 1).quota.pages ∧ recordsShort live1 z = false ∧
    (leafUsed live1).length + leavesNeeded live1 1 (pagesAsked z) ≤ 131072 ∧
    (page paged 1 0).v = true ∧ unmapBusy paged 1 0 = false ∧ (page paged 1 1).v = true ∧ unmapBusy paged 1 1 = false := by
  decide +kernel

/-- MemoryCommands, MigrateAsks: 64 bytes of page 0 and of page 1. -/
theorem witness_Memory :
    (page paged 1 0).poison = [] ∧ canWrite paged 1 0 = true ∧ canRead paged 1 0 = true ∧ (page paged 1 0).st = .near ∧
    canRead paged 1 2097152 = true ∧ (page paged 1 1).st = .zero ∧ tableBad paged 1 0 = false ∧ tableBad paged 1 2097152 = false ∧ paged.waits = [] ∧ (mdie paged 0).tc = [] ∧ (page paged 1 0).policy ≠ 1 := by decide +kernel

/-- QueueCommands, TableCommands: queue 5 of kennel 1 with 2 of its 16 biscuits; a litter, a tree of one contributor and a scalar of a stopped pair. -/
theorem witness_Tables :
    let q : Hq := { cfg := put 64 63 1 ||| put 64 57 1 ||| put 64 53 4, items := [7, 8] }
    let d : Dev := { live1 with hqs := [(5, q)], pairOwner := [(3, 1)] }
    hqSetCheck live1 1 5 q.cfg = none ∧ hqAllows (hq d 5) 1 = true ∧ (hq d 5).waiters = [] ∧ runsTask d 1 = false ∧
    litterCheck live1 1 0 0 = none ∧ treeCheck live1 1 0 0 = none ∧ present d 3 = true ∧ pairKennel d 3 = 1 ∧ (pair d 3).seq.run = false ∧ (pair d 3).ve.run = false := by
  decide +kernel

/-- SlotCommands: a COPY of kennel 1 for slot 0 of engine 0, its slot empty and with an active descriptor. -/
theorem witness_Slots :
    let d : Dev := { paged with pairOwner := [(0, 1)] }
    armCheck d 1 0 0 copyDesc = none ∧ slotUse paged 1 + 1 ≤ (kennel paged 1).quota.slots ∧ (sslot paged 0 0).shd = none ∧ (sslot paged 0 0).act = none := by
  decide +kernel

/-- TasksCreated: a request that names a manifest at address 64. -/
theorem witness_TaskCreate :
    let r : Req := { reqOf 0x60 with p0 := 64, p5 := 0x0000000008000000#64 }
    createField r 0x34 = none ∧ (kennel live1 1).st = .live ∧ task live1 1 = none ∧ r.p4.toNat ≤ 12600000000000 ∧
    (let d : Dev := { live1 with tasks := [(1, some { manifest := 64 })] }; Awake d ∧ task d 1 = some { manifest := 64 } ∧ tableBad d 1 64 = false ∧ canRead d 1 64 = false) := by unfold Awake Calm; decide +kernel

/-- TasksMove, TaskStatusAndStandby: a created task of a ring of one, a running one of steps 0 to 3. -/
theorem witness_Tasks :
    let d : Dev := { live1 with time := { tstate := .locked }, tasks := [(1, some { st := .created })] }
    let u : Task := { st := .running, stepLast := 3 }
    let r : Req := { reqOf 0x61 with p0 := 1000 }
    task d 1 = some { st := .created } ∧ ({ st := .created } : Task).isStandby = false ∧ ({ st := .created } : Task).ringSize = 1 ∧ beatNow d + 1000 ≤ r.p0.toNat ∧
    stepInProgress u ≤ 2 ∧ 2 ≤ u.stepLast ∧ u.st.active = true := by decide +kernel

/-- BatchesAndRows: a schedule of two rows in page 0; a batch that has been waited for. The batch table is open (log 8): where it has one row at address 0,
batch 0 may be put. -/
theorem witness_Rows :
    let t : Task := { st := .running, secs := [⟨0x08, 0, 0, List.replicate 128 0, 0⟩], p5 := put 64 27 1, batchReq := [(3, 0, 0)] }
    let d : Dev := { paged with tasks := [(1, some t)], eclk := 2000000000 }
    (0 + 1) * 64 ≤ (t.data 0x08).length ∧ ((t.sec 0x08).map (·.addr)).getD 0 = 0 ∧ Awake d ∧ t.st.active = true ∧
    t.batchReq.any (fun z => due d z.2.2 (ms (1000 * t.batchWait))) = true ∧ begun { st := .created } 0 = false := by unfold Awake Calm; decide +kernel

theorem witness_Batch (h : ∀ i bs, Config.sectionWords 0x0B i bs = if i = 0 then [0] else []) :
    let t : Task := { st := .running, secs := [⟨0x0B, 0, 0, List.replicate 64 0, 0⟩], batchReq := [(3, 0, 0)] }
    0 < batchCount t ∧ batchPlace t 0 = 0 ∧ canWrite paged 1 (batchPlace t 0) = true := by
  have e : ∀ f bs, itemsOf (f + 2) 0 0x0B bs = [[0]] := fun f bs => by simp [itemsOf, h]
  have l (t : Task) (g : (t.data 0x0B).length = 62 + 2) : t.items 0x0B = [[0]] := by unfold Task.items; rw [g]; exact e 62 _
  intro t
  have z := l t (by rfl)
  unfold batchCount batchPlace
  rw [z]
  decide +kernel

/-- EventsNeverWait, ReplyIsWritten, HintsUpdate: a ring with room, a full one, and one with lost events and two free entries. -/
theorem witness_Events :
    let x := box 0 (reqOf 1)
    0 < eqFree x ∧ x.lost = 0 ∧ eqFree { x with eqUsed := 16 } = 0 ∧ eqFree { x with eqUsed := 14, lost := 2 } = 2 ∧ ready.dstate.code < 2 ^ 10 ∧ mbx (asks ready 0 (reqOf 1)) 0 = some x ∧ x.req = some (reqOf 1) ∧ x.sqHead < 2 ^ 15 ∧ (7 : BitVec 16) ≠ 0 := by
  decide +kernel

/-- R358: the port number of class 1 is below 16: item 16 is refused with `SC_RANGE`, and item 15 is staged. -/
theorem test_stage :
    gives (exec (.cfgStage 0 {}) (on (asks config 0 { reqOf 0x21 with p0 := 0x010000000000000F#64, p1 := 0x3000000000000000#64, p2 := 5 })))
      (fun d => Tbl.get portDefault d.epochStaged.ports 15 == (0x3000000000000000#64, 5)) = true := by decide +kernel

/-- R364: HQ_PUSH of three biscuits into a queue with room for two stores two. -/
theorem test_push :
    gives (exec (.hqPush 0) (on (asks { live1 with hqs := [(5, { cfg := put 64 63 1 ||| put 64 57 1 ||| put 64 53 4, items := List.replicate 14 7 })] } 1
      { reqOf 0x51 with p0 := 0x30005#64, p1 := 1, p2 := 2, p3 := 3 })))
      (fun d => (hq d 5).items == List.replicate 14 7 ++ [1, 2] && (hq d 5).fullSeen) = true := by decide +kernel

/-! ### Host ports, functions and mailboxes -/

/-- Port 0 with function 0 `f` and one virtual function, and mailbox 0 of function 1, which belongs to kennel 0. -/
def host (f : Fn) : Dev := { dstate := .ready, fns := [(0, f)], hports := [(0, { numVfs := 2 })] }
def mbx0 : Mbx := { port := 0, fn := 0, kennel := 0, version := 0x34 }

/-- AttachDoorbell: functions without an attach, with one in progress, and with one held behind it; a function that does not exist. -/
theorem witness_Attach :
    let a : DWord := 0x1000
    FnThere (on (host {})) 0 0 ∧ fnExists (host {}) 0 3 = false ∧ fld a 63 12 ≠ 0 ∧ (fn (host {}) 0 0).attaching = none ∧ (fn (host {}) 0 0).held = none ∧
    (fn (host { attaching := some a }) 0 0).attaching ≠ none ∧ (fn (host { attaching := some a, held := some a }) 0 0).held ≠ none ∧ Awake { host {} with dstate := .boot } := by
  unfold FnThere Awake Calm; decide +kernel

/-- An MCB: rings of 16, 16 and 16 entries, versions 0x26 to 0x34. -/
def mcb (lo hi : Nat) : List Byte := List.replicate 24 0 ++ words [put 64 60 4 ||| put 64 56 4 ||| put 64 52 4 ||| put 64 44 lo ||| put 64 36 hi] ++ List.replicate 32 0

/-- AttachAnswers, AttachChecks: an attach in progress; an MCB with a common version, one without, and a malformed one. -/
theorem witness_AttachAnswers :
    let f : Fn := { attaching := some 0x1000, busMaster := true }
    let x := attachCheck (host f) 0 0 (mcb 0x26 0x34)
    FnThere (on (host f)) 0 0 ∧ (fn (host f) 0 0).attaching = some 0x1000 ∧ (host f).bootCause = none ∧ x.1 = .ok ∧ x.2.isSome = true ∧ mcbFormat (mcb 0x26 0x34) = false ∧
    mcbFormat (mcb 0x34 0x26) = true ∧ (∀ v ∈ [0x34, 0x33, 0x32, 0x31, 0x30, 0x26], v < fld (mcbWord (mcb 0x40 0x41) 3) 51 44 ∨ fld (mcbWord (mcb 0x40 0x41) 3) 43 36 < v) ∧
    kennelOfFn 2 ≠ 0 ∧ (kennel (host f) (kennelOfFn 2)).st ≠ .live := by
  unfold FnThere Awake Calm; decide +kernel

/-- MailboxDoorbell, RequestsBegin, FirstChecksOrder: a mailbox of another function, a doorbell in range and one beyond the ring; requests that the checks pass and refuse. -/
theorem witness_Doorbell :
    let d : Dev := { host {} with mbx := [(0, some { mbx0 with sqTail := 1 })] }
    FnThere (on d) 0 0 ∧ mbx d 1 = none ∧ mbx d 0 = some { mbx0 with sqTail := 1 } ∧ mbx0.fn ≠ 1 ∧ doorbellBad mbx0 0x10#64 = true ∧ doorbellBad mbx0 0xF#64 = false ∧
    0 < eqFree mbx0 ∧ mbx0.lost = 0 ∧ ({ mbx0 with sqTail := 1 } : Mbx).sqHead ≠ 1 ∧ mbx0.cqUsed < 2 ^ mbx0.cqLog ∧
    frontCheck mbx0 (reqOf 1) = none ∧ frontCheck mbx0 (reqOf 0xFF) = some .unsupported ∧ frontCheck mbx0 (reqOf 1 1) = some .format ∧
    (∃ c, cmdOf (reqOf 0x10).cmd 0x34 = some c ∧ c.mgmt = true) ∧ frontCheck { mbx0 with kennel := 1 } (reqOf 0x10) = some .denied := by
  unfold FnThere Awake Calm; decide +kernel

/-- MailboxTimers: a stalled mailbox, a number to free, lost events with two free entries, a due interval on unmasked vectors. -/
theorem witness_MailboxTimers :
    let x : Mbx := { mbx0 with stallSince := some 0, cqUsed := 16, sqTail := 1, lost := 3, cqDue := some 0, eqDue := some 0 }
    let d : Dev := { host { msixEn := true, busMaster := true, table := [(0, 1)] } with mbx := [(0, some x)], mbxFreed := [(1, 1)], eclk := 100000000000 }
    Awake d ∧ due d 0 (ms 10000) = true ∧ 2 ^ x.cqLog ≤ x.cqUsed ∧ x.sqHead ≠ x.sqTail ∧ Tbl.get 0 d.mbxFreed 1 = 0 + 1 ∧ due d 0 (ms 1) = true ∧ 2 ≤ eqFree x ∧
    due d 0 (us x.coal) = true ∧ messagesGo (fn d x.port x.fn) = true ∧ vecMasked (fn d x.port x.fn) x.cqVec = false := by unfold Awake Calm; decide +kernel

/-- FunctionsEnd, PortsTrain, FunctionRegisters: function 1 of port 0, below two virtual functions; its mailbox names an unmasked vector. -/
theorem witness_Functions :
    let d : Dev := { host {} with fns := [(1, { msixEn := true, busMaster := true, table := [(0, 1)] })], mbx := [(0, some { mbx0 with fn := 1 })] }
    FnThere (on d) 0 1 ∧ namesVector d 0 1 = true ∧ namesVector (host {}) 0 1 = false ∧ 1 < (hport d 0).numVfs ∧ (hport d 1).numVfs < 1 ∧ messagesGo {} = false ∧
    messagesGo { msixEn := true, busMaster := true } = true ∧ vecMasked { table := [(0, 1)] } 0 = false := by unfold FnThere Awake Calm; decide +kernel

/-- R339, R341: an attach of versions 0x26 to 0x34 gives mailbox 0 and counts an attach. -/
theorem test_attach :
    gives (exec (.mbxAttach 0 0 (some (mcb 0x26 0x34)) true) (on (host { attaching := some 0x1000, busMaster := true })))
      (fun d => (mbx d 0).isSome && (fn d 0 0).attachDone && (fn d 0 0).gen == 1) = true := by decide +kernel

/-- R431: a write of 1 to `ATTACH_DONE` clears it and leaves `WR_DROP`. -/
theorem test_status :
    gives (exec (.fnStatusWrite 0 0 2) (on (host { attachDone := true, wrDrop := true }))) (fun d => !(fn d 0 0).attachDone && (fn d 0 0).wrDrop) = true := by decide +kernel

/-! ### Power, sensors, throttle and management -/

/-- A module in OFF with step `on` of its rails switched on. -/
def rising (on good : Nat) : Dev := { dstate := .off, power := { railsOn := on, railsGood := good, good := false } }
/-- Sensor 1 reads 54 V: `PWR_EN` counts. -/
def inputOk : Tbl Sensor := [(1, { filtered := some 54000 })]

/-- RailsRise, RailsFall: each step of the rails, the input in and out of range, a latch to release. -/
theorem witness_Rails :
    let up : Dev := { dstate := .ready, sensors := inputOk }
    let down : Dev := { rising 1 0 with power := { railsOn := 1, railsGood := 0, down := true, good := false, lowSince := some 0 }, eclk := ms 100 }
    Calm (rising 3 2) ∧ (rising 3 2).power.down = false ∧ (rising 3 2).power.railsGood ≠ (rising 3 2).power.railsOn ∧ 6 ≤ (rising 6 5).power.railsOn ∧
    enCounts up = true ∧ enCounts (rising 3 2) = false ∧ up.power.pwrEn = true ∧ 0 < up.power.railsOn ∧ Calm down ∧ due down 0 (ms 100) = true ∧
    (rising 2 0).power.railsOn > 1 ∧ Calm up := by unfold Calm; decide +kernel

/-- EmergenciesLatch: rail 3 past the window of its step; sensors 4, 26, 31, 2 and 3. -/
theorem witness_Emergencies :
    let d : Dev := { rising 1 0 with eclk := ms 1000 }
    0 < railStep 3 ∧ d.power.down = false ∧ d.power.railsGood < railStep 3 ∧ due d d.power.stepSince (railWindow (railStep 3)) = true ∧ Calm d ∧ ({} : Power).good = true := by
  unfold Calm; decide +kernel

/-- FaultsEndTasks, ModuleResets, BootEnds: a module that runs a task, one in OFF, and one in BOOT whose image in slot A verifies, or no longer does. -/
theorem witness_Boots :
    let b : Dev := State.reset.d
    Awake { dstate := .running, tasks := [(1, some { st := .running })] } ∧ Calm (rising 0 0) ∧
    (Awake b ∧ b.dstate = .boot ∧ b.power.good = true ∧ b.power.modRst = false ∧ b.tasks = [] ∧ (∀ p < 16, (port b p).st ≠ .up)) ∧
    bootSlot b {} = some (false, false) ∧ bootSlot b { slotA := { digest := false } } = none ∧ ({ memFail := some 0x100 } : BootIn).memFail ≠ none ∧
    (∀ id < 32, (sensor b id).safe = false) ∧ present b 0 = true ∧ present { b with fuses := { presence := 1 } } 5 = false ∧ repaired (repairRecord { b with fuses := { repair := [(0, 0x200)] } } 0) = true ∧
    (let v : Slot := { factorySlot with commit := some (2, 224) }; bootSlot { b with slotB := v } {} = some (true, false) ∧ verifies { b with slotB := v } v {} = true) := by
  unfold Awake Calm; decide +kernel

/-- SensorsJudge: sensors 4 and 3 of a module in READY, a sample in and out of range, one last seen long ago, and a held limit. -/
theorem witness_Sensors :
    let d : Dev := { dstate := .ready, eclk := ms 20000, sensors := [(1, { last := some 0 }), (4, { last := some 0, calm := some 0, held := true })] }
    Calm d ∧ watched d 4 = true ∧ watched { d with dstate := .boot } 4 = false ∧ sampleOk 4 40000 = true ∧ sampleOk 4 900000 = false ∧ (sensor d 4).beyond = none ∧
    sampleOk 3 2000000 = true ∧ (∃ lim, sensorTimeout 4 = some lim ∧ due d 0 lim = true) ∧ due d 0 (ms 10000) = true ∧ (sensor d 4).failed = false ∧ watched d 3 = true := by
  unfold Calm; decide +kernel

/-- ThrottleFollows: ten samples of 2,500 W, and a second of level 6. -/
theorem witness_Throttle :
    let d : Dev := { dstate := .running, eclk := ms 1000, thr := { sum := 25000000, count := 10, sixSince := some 0, powerRose := true } }
    Awake d ∧ (sensor d 3).failed = false ∧ 0 < d.thr.count ∧ due d 0 (ms 1000) = true ∧ d.thr.powerRose = true ∧ d.thr.thermalRose = false ∧ (sensor d 3).safe = false ∧
    d.dstate ∈ safeFrom := by unfold Awake Calm; decide +kernel

/-- PldmAnswers, SlotHolders: a sensor with a reading, one without; a free slot, one held by PLDM that verifies and one held by a mailbox. -/
theorem witness_Pldm :
    let d : Dev := { dstate := .config, eclk := ms 60000, sensors := inputOk }
    let h : Dev := { d with holder := some (.pldm, 0), runningB := some true }
    Calm d ∧ d.power.standby = true ∧ (∃ v, sensorValue d 1 = some v) ∧ sensorValue d 2 = none ∧ d.dstate ∉ [.off, .boot] ∧ (.off : DState) ∈ [DState.off, .boot] ∧
    d.holder = none ∧ inactiveB h = false ∧ verifies h (imgSlot h (inactiveB h)) {} = true ∧ due h 0 (ms 60000) = true ∧ verifies h (imgSlot h true) {} = false := by
  refine ⟨by unfold Calm; decide +kernel, by decide +kernel, ⟨_, rfl⟩, ?_⟩; decide +kernel

/-- MctpReassembles, EthernetSeeks: a message under way for 100 ms, and a link that seeks for 500 ms, or is up with an address. -/
theorem witness_Mgmt :
    let d : Dev := { dstate := .config, eclk := ms 500, mgmt := { asm := some ⟨1, 2, [3], 0⟩ } }
    let e : Dev := { d with mgmt := { ethUp := true, ip := some 5 } }
    Awake d ∧ d.power.standby = true ∧ d.mgmt.asm = some ⟨1, 2, [3], 0⟩ ∧ due d 0 (ms 100) = true ∧ d.mgmt.ethUp = false ∧ due d d.mgmt.ethSince (ms 500) = true ∧
    Awake e ∧ e.mgmt.asm = none ∧ e.mgmt.ip = some 5 ∧ [7#8].length ≤ 4096 := by unfold Awake Calm; decide +kernel

/-- R442: the fifth step's power good switches the sixth on; its own makes `PWR_GOOD_N` low and starts BOOT. -/
theorem test_rails :
    gives (exec .railStepGood (on (rising 5 4))) (fun d => d.power.railsOn == 6 && !d.power.good && d.dstate == .off) = true ∧
    gives (exec .railStepGood (on (rising 6 5))) (fun d => d.power.good && d.dstate == .boot) = true := by decide +kernel

/-- R447: from reset a BOOT that meets nothing wrong ends in CONFIG. -/
theorem test_boot : gives (exec (.boot {}) State.reset) (fun d => d.dstate == .config && d.runningB == some false) = true := by decide +kernel

/-! ### Every command, and well-formedness -/

/-- EveryCommandRuns, OffAnswersNothing: a pair that the presence map lacks and one that it has; a module in OFF. -/
theorem witness_Every :
    let d : Dev := { dstate := .off, fuses := { presence := 1 } }
    present d 0 = true ∧ present d 1 = false ∧ d.dstate = .off ∧ onStandby (.nop 0) = false ∧ pairOf (.nop 1) = some 1 ∧ pairOf (.startBeat 0) = none := by decide +kernel

/-- ReportsAnswered: a state in which no report waits. -/
theorem witness_Answered : (on ready).answered ∧ ∃ t, step (on ready) = .next t := ⟨rfl, _, rfl⟩

/-- KennelMemoryIsolated: a NOP of a kennel-1 mailbox is no command of a code from 0x40; UNMAP is, and it answers. -/
theorem witness_Isolated :
    let s := on (asks live1 1 (reqOf 0x41))
    Served s 0 0x41 (box 1 (reqOf 0x41)) (reqOf 0x41) ∧ gives (exec (.unmap 0) s) (fun d => d.begun == []) = true := by unfold Served Awake Calm; decide +kernel

/-- BlocksRoundTrip: a block of 4,096 bytes. -/
theorem witness_Blocks : (List.replicate 4096 (0 : Byte)).length = 4096 ∧ 3 < 4 := ⟨List.length_replicate, by decide⟩

/-- RegistersTakeWrites: frames of `MIG_CONFIG` in order and not; BarWrites: a function that exists. -/
theorem witness_Registers :
    let v : DWord := 0x8000400#64
    Awake ready ∧ present ready 0 = true ∧ fld v 15 0 < fld v 31 16 ∧ fld v 31 16 * 4 ≤ frameTotal ∧ fld (0x4000800#64) 31 16 ≤ fld (0x4000800#64) 15 0 ∧ FnThere (on ready) 0 0 := by
  unfold FnThere Awake Calm; decide +kernel

/-- BarReads: a function that exists, of a module that has run slot B's image and applied an epoch. -/
theorem witness_BarReads :
    let d : Dev := { host {} with runningB := some true, epochOn := true }
    fnExists d 0 0 = true ∧ attachedCount d 0 0 ≤ 4096 ∧ d.epochRun.moduleNo < 4096 := by decide +kernel

/-- The smoke test of well-formedness: one ill-formed term for each check, and one well-formed term. -/
theorem test_wf_units :
    Instr.wf (.biscuitArrival (.seq 48)) = false ∧ Instr.wf (.queuePush (.ve 48)) = false ∧ Instr.wf (.queuePop (.se 80 0)) = false ∧ Instr.wf (.queuePop (.se 0 32)) = false ∧
    Instr.wf (.pushRetry (.zl 16)) = false ∧ Instr.wf (.pushRetry (.zl 15)) = true := by decide +kernel

theorem test_wf_flits :
    let f : Flit := (rx 0 0 0 0 []).flit
    Instr.wf (.neg 0 { flit := { f with ftype := 16 } }) = false ∧ Instr.wf (.negDone 0 { flit := { f with tc := 4 } }) = false ∧ Instr.wf (.idle 0 { flit := { f with ktag := 64 } }) = false ∧
    Instr.wf (.tcred 0 { flit := { f with pay := List.replicate 257 0 } }) = false ∧ Instr.wf (.bark 0 { flit := f, seq := 1024 } 0) = false ∧ Instr.wf (.red 0 { flit := f, ack := 1024 }) = false ∧
    Instr.wf (.redX 0 { flit := { f with ftype := 16 } }) = false ∧ Instr.wf (.mcast 0 { flit := { f with tc := 4 } }) = false ∧ Instr.wf (.readReq 0 { flit := { f with ktag := 64 } } .clean) = false ∧
    Instr.wf (.readRsp 0 { flit := f, seq := 1024 }) = false ∧ Instr.wf (.idle 0 { flit := f }) = true := by decide +kernel

theorem test_wf_rcv :
    let r : RxFlit := { flit := (rx 0 0 0 0 []).flit, seq := 1024 }
    Instr.wf (.rcvAbort 0 r) = false ∧ Instr.wf (.rcvNbr 0 r) = false ∧ Instr.wf (.rcvQuiet 0 r) = false ∧ Instr.wf (.rcvLost 0 r) = false ∧ Instr.wf (.rcvAdopt 0 r) = false ∧
    Instr.wf (.rcvJoin 0 (r, none)) = false ∧ Instr.wf (.rcvGo 0 r none) = false ∧ Instr.wf (.rcvEnd 0 r) = false ∧ Instr.wf (.rcvCommitted 0 r) = false ∧ Instr.wf (.rcvSealed 0 r) = false ∧
    Instr.wf (.rcvAbort 0 { r with seq := 0 }) = true := by decide +kernel

theorem test_wf_board :
    Instr.wf (.registerWrite (.bar 0 0 0 2) 0) = false ∧ Instr.wf (.registerWrite (.bar 0 0 4 8) 0) = false ∧ Instr.wf (.registerWrite (.bar 0 0 4 4) 0) = true ∧
    Instr.wf (.drain 0 [65536]) = false ∧ Instr.wf (.mbxAttach 0 0 (some []) true) = false ∧ Instr.wf (.hostPortTrain 0 64 0 true) = false ∧ Instr.wf (.hostPortTrain 0 64 17 true) = false ∧
    Instr.wf (.sensorTrip 0) = false ∧ Instr.wf (.sensorSample 0 0) = false ∧ Instr.wf (.sensorTimeout 0) = false ∧ Instr.wf (.limitCleared 0) = false ∧
    Instr.wf (.boot { memFail := some 12 }) = false ∧ Instr.wf (.boot { selfTest := some 48 }) = false ∧ Instr.wf (.boot { memFail := some 0x12F, selfTest := some 0xFFFF }) = true := by decide +kernel

/-- R1 of the table: no row gives bits, so no word spells a command. -/
theorem test_decode : decodeTableWord 16 0 = none ∧ (State.reset.withFetchWord 16 0).pending = [] := by decide +kernel

/-- StrictOrderFree: three contributions in another order and grouping. -/
theorem witness_Strict :
    let one : Fp := .fin false 1 0
    let two : Fp := .fin false 1 1
    let neg : Fp := .fin true 3 (-4)
    (SumTree.leaf [one, two, neg]).contributions.Perm (SumTree.node (.leaf [neg]) (.leaf [two, one])).contributions := by decide +kernel

end Sys2Proof.Tests
end

namespace Sys2Proof.Machine

/-! ### How a command runs

Each of the commands runs in one of three ways: as a command of a unit, of an engine pair, or of the board. -/

/-- The way in which a command becomes an outcome: as one of a unit, which needs the module's power; of an engine pair, which needs the pair as well; or of the
board, whose effect is settled in every device state. -/
inductive RunsAs (c : Instr) : Prop
  | unit (f : Dev → Dev) (noPair : pairOf c = none) (runs : ∀ s, exec c s = run f s)
  | pair (e : Eng) (f : Dev → Dev) (own : pairOf c = some e) (runs : ∀ s, exec c s = runPair e f s)
  | board (noPair : pairOf c = none) (standby : onStandby c = true) (runs : ∀ s, ∃ d, exec c s = .next { s with d := settle d })

/-- A register write runs as a command of the pair whose register it names, and of a unit where it names none. -/
theorem registerWrite_runsAs (r : Reg) (v : DWord) : RunsAs (.registerWrite r v) := by
  cases r with
  | opeStatus e | seqConfig e | seqStatus e | seqBeat0 e | veConfig e | veStatus e | veBeat0 e => exact .pair e _ rfl (fun _ => rfl)
  | _ => exact .unit _ rfl (fun _ => rfl)

/-- Every command runs in one of the three ways. -/
theorem exec_runsAs (c : Instr) : RunsAs c := by
  cases c with
  | registerWrite r v => exact registerWrite_runsAs r v
  | seqStart e | seqAbort e | sliceTakeUp e | sliceIssue e | weightLoad e | promotion e | drain e | checkCycle e
  | sliceCompletion e | haltDescriptor e | veStart e | veAbort e | taskSeedWrite e | nop e | fadd e | fsub e | fmul e
  | fma e | fnma e | fmin e | fmax e | fcmp e | sel e | mov e | iadd e | isub e | imin e | imax e | icmp e | cvt e | qnt e
  | itof e | ftoi e | ld e | st e | sts e | gld e | gst e | glog e | psum e | sscan e | rsum e | rmin e | rmax e | exp2 e
  | log2 e | rcp e | rsqrt e | tanh e | xclr e | xadd e | xrd e | xst e | xmrg e | sset e | sadd e | sadd64 e | smovv e
  | xrds e | gblk e | loop e | rctx e | popq e | pushq e | group e | halt e | veGroupCompletion e => exact .pair e _ rfl (fun _ => rfl)
  | beatBoundary | vinInRange | pwrEnRise | railStepGood | railFault | railPowerLoss | pwrEnFall | inputLoss
  | inputOvercurrent | sensorTrip | railOffStep | modRst | sensorSample | sensorTimeout | limitCleared
  | pldmSetEffecter | pldmGetSensor | pldmFruRead | pldmRequestUpdate | pldmActivate | i3cEntdaa | mctpPacket
  | mctpReassemblyTimeout | emergencyLatchRelease | mctpSetEndpointId | pldmCancelUpdate | pldmFirmwareData =>
    exact .board rfl rfl (fun _ => ⟨_, rfl⟩)
  | _ => exact .unit _ rfl (fun _ => rfl)

/-- In OFF a unit without power changes nothing. -/
theorem run_off (f : Dev → Dev) (s : State) (h : s.d.dstate = .off) : run f s = .next s := by simp [run, powered, h]

theorem runPair_off (e : Eng) (f : Dev → Dev) (s : State) (h : s.d.dstate = .off) : runPair e f s = .next s := by
  simp [runPair, run_off f s h]

/-- A command of a pair that the presence map lacks changes nothing (R6). -/
theorem runPair_absent (e : Eng) (f : Dev → Dev) (s : State) (h : present s.d e.val = false) : runPair e f s = .next s := by
  simp [runPair, h]

/-- Every command has a next state, and the commands that wait in the queue are those of before. -/
theorem exec_next (c : Instr) (s : State) : ∃ t, exec c s = .next t ∧ t.pending = s.pending := by
  cases exec_runsAs c with
  | unit f _ runs => exact ⟨_, runs s, rfl⟩
  | board _ _ runs =>
    obtain ⟨d, next⟩ := runs s
    exact ⟨_, next, rfl⟩
  | pair e f _ runs =>
    rw [runs s]
    by_cases h : present s.d e.val
    · exact ⟨_, if_pos h, rfl⟩
    · exact ⟨s, if_neg h, rfl⟩

/-- A command of a pair that the presence map lacks has no side effect. -/
theorem exec_absent (c : Instr) (s : State) (e : Eng) (own : pairOf c = some e) (h : present s.d e.val = false) : exec c s = .next s := by
  cases exec_runsAs c with
  | unit f noPair _ => simp [own] at noPair
  | board noPair _ _ => simp [own] at noPair
  | pair e' f own' runs =>
    obtain rfl : e = e' := Option.some.inj (own.symm.trans own')
    rw [runs, runPair_absent e f s h]

/-- In OFF every command but those of the standby island leaves the module as it is. -/
theorem exec_off (c : Instr) (s : State) (off : s.d.dstate = .off) (h : onStandby c = false) : exec c s = .next s := by
  cases exec_runsAs c with
  | unit f _ runs => rw [runs, run_off f s off]
  | pair e f _ runs => rw [runs, runPair_off e f s off]
  | board _ standby _ => simp [h] at standby

end Sys2Proof.Machine

namespace Sys2Proof.Proofs

open Sys2Proof.Machine

/-- Settles O55: each command runs as one of a unit, of a pair or of the board, and each of the three ways ends in a next state. -/
theorem commandsRunAndOffIsSilent : Obligations.CommandsRunAndOffIsSilent :=
  ⟨fun c s => ⟨exec_absent c s, exec_next c s⟩, exec_off⟩

end Sys2Proof.Proofs

namespace Sys2Proof.Machine

/-! ### Fields and flags of a word that is put together -/

section Fields

variable {n : Nat} (a b : BitVec n) (hi lo i place v : Nat) (x : Bool)

theorem fld_or : fld (a ||| b) hi lo = fld a hi lo ||| fld b hi lo := by
  simp [fld, Nat.shiftRight_or_distrib, Nat.or_mod_two_pow]

theorem bit_or : bit (a ||| b) i = (bit a i || bit b i) := BitVec.getLsbD_or

theorem putB_eq_put : putB n place x = put n place x.toNat := by cases x <;> simp [putB, put]

variable {hi lo i place v}

/-- A field that is put into a word is read back. -/
theorem fld_put_self (inside : hi < n) (fits : v < 2 ^ (hi + 1 - lo)) (ordered : lo ≤ hi) : fld (put n lo v) hi lo = v := by
  have whole : v <<< lo < 2 ^ n := calc
    v <<< lo = v * 2 ^ lo := Nat.shiftLeft_eq v lo
    _ < 2 ^ (hi + 1 - lo) * 2 ^ lo := Nat.mul_lt_mul_of_pos_right fits (Nat.two_pow_pos lo)
    _ = 2 ^ (hi + 1) := by rw [← Nat.pow_add, Nat.sub_add_cancel (by omega)]
    _ ≤ 2 ^ n := Nat.pow_le_pow_right (by decide) inside
  rw [fld, put, BitVec.toNat_ofNat, Nat.mod_eq_of_lt whole, Nat.shiftLeft_shiftRight, Nat.mod_eq_of_lt fits]

/-- A field that ends below the bits that are read leaves them zero. -/
theorem fld_put_below (ends : v < 2 ^ (lo - place)) (order : place ≤ lo) : fld (put n place v) hi lo = 0 := by
  have short : (put n place v).toNat < 2 ^ lo := calc
    (put n place v).toNat ≤ v <<< place := by rw [put, BitVec.toNat_ofNat]; exact Nat.mod_le _ _
    _ = v * 2 ^ place := Nat.shiftLeft_eq v place
    _ < 2 ^ (lo - place) * 2 ^ place := Nat.mul_lt_mul_of_pos_right ends (Nat.two_pow_pos place)
    _ = 2 ^ lo := by rw [← Nat.pow_add, Nat.sub_add_cancel order]
  rw [fld, Nat.shiftRight_eq_div_pow, Nat.div_eq_of_lt short, Nat.zero_mod]

theorem getLsbD_put : (put n place v).getLsbD i = (decide (i < n) && (decide (place ≤ i) && v.testBit (i - place))) := by
  simp [put, BitVec.getLsbD_ofNat, Nat.testBit_shiftLeft]

/-- A field that begins above the bits that are read leaves them zero. -/
theorem fld_put_above (begins : hi < place) : fld (put n place v) hi lo = 0 := by
  refine Nat.eq_of_testBit_eq fun i => ?_
  have out : i < hi + 1 - lo → (put n place v).toNat.testBit (lo + i) = false := fun h => by
    rw [BitVec.testBit_toNat, getLsbD_put]
    simp; omega
  simpa [fld, Nat.testBit_mod_two_pow, Nat.testBit_shiftRight] using out

theorem fld_putB_below (order : place < lo) : fld (putB n place x) hi lo = 0 := by
  rw [putB_eq_put, fld_put_below _ (Nat.le_of_lt order)]
  calc
    x.toNat < 2 ^ 1 := x.toNat_lt
    _ ≤ 2 ^ (lo - place) := Nat.pow_le_pow_right (by decide) (by omega)

theorem bit_put_above (begins : i < place) : bit (put n place v) i = false := by
  rw [bit, getLsbD_put]
  simp [Nat.not_le_of_lt begins]

theorem bit_putB (inside : i < n) : bit (putB n place x) i = (decide (i = place) && x) := by
  rw [putB_eq_put, bit, getLsbD_put]
  rcases Nat.lt_trichotomy i place with h | rfl | h
  · simp [Nat.not_le_of_lt h, Nat.ne_of_lt h]
  · cases x <;> simp [inside]
  · have small : x.toNat.testBit (i - place) = false := Nat.testBit_lt_two_pow (calc
      x.toNat < 2 ^ 1 := x.toNat_lt
      _ ≤ 2 ^ (i - place) := Nat.pow_le_pow_right (by decide) (by omega))
    simp [small, Nat.ne_of_gt h]

end Fields

/-- The number that bytes spell is below 256 to the number of bytes. -/
theorem leNat_lt (bs : List Byte) : leNat bs < 256 ^ bs.length := by
  induction bs with
  | nil => decide
  | cons b r ih =>
    have := b.isLt
    rw [leNat, List.length_cons, Nat.pow_succ]
    omega

theorem readNat_lt (m : Mem) (a n : Nat) : Mem.readNat m a n < 256 ^ n := by
  simpa [Mem.readNat, Mem.read] using leNat_lt (Mem.read m a n)

/-! ### What a host reads -/

theorem fwVer_lt (d : Dev) : fwVer d < 2 ^ 32 := by
  unfold fwVer
  split
  · exact readNat_lt _ 8 4
  · exact readNat_lt _ 8 4
  · decide

theorem grade_lt (f : Fuses) : f.grade < 2 ^ 8 := by
  unfold Fuses.grade
  split <;> decide

theorem dstate_code_lt (x : DState) : x.code < 2 ^ 4 := by cases x <;> decide
theorem tstate_code_lt (x : TState) : x.code < 2 ^ 2 := by cases x <;> decide

/-- The read of eight bytes at an aligned offset of a function that exists. -/
theorem barRead_eight (d : Dev) (p n ofs : Nat) (there : fnExists d p n = true) (aligned : ofs % 8 = 0) :
    barRead d p n ofs 8 = barReg d p n ofs := by simp [barRead, there, aligned]

theorem idPart_fields (d : Dev) :
    fld (idPart d) 63 48 = 0x3024 ∧ fld (idPart d) 47 40 = d.fuses.grade ∧ fld (idPart d) 39 32 = 0xB0 ∧ fld (idPart d) 31 0 = fwVer d := by
  have g := grade_lt d.fuses
  have w := fwVer_lt d
  simp (disch := omega) only [idPart, fld_or, fld_put_self, fld_put_below, fld_put_above, Nat.or_zero, Nat.zero_or, and_self]

/-- The module number, the port and the function of Table 14-4. -/
theorem idFunc_fields (d : Dev) (p n : Nat) (port : p < 2) (function : n ≤ 64) (module : idModule d < 4096) :
    fld (idFunc d p n) 25 14 = idModule d ∧ fld (idFunc d p n) 7 7 = p ∧ fld (idFunc d p n) 6 0 = n := by
  simp (disch := omega) only [idFunc, fld_or, fld_put_self, fld_put_below, fld_put_above, Nat.or_zero, Nat.zero_or, and_self]

theorem fnStatus_state (d : Dev) (p n : Nat) (function : n ≤ 64) (attached : attachedCount d p n ≤ 4096) :
    fld (fnStatus d p n) 63 60 = d.dstate.code := by
  have code := dstate_code_lt d.dstate
  have clock := tstate_code_lt d.time.tstate
  have own : kennelOfFn n < 64 := by unfold kennelOfFn; split <;> omega
  simp (disch := omega) only [fnStatus, fld_or, fld_put_self, fld_put_below, fld_putB_below, Nat.or_zero]

theorem fnStatus_flags (d : Dev) (p n : Nat) :
    bit (fnStatus d p n) 2 = (fn d p n).devChange ∧ bit (fnStatus d p n) 1 = (fn d p n).attachDone ∧ bit (fnStatus d p n) 0 = (fn d p n).wrDrop := by
  simp [fnStatus, bit_or, bit_put_above, bit_putB]

/-- A mailbox's doorbell reads as zero (R435). -/
theorem barReg_doorbell (d : Dev) (p n m : Nat) (h : m < 4096) : barReg d p n (0x10000 + 8 * m) = 0 := by
  simp (disch := omega) only [barReg, if_neg]

theorem idPresence_bit (d : Dev) (e : Nat) (h : e < 48) : bit (idPresence d) e = bit d.fuses.presence e := by
  simp only [idPresence, bit, BitVec.getLsbD_setWidth, decide_eq_true (show e < 64 by omega), Bool.true_and]

/-- An access of a size or alignment that R428 does not allow reads zero. -/
theorem barRead_refused (d : Dev) (p n ofs size : Nat) (h : (size ≠ 4 ∧ size ≠ 8) ∨ ofs % 4 ≠ 0) : barRead d p n ofs size = 0 := by
  have eight : ¬(size = 8 ∧ ofs % 8 = 0) := by omega
  have four : ¬(size = 4 ∧ ofs % 4 = 0) := by omega
  simp only [barRead, if_neg eight, if_neg four, ite_self]

/-- Each register of Table 14-3 reads at its offset, and each field at its place. -/
theorem barReads : Claim.BarReads := by
  intro d p n ofs size there ix attached f at'
  have port : p < 2 := of_decide_eq_true (Bool.and_eq_true_iff.mp there).1
  have reads {o : Nat} (aligned : o % 8 = 0) : at' o = barReg d p n o := barRead_eight d p n o there aligned
  have part : at' 0x0 = idPart d := reads rfl
  have presence : at' 0x8 = idPresence d := reads rfl
  have function : at' 0x18 = idFunc d p n := reads rfl
  have status : at' 0x1000 = fnStatus d p n := reads rfl
  refine ⟨?_, fun e h => ?_, reads rfl, fun epoch h => ?_, ?_, ⟨reads rfl, reads rfl, reads rfl, reads rfl⟩, ⟨reads rfl, fun m h => ?_⟩,
    fun four eight => barRead_refused d p n ofs size (.inl ⟨four, eight⟩), fun odd => barRead_refused d p n ofs size (.inr odd), rfl, rfl, rfl⟩
  · obtain ⟨number, grade, stepping, firmware⟩ := idPart_fields d
    rw [part]
    exact ⟨number, grade, stepping, fun slot => by rw [firmware, fwVer, slot, slotFwVer]⟩
  · rw [presence, idPresence_bit d e h]
  · have module : idModule d = d.epochRun.moduleNo := if_pos epoch
    rw [function, ← module]
    exact idFunc_fields d p n port ix (module ▸ h)
  · rw [status]
    exact ⟨fnStatus_state d p n ix attached, fnStatus_flags d p n⟩
  · rw [reads (by omega), barReg_doorbell d p n m h]

/-! ### Register writes (R13) -/

/-- A write with no W1C field stores the RW bits and keeps the others. -/
theorem accWrite_stores {n : Nat} (rw old v : BitVec n) : accWrite rw 0 old v = (old &&& ~~~rw) ||| (v &&& rw) := by
  simp [accWrite]

section Calm

variable {d : Dev} (h : Calm d) (i : Nat)
include h

theorem Calm.modPair (f : Pair → Pair) : Calm (modPair d i f) := h.of_eq ⟨rfl, rfl⟩ rfl
theorem Calm.modHq (f : Hq → Hq) : Calm (modHq d i f) := h.of_eq ⟨rfl, rfl⟩ rfl
theorem Calm.modPort (f : Port → Port) : Calm (modPort d i f) := h.of_eq ⟨rfl, rfl⟩ rfl
theorem Calm.modMdie (f : MDie → MDie) : Calm (modMdie d i f) := h.of_eq ⟨rfl, rfl⟩ rfl
theorem Calm.modTime (f : TimeUnit → TimeUnit) : Calm (modTime d f) := h.of_eq ⟨rfl, rfl⟩ rfl

end Calm

/-- Watermark demotions are requests at the M-dies, so that nothing comes to wait at a task or a report. -/
theorem watermark_calm (fuel : Nat) {d : Dev} (m : Nat) (h : Calm d) : Calm (watermark fuel d m) := by
  induction fuel generalizing d with
  | zero => exact h
  | succ n ih =>
    unfold watermark
    simp only
    split
    · exact h
    · split
      · exact ih (h.modMdie m _)
      · exact h

theorem watermarkCheck_calm {d : Dev} (m : Nat) (h : Calm d) : Calm (watermarkCheck d m) := by
  unfold watermarkCheck
  simp only
  split
  · exact watermark_calm _ m (h.modMdie m _)
  · exact h.modMdie m _

/-- A register write that leaves the device calm does what the register says. -/
theorem registerWrite_runs (s : State) (r : Reg) (v : DWord) (awake : Awake s.d) (own : ∀ e, regPair r = some e → present s.d e = true)
    (calm : Calm (regWrite s.d r v)) : exec (.registerWrite r v) s = becomes s (regWrite s.d r v) := by
  have runs : run (fun d => regWrite d r v) s = becomes s (regWrite s.d r v) := run_calm _ s awake.1 calm
  change runReg r (fun d => regWrite d r v) s = _
  unfold runReg
  split
  · rename_i e named
    rw [if_pos (own e named), runs]
  · exact runs

/-- A write of a register of an engine pair that the presence map has. -/
theorem pairRegister_runs (s : State) (r : Reg) (v : DWord) (e : Eng) (awake : Awake s.d) (there : present s.d e.val = true)
    (own : regPair r = some e.val) (f : Pair → Pair) (writes : regWrite s.d r v = modPair s.d e.val f) :
    exec (.registerWrite r v) s = becomes s (modPair s.d e.val f) := by
  rw [← writes]
  refine registerWrite_runs s r v awake (fun e' named => ?_) (writes ▸ awake.2.modPair e.val f)
  rw [own] at named
  exact Option.some.inj named ▸ there

/-- A write of a register that is of no engine pair. -/
theorem unitRegister_runs (s : State) (r : Reg) (v : DWord) (d : Dev) (awake : Awake s.d) (own : regPair r = none)
    (writes : regWrite s.d r v = d) (calm : Calm d) : exec (.registerWrite r v) s = becomes s d := by
  subst writes
  exact registerWrite_runs s r v awake (fun e named => by simp [own] at named) calm

theorem migConfigWrite_ordered (d : Dev) (m : Nat) (v : DWord) (order : fld v 15 0 < fld v 31 16) (fits : fld v 31 16 * 4 ≤ frameTotal) :
    migConfigWrite d m v = watermarkCheck (modMdie d m (fun x => { x with cfg := accWrite migRw 0 x.cfg v })) m := by
  have inRange : migRange v = false := by simp [migRange, order, fits]
  simp [migConfigWrite, inRange]

theorem migConfigWrite_refused (d : Dev) (m : Nat) (v : DWord) (h : fld v 31 16 ≤ fld v 15 0 ∨ frameTotal < fld v 31 16 * 4) :
    migConfigWrite d m v = d := by
  have outOfRange : migRange v = true := by simpa [migRange] using h
  simp [migConfigWrite, outOfRange]

/-- R13: each unit register, with the fields that a write stores or clears. -/
theorem unitRegisterWrites : Claim.UnitRegisterWrites := by
  intro s v e p q m awake w stores
  have calm := awake.2
  refine ⟨fun there => ?_, ?_, ?_, ?_, ?_, fun order fits => ?_, fun refused => ?_, ?_, ?_⟩
  · have pairs (r : Reg) := pairRegister_runs s r v e awake there
    refine ⟨pairs _ rfl _ rfl, pairs _ rfl _ ?_, pairs _ rfl _ rfl, pairs _ rfl _ rfl, pairs _ rfl _ rfl, pairs _ rfl _ ?_, pairs _ rfl _ rfl⟩
    · simp only [regWrite, accWrite_stores, seqRw, stores]
    · simp only [regWrite, accWrite_stores, stores]
  · exact unitRegister_runs s _ v _ awake rfl rfl (calm.modHq q.toNat _)
  · exact unitRegister_runs s _ v _ awake rfl (by simp only [regWrite, accWrite_stores, stores]) (calm.modPort p.toNat _)
  · exact unitRegister_runs s _ v _ awake rfl rfl (calm.modPort p.toNat _)
  · exact unitRegister_runs s _ v _ awake rfl rfl (calm.modPort p.toNat _)
  · refine unitRegister_runs s _ v _ awake rfl ?_ (watermarkCheck_calm m.toNat (calm.modMdie m.toNat _))
    simp only [regWrite, migConfigWrite_ordered s.d m.toNat v order fits, accWrite_stores, migRw, stores]
  · exact unitRegister_runs s _ v _ awake rfl (migConfigWrite_refused s.d m.toNat v refused) calm
  · exact unitRegister_runs s _ v _ awake rfl rfl (calm.modTime (fun t => _))
  · exact unitRegister_runs s _ v _ awake rfl rfl calm

/-! ### Host writes of a BAR (R427, R428) -/

theorem barWrite_fnStatus (d : Dev) (p n : Nat) (v : DWord) : barWrite d p n 0x1000 8 v = fnStatusWrite d p n v := by
  cases h : fnExists d p n <;> simp [barWrite, fnStatusWrite, h, barOk, barReadOnly]

theorem barWrite_fnIntCtrl (d : Dev) (p n : Nat) (v : DWord) : barWrite d p n 0x1008 8 v = fnIntCtrlWrite d p n v := by
  cases h : fnExists d p n <;> simp [barWrite, fnIntCtrlWrite, h, barOk, barReadOnly]

theorem barWrite_attachDb (d : Dev) (p n : Nat) (v : DWord) : barWrite d p n 0x2000 8 v = attachDb d p n v := by
  cases h : fnExists d p n <;> simp [barWrite, attachDb, h, barOk, barReadOnly]

theorem barWrite_mbxDb (d : Dev) (p n m : Nat) (v : DWord) (inRange : m < 4096) : barWrite d p n (0x10000 + 8 * m) 8 v = mbxDb d p n m v := by
  cases h : fnExists d p n
  · simp [barWrite, mbxDb, h]
  · have ok : barOk (0x10000 + 8 * m) 8 = true := by simp [barOk]
    have writable : barReadOnly (0x10000 + 8 * m) = false := by simp [barReadOnly]; omega
    have slot : (0x10000 + 8 * m - 0x10000) / 8 = m := by omega
    simp (disch := omega) only [barWrite, h, ok, writable, slot, Bool.not_true, Bool.false_eq_true, ↓reduceIte, if_neg, if_pos]

/-- A write of a register whose every field is read-only changes nothing (R13). -/
theorem barWrite_readOnly (d : Dev) (p n ofs : Nat) (v : DWord) (h : ofs ∈ [0x0, 0x8, 0x10, 0x18, 0x1010, 0x1018, 0x1020]) :
    barWrite d p n ofs 8 v = d := by
  have aligned : ofs % 8 = 0 := by
    revert ofs
    decide
  have ok : barOk ofs 8 = true := by simp [barOk, aligned]
  have ro : barReadOnly ofs = true := by simp only [barReadOnly, List.contains_eq_mem, h, decide_true, Bool.true_or]
  simp [barWrite, ok, ro]

/-- A write below the MSI-X table whose size or alignment R428 does not allow is discarded. -/
theorem barWrite_discarded (d : Dev) (p n ofs size : Nat) (v : DWord) (there : fnExists d p n = true) (h : size ≠ 8 ∨ ofs % 8 ≠ 0) (low : ofs < 0x20000) :
    barWrite d p n ofs size v = setWrDrop d p n := by
  have bad : barOk ofs size = false := by simp [barOk]; omega
  simp [barWrite, there, bad]

/-- A message on a vector changes functions and outputs alone. -/
theorem sendMsix_frame (d : Dev) (p n v : Nat) : sendMsix d p n v = { d with fns := (sendMsix d p n v).fns, out := (sendMsix d p n v).out } := by
  unfold sendMsix
  simp only
  split_ifs <;> rfl

/-- A message leaves a function as it is, or adds a pending vector. -/
theorem fn_sendMsix (d : Dev) (p n v : Nat) : ∃ pend, fn (sendMsix d p n v) p n = { fn d p n with pend := pend } := by
  unfold sendMsix
  simp only
  split_ifs
  · exact ⟨_, rfl⟩
  · rw [fn_modFn]
    split_ifs <;> exact ⟨_, rfl⟩
  · exact ⟨_, rfl⟩

theorem updFn_frame (d : Dev) (p n : Nat) (wrote : Bool) (g : Fn → Fn) :
    updFn d p n wrote g = { d with fns := (updFn d p n wrote g).fns, out := (updFn d p n wrote g).out } := by
  unfold updFn
  simp only
  split_ifs
  · rw [sendMsix_frame]
    rfl
  · rfl

/-- A function after a change of it: the change, and what a status message leaves pending. -/
theorem fn_updFn (d : Dev) (p n : Nat) (wrote : Bool) (g : Fn → Fn) : ∃ pend, fn (updFn d p n wrote g) p n = { g (fn d p n) with pend := pend } := by
  unfold updFn
  simp only
  split_ifs
  · simpa only [fn_modFn] using fn_sendMsix (modFn d p n g) p n _
  · exact ⟨_, fn_modFn ..⟩

/-- `WR_DROP` sets and counts. -/
theorem fn_setWrDrop (d : Dev) (p n : Nat) :
    (fn (setWrDrop d p n) p n).wrDrop = true ∧ (fn (setWrDrop d p n) p n).wrDropCnt = (fn d p n).wrDropCnt + 1 := by
  obtain ⟨pend, after⟩ := fn_updFn d p n false (fun f => { f with wrDrop := true, wrDropCnt := inc f.wrDropCnt })
  rw [setWrDrop, after]
  exact ⟨rfl, rfl⟩

/-- The offset of a mailbox's doorbell (Table 14-3). -/
theorem doorbellOffset_toNat (m : MbxId) : (0x10000 + BitVec.ofNat 18 (8 * m.toNat) : BitVec 18).toNat = 0x10000 + 8 * m.toNat := by
  have := m.isLt
  have base : (0x10000 : BitVec 18).toNat = 0x10000 := rfl
  rw [BitVec.toNat_add, BitVec.toNat_ofNat, base]
  omega

/-- Writes of a BAR whose operation is that of a command run as that command. -/
theorem exec_bar_eq_run (s : State) (p : HostPort) (n : FnIx) (ofs size : BitVec 18) (v : DWord) (f : Dev → Dev)
    (same : ∀ d, barWrite d p.val n.val ofs.toNat size.toNat v = f d) : exec (.registerWrite (.bar p n ofs size) v) s = run f s :=
  congrArg (run · s) (funext same)

/-- R427, R428: each offset with a command, the read-only registers, and the accesses that are discarded. -/
theorem barWrites : Claim.BarWrites := by
  intro s p n v m ofs size w
  refine ⟨?_, ?_, ?_, ?_, fun there readOnly => ?_, fun there bad low => ?_⟩
  · exact exec_bar_eq_run s p n _ _ v _ fun d => barWrite_fnStatus d p.val n.val v
  · exact exec_bar_eq_run s p n _ _ v _ fun d => barWrite_fnIntCtrl d p.val n.val v
  · exact exec_bar_eq_run s p n _ _ v _ fun d => barWrite_attachDb d p.val n.val v
  · refine exec_bar_eq_run s p n _ _ v _ fun d => ?_
    rw [doorbellOffset_toNat]
    exact barWrite_mbxDb d p.val n.val m.toNat v m.isLt
  · exact unitRegister_runs s (.bar p n ofs 8) v _ there.1 rfl (barWrite_readOnly s.d p.val n.val ofs.toNat v readOnly) there.1.2
  · obtain ⟨awake, real⟩ := there
    have refused : size.toNat ≠ 8 ∨ ofs.toNat % 8 ≠ 0 := bad.imp_left fun h e => h (BitVec.eq_of_toNat_eq e)
    have drops := barWrite_discarded s.d p.val n.val ofs.toNat size.toNat v real refused low
    have calm : Calm (setWrDrop s.d p.val n.val) := awake.2.host (HostOnly.setWrDrop s.d p.val n.val)
    obtain ⟨flag, count⟩ := fn_setWrDrop s.d p.val n.val
    exact ⟨_, unitRegister_runs s (.bar p n ofs size) v _ awake rfl drops calm, flag, count, updFn_frame ..⟩

end Sys2Proof.Machine

namespace Sys2Proof.Proofs

open Sys2Proof.Machine

/-- Settles O60: the unit registers by the fields that a write stores or clears, a BAR's by the offset that it names. -/
theorem registersTakeWrites : Obligations.RegistersTakeWrites := ⟨unitRegisterWrites, barWrites, barReads⟩

end Sys2Proof.Proofs

namespace Sys2Proof.Machine

/-! ### Strict accumulators (R58, R60, R62)

A contribution enters as a partial result of its own, and partial results combine as a commutative monoid: the bits of the sum, the flags and the count each do. -/

namespace Strict

theorem merge_comm (a b : Strict) : merge a b = merge b a := by
  simp [merge, BitVec.add_comm, Bool.or_comm, Nat.add_comm]

theorem merge_assoc (a b c : Strict) : merge (merge a b) c = merge a (merge b c) := by
  simp [merge, BitVec.add_assoc, Bool.or_assoc, Nat.add_assoc]

/-- The empty accumulator adds nothing. -/
theorem merge_empty (a : Strict) : merge a {} = a := by simp [merge]

/-- Entry of a contribution combines the accumulator with the partial result of that contribution alone. -/
theorem addFp_eq_merge (a : Strict) (x : Fp) : addFp a x = merge a (addFp {} x) := by
  cases x with
  | nan => simp [addFp, merge]
  | inf neg => cases neg <;> simp [addFp, merge]
  | fin neg m e => simp [addFp, merge]

/-- Two contributions may enter in either order. -/
theorem addFp_right_comm (a : Strict) (x y : Fp) : addFp (addFp a x) y = addFp (addFp a y) x := by
  rw [addFp_eq_merge (addFp a x), addFp_eq_merge a x, merge_assoc, merge_comm (addFp {} x), ← merge_assoc,
    ← addFp_eq_merge a y, ← addFp_eq_merge]

/-- Contributions that enter an accumulator combine it with what they leave in an empty one. -/
theorem foldl_addFp (a : Strict) (l : List Fp) : l.foldl addFp a = merge a (l.foldl addFp {}) := by
  induction l generalizing a with
  | nil => exact (merge_empty a).symm
  | cons x r ih =>
    calc r.foldl addFp (addFp a x)
      _ = merge (addFp a x) (r.foldl addFp {}) := ih _
      _ = merge a (merge (addFp {} x) (r.foldl addFp {})) := by rw [addFp_eq_merge, merge_assoc]
      _ = merge a (r.foldl addFp (addFp {} x)) := by rw [← ih]

/-- The order in which contributions enter does not matter. -/
theorem foldl_addFp_perm {l r : List Fp} (h : l.Perm r) (a : Strict) : l.foldl addFp a = r.foldl addFp a :=
  have : RightCommutative addFp := ⟨addFp_right_comm⟩
  h.foldl_eq a

end Strict

/-- A grouping leaves what its contributions leave one after another. -/
theorem SumTree.total_eq_foldl (t : SumTree) : t.total = t.contributions.foldl Strict.addFp {} := by
  induction t with
  | leaf l => rfl
  | node a b left right =>
    rw [SumTree.total, left, right, SumTree.contributions, List.foldl_append, ← Strict.foldl_addFp]

/-- Groupings of the same contributions leave the same accumulator. -/
theorem SumTree.total_eq_of_perm {a b : SumTree} (h : a.contributions.Perm b.contributions) : a.total = b.total := by
  rw [a.total_eq_foldl, b.total_eq_foldl, Strict.foldl_addFp_perm h]

end Sys2Proof.Machine

namespace Sys2Proof.Proofs

open Sys2Proof.Machine

/-- Settles O59: each grouping leaves what its contributions leave one after another, and those may enter in any order. -/
theorem strictOrderFree : Obligations.StrictOrderFree := by
  intro a b same
  have total : a.total = b.total := SumTree.total_eq_of_perm same
  exact ⟨total, by rw [total], by rw [total]⟩

end Sys2Proof.Proofs

namespace Sys2Proof.Machine

/-! ### Tables and pairs after a change -/

/-- Changing entries of different numbers one after another changes each of them once, and no other. -/
theorem Tbl.get_foldl_modify {α : Type} [DecidableEq α] (d : α) (g : Nat → α → α) {ks : List Nat} (distinct : ks.Nodup) (t : Tbl α) (j : Nat) :
    Tbl.get d (ks.foldl (fun t k => Tbl.modify d t k (g k)) t) j = if j ∈ ks then g j (Tbl.get d t j) else Tbl.get d t j := by
  induction ks generalizing t with
  | nil => simp
  | cons k r ih =>
    obtain ⟨new, distinct⟩ := List.nodup_cons.mp distinct
    rw [List.foldl_cons, ih distinct]
    by_cases here : j = k
    · subst here
      simp [new]
    · simp [here, Tbl.get_modify_other]

/-- A change of a pair counts by what it makes of that pair alone. -/
theorem modPair_congr {d : Dev} {e : Nat} {f g : Pair → Pair} (same : f (pair d e) = g (pair d e)) : modPair d e f = modPair d e g :=
  congrArg (fun p => { d with pairs := Tbl.set {} d.pairs e p }) same

/-- A change of an engine and its sequencer leaves the VE, the scalars and every other pair. -/
theorem onlyArray_modPair (d : Dev) (e : Nat) (o : Ope) (q : Seq) : OnlyArray d (modPair d e (fun p => { p with ope := o, seq := q })) e :=
  ⟨fun _ other => pair_modPair_other _ _ _ _ other, by simp, by simp⟩

/-- A command of a present pair whose operation changes pairs alone. -/
theorem runPair_modPair (e : Eng) (f : Dev → Dev) (s : State) (g : Pair → Pair) (awake : Awake s.d) (there : present s.d e.val = true)
    (effect : f s.d = modPair s.d e.val g) : runPair e f s = becomes s (modPair s.d e.val g) := by
  rw [← effect]
  exact runPair_calm e f s there awake.1 (effect ▸ awake.2.modPair e.val g)

/-! ### Banks of the engine -/

section Banks

variable (o : Ope) (b : Bool) (t u : Tbl Entry)

@[simp] theorem bankOf_setBank : bankOf (setBank o b t) b = t := by cases b <;> rfl
@[simp] theorem setBank_setBank : setBank (setBank o b t) b u = setBank o b u := by cases b <;> rfl
@[simp] theorem setBank_bankOf : setBank o b (bankOf o b) = o := by cases b <;> rfl

end Banks

/-- Each logical cell has a number of its own. -/
theorem cellKey_inj {r j r' j' : Nat} (column : j < 256) (column' : j' < 256) (same : cellKey r j = cellKey r' j') : r = r' ∧ j = j' := by
  unfold cellKey at same
  omega

/-- The numbers of the cells that a slice touches. -/
def cellKeys (x : SDesc) : List Nat := (cells x).map (fun z => cellKey z.1 z.2)

theorem mem_cells (x : SDesc) (r j : Nat) : (r, j) ∈ cells x ↔ r < x.m ∧ j < x.n := by
  have : (r, j) ∈ cells x ↔ r ∈ List.range x.m ∧ j ∈ List.range x.n := List.mem_product
  simpa using this

theorem mem_cellKeys {x : SDesc} (fits : x.n ≤ 256) {r j : Nat} (column : j < 256) : cellKey r j ∈ cellKeys x ↔ r < x.m ∧ j < x.n := by
  rw [cellKeys, List.mem_map]
  refine ⟨fun ⟨(r', j'), touched, same⟩ => ?_, fun touched => ⟨(r, j), (mem_cells x r j).mpr touched, rfl⟩⟩
  have inside := (mem_cells x r' j').mp touched
  obtain ⟨rfl, rfl⟩ := cellKey_inj (by omega) column same
  exact inside

theorem nodup_cellKeys {x : SDesc} (fits : x.n ≤ 256) : (cellKeys x).Nodup := by
  have distinct : (cells x).Nodup := List.nodup_range.product List.nodup_range
  refine distinct.map_on fun (r, j) touched (r', j') touched' same => ?_
  have inside := (mem_cells x r j).mp touched
  have inside' := (mem_cells x r' j').mp touched'
  exact Prod.ext_iff.mpr (cellKey_inj (by omega) (by omega) same)

/-! ### Promotion of a window (R53, R80) -/

/-- What the promotion of a window makes of the bank entry of number `k`. -/
def promotedEntry (f : Flight) (k : Nat) (v : Entry) : Entry := entryOf (promoteEntry f (Tbl.get {} f.part k) v.v)

/-- The bank after the promotion of a window. -/
def promotedBank (f : Flight) (bank : Tbl Entry) : Tbl Entry :=
  (cellKeys f.t.d).foldl (fun b k => Tbl.modify {} b k (promotedEntry f k)) bank

theorem get_promotedBank {f : Flight} (fits : f.t.d.n ≤ 256) (bank : Tbl Entry) {r j : Nat} (column : j < 256) :
    Tbl.get {} (promotedBank f bank) (cellKey r j) = if r < f.t.d.m ∧ j < f.t.d.n
      then promotedEntry f (cellKey r j) (Tbl.get {} bank (cellKey r j)) else Tbl.get {} bank (cellKey r j) := by
  simp only [promotedBank, Tbl.get_foldl_modify _ _ (nodup_cellKeys fits), mem_cellKeys fits column]

/-- While a slice has a window to come, its promotion changes the slice's bank and nothing else of the engine. -/
theorem promoteWindow_ope (m : Mem) (o : Ope) {f : Flight} (more : f.win < windows f.t.d) :
    (promoteWindow m o f).1 = setBank o f.bank (promotedBank f (bankOf o f.bank)) := by
  unfold promoteWindow
  rw [if_neg (Nat.not_le.mpr more), promotedBank, cellKeys, List.foldl_map]
  rfl

theorem modFlight_length (fs : List Flight) (test : Flight → Bool) (g : Flight → Flight) : (modFlight fs test g).length = fs.length := by
  induction fs with
  | nil => rfl
  | cons f r ih => by_cases h : test f = true <;> simp [modFlight, h, ih]

/-- A promotion that names the first slice with a window to come, and that window, changes the engine and that slice. -/
theorem promotion_next {d : Dev} {e : Nat} {f : Flight} (next : (pair d e).seq.flight.find? (fun f => f.win < windows f.t.d) = some f) :
    promotion d e f.t.pc f.win = modPair d e (fun p => { p with
      ope := (promoteWindow (tile d e) (pair d e).ope f).1
      seq := { (pair d e).seq with
        flight := modFlight (pair d e).seq.flight (fun f => f.win < windows f.t.d) (fun _ => (promoteWindow (tile d e) (pair d e).ope f).2) } }) := by
  rw [promotion]
  simp only [next, and_self, if_true]
  exact modPair_congr rfl

/-- R53, R80: the cells below M and N take their partials, and nothing else of the engine changes. -/
theorem windowPromotes : Claim.WindowPromotes := by
  intro e s f awake there next fits o
  have more : f.win < windows f.t.d := by simpa using List.find?_some next
  refine ⟨_, runPair_modPair e _ s _ awake there (promotion_next next), onlyArray_modPair .., rfl, ?_⟩
  simp only [pair_modPair, promoteWindow_ope _ _ more, bankOf_setBank, setBank_setBank, modFlight_length, and_true]
  refine ⟨fun r row j column => ?_, fun r j column outside => ?_, setBank_bankOf ..⟩
  · rw [get_promotedBank fits _ (by omega), if_pos ⟨row, column⟩, promotedEntry]
  · rw [get_promotedBank fits _ column, if_neg (by omega)]

/-! ### Weight loads (R88, R90) -/

/-- R88, R90: the load is that of the oldest slice with one due. -/
theorem weightTileLoads : Claim.WeightTileLoads := by
  intro e s f awake there oldest q l
  refine runPair_modPair e _ s _ awake there ?_
  rw [weightLoad]
  simp only [oldest]
  exact modPair_congr rfl

end Sys2Proof.Machine

namespace Sys2Proof.Proofs

open Sys2Proof.Machine

/-- Settles O9: a weight load and a promotion each change the engine and the sequencer of their own pair, and a promotion changes one entry for each cell of the slice. -/
theorem weightsLoadAndPromote : Obligations.WeightsLoadAndPromote := ⟨weightTileLoads, windowPromotes⟩

end Sys2Proof.Proofs

namespace Sys2Proof.Machine

/-! ### When a slice issues (R86, R87, R91, R93, R119, R458) -/

/-- The throttle delays an issue and never advances it. -/
theorem le_gate (level c : Nat) : c ≤ gate level c := by
  unfold gate
  split <;> omega

/-- The throttle lets an issue through in its open cycles alone (R458). -/
theorem gate_open {level : Nat} (below : level < 8) (c : Nat) : gate level c % 8 < 8 - level := by
  unfold gate
  split <;> omega

/-- A slice issues no earlier than the array's rules, its take-up and its planned start allow. -/
theorem firstIssue_bounds (d : Dev) (o : Ope) (q : Seq) (u : Upcoming) :
    arrayBound o q u.d ≤ firstIssue d o q u ∧ u.time ≤ firstIssue d o q u ∧ (u.d.align = true → beatEclk d u.gStart ≤ firstIssue d o q u) := by
  have latest := le_gate d.throttle (max (arrayBound o q u.d) <| max u.time <|
    max (match u.biscuit with | some b => b.2 | none => 0) (if u.d.align then beatEclk d u.gStart else 0))
  change _ ≤ firstIssue d o q u at latest
  simp only [Nat.max_le] at latest
  obtain ⟨array, time, -, start⟩ := latest
  exact ⟨array, time, fun aligned => by rwa [if_pos aligned] at start⟩

/-- What a cycle keeps that the array's rules allow (R86, R91). -/
theorem arrayBound_keeps {o : Ope} {q : Seq} {x : SDesc} {c : Nat} (allowed : arrayBound o q x ≤ c) :
    (q.prevCL < c ∧ q.minIssue ≤ c) ∧ (q.prevMode = some (!x.stat) → q.prevCL + 2 * depthD ≤ c)
      ∧ (writesBank x = true → 0 < (if targetBank o x then q.drain1 else q.drain0) → (if targetBank o x then q.drain1 else q.drain0) < c)
      ∧ (∀ l, q.load0 = some l → x.wSwap = true → l < c) := by
  simp only [arrayBound, Nat.max_le] at allowed
  obtain ⟨⟨last, check⟩, mode, drain, load⟩ := allowed
  refine ⟨⟨last, check⟩, fun changed => ?_, fun writes drained => ?_, fun l due swaps => ?_⟩
  · simpa [changed] using mode
  · rwa [if_pos (by simp [writes, drained])] at drain
  · simpa [due, swaps] using load

/-- R86, R91, R458: the first issue cycle keeps every bound. -/
theorem issueKeepsBounds : Claim.IssueKeepsBounds := by
  intro d o q u level c
  obtain ⟨array, time, start⟩ := firstIssue_bounds d o q u
  obtain ⟨⟨last, check⟩, mode, drain, load⟩ := arrayBound_keeps array
  refine ⟨last, check, time, mode, fun writes bank drained => ?_, fun writes bank drained => ?_, load, start, gate_open level _⟩
  · simpa [bank, drained] using drain writes
  · simpa [bank, drained] using drain writes

/-! ### What an issue makes of the engine (R80, R82, R92) -/

/-- Nothing of an engine but its main banks differs. -/
def OnlyBanks (before after : Ope) : Prop := after = { before with bank0 := after.bank0, bank1 := after.bank1 }

theorem OnlyBanks.refl (o : Ope) : OnlyBanks o o := rfl

theorem OnlyBanks.trans {a b c : Ope} (h : OnlyBanks a b) (g : OnlyBanks b c) : OnlyBanks a c := by
  unfold OnlyBanks at *
  rw [g, h]

theorem onlyBanks_setBank (o : Ope) (b : Bool) (t : Tbl Entry) : OnlyBanks o (setBank o b t) := by cases b <;> rfl

/-- A change of the banks leaves the selection of a bank and the weight sets. -/
theorem OnlyBanks.keeps {a b : Ope} (h : OnlyBanks a b) : b.acc = a.acc ∧ b.wAct = a.wAct ∧ b.wShd = a.wShd := by
  rw [h]
  exact ⟨rfl, rfl, rfl⟩

theorem onlyBanks_promoteWindow (m : Mem) (o : Ope) (f : Flight) : OnlyBanks o (promoteWindow m o f).1 := by
  by_cases more : f.win < windows f.t.d
  · rw [promoteWindow_ope m o more]
    exact onlyBanks_setBank ..
  · rw [promoteWindow, if_pos (Nat.not_lt.mp more)]
    exact OnlyBanks.refl o

theorem onlyBanks_promoteAll (fuel : Nat) (m : Mem) (o : Ope) (f : Flight) : OnlyBanks o (promoteAll fuel m o f).1 := by
  induction fuel generalizing o f with
  | zero => exact OnlyBanks.refl o
  | succ n ih =>
    unfold promoteAll
    split
    · exact (onlyBanks_promoteWindow m o f).trans (ih _ _)
    · exact OnlyBanks.refl o

/-- Earlier slices that run out change the banks, and none of them leaves the array. -/
theorem runOut_frame (m : Mem) (o : Ope) (fs : List Flight) : OnlyBanks o (runOut m o fs).1 ∧ (runOut m o fs).2.length = fs.length := by
  induction fs using List.reverseRecOn with
  | nil => exact ⟨OnlyBanks.refl o, rfl⟩
  | append_singleton r f ih =>
    obtain ⟨banks, length⟩ := ih
    have last : runOut m o (r ++ [f]) = ((promoteAll (windows f.t.d) m (runOut m o r).1 f).1,
        (runOut m o r).2 ++ [(promoteAll (windows f.t.d) m (runOut m o r).1 f).2]) := by simp only [runOut, List.foldl_append, List.foldl_cons, List.foldl_nil]
    rw [last]
    exact ⟨banks.trans (onlyBanks_promoteAll ..), by simp [length]⟩

/-- The tokens of a stationary slice change the banks. -/
theorem onlyBanks_streamTokens (m : Mem) (x : SDesc) (o : Ope) (n : Nat) : OnlyBanks o (streamTokens m x o n) := onlyBanks_setBank ..

/-- The operands of a slice pass through the array's registers, and leave its banks, weights and bank selection. -/
theorem passOperands_keeps (m : Mem) (x : SDesc) (o : Ope) (n : Nat) :
    let o' := passOperands m x o n
    (o'.acc = o.acc ∧ o'.wAct = o.wAct ∧ o'.wShd = o.wShd) ∧ o'.bank0 = o.bank0 ∧ o'.bank1 = o.bank1 := by
  unfold passOperands
  split_ifs <;> simp

/-- A marker changes the bank selection with `SWAP`, and the weight sets with `W_SWAP` of a stationary slice. -/
theorem marker_keeps (x : SDesc) (o : Ope) :
    (marker x o).acc = (if x.swap then !o.acc else o.acc) ∧ (marker x o).wAct = (if x.stat && x.wSwap then o.wShd else o.wAct)
      ∧ (marker x o).wShd = (if x.stat && x.wSwap then o.wAct else o.wShd) := by
  have clearing (o : Ope) : OnlyBanks o (if x.acc || (x.stat && x.m == 0) then o else setBank o o.acc []) := by
    split
    · exact OnlyBanks.refl o
    · exact onlyBanks_setBank ..
  unfold marker
  cases x.stat && x.wSwap <;> cases x.swap <;> exact (clearing _).keeps

/-- The marker of a clearing slice in OP mode leaves no entry of its bank (log 85). -/
theorem bankOf_marker {x : SDesc} (clears : x.acc = false) (mode : x.stat = false) (o : Ope) : bankOf (marker x o) (marker x o).acc = [] := by
  have cleared (o : Ope) : bankOf (setBank o o.acc []) (setBank o o.acc []).acc = [] := by
    rw [(onlyBanks_setBank o o.acc []).keeps.1, bankOf_setBank]
  simp only [marker, clears, mode, Bool.false_and, Bool.or_self, Bool.false_eq_true, if_false]
  exact cleared _

/-- The engine when the marker of the slice `u` has passed it. -/
def markedOpe (d : Dev) (e : Nat) (u : Upcoming) : Ope := marker u.d (runOut (tile d e) (pair d e).ope (pair d e).seq.flight).1

/-- The engine when the tokens of a stationary slice `u` have been added, or the marker of one in OP mode has passed. -/
def streamedOpe (d : Dev) (e : Nat) (u : Upcoming) : Ope :=
  if u.d.stat then streamTokens (tile d e) u.d (markedOpe d e u) u.d.m else markedOpe d e u

/-- The engine when the slice `u` has issued. -/
def issuedOpe (d : Dev) (e : Nat) (u : Upcoming) : Ope :=
  let c := firstIssue d (pair d e).ope (pair d e).seq u
  { passOperands (tile d e) u.d (streamedOpe d e u) (stepCycles u.d) with
    mode := u.d.stat, busy := addSpan d (streamedOpe d e u).busy c (lastIssue d.throttle u.d c + 2 * depthD) }

/-- The slice `u` in the array. -/
def issuedFlight (d : Dev) (e : Nat) (u : Upcoming) : Flight :=
  let c := firstIssue d (pair d e).ope (pair d e).seq u
  let l := lastIssue d.throttle u.d c
  let o := markedOpe d e u
  let f : Flight := {
    t := u, first := c, cL := l, stepAt := gateNth d.throttle c (hasMarker u.d).toNat, bank := (issuedOpe d e u).acc
    before := if u.d.stat then bankOf o o.acc else [], settled := !isIntOp u.d, loadDue := u.d.wLoad, drainDue := u.d.drain, complAt := l + 2 * depthD - 1 }
  if u.d.stat then f else beginAttempt (tile d e) f u.d.intT

section Issue

variable {d : Dev} {e : Nat} {u : Upcoming}

theorem issuedFlight_fields :
    let f := issuedFlight d e u
    let c := firstIssue d (pair d e).ope (pair d e).seq u
    f.t = u ∧ f.first = c ∧ f.cL = lastIssue d.throttle u.d c ∧ f.loadDue = u.d.wLoad ∧ f.drainDue = u.d.drain ∧ f.bank = (issuedOpe d e u).acc := by
  unfold issuedFlight
  cases u.d.stat <;> exact ⟨rfl, rfl, rfl, rfl, rfl, rfl⟩

theorem markedOpe_keeps :
    let o := (pair d e).ope
    let o' := markedOpe d e u
    o'.acc = (if u.d.swap then !o.acc else o.acc) ∧ o'.wAct = (if u.d.stat && u.d.wSwap then o.wShd else o.wAct)
      ∧ o'.wShd = (if u.d.stat && u.d.wSwap then o.wAct else o.wShd) := by
  obtain ⟨acc, act, shd⟩ := (runOut_frame (tile d e) (pair d e).ope (pair d e).seq.flight).1.keeps
  simpa only [markedOpe, acc, act, shd] using marker_keeps u.d (runOut (tile d e) (pair d e).ope (pair d e).seq.flight).1

/-- The array selects its bank and its weight sets as the marker of the slice leaves them. -/
theorem issuedOpe_keeps :
    (issuedOpe d e u).acc = (markedOpe d e u).acc ∧ (issuedOpe d e u).wAct = (markedOpe d e u).wAct ∧ (issuedOpe d e u).wShd = (markedOpe d e u).wShd := by
  have stream : OnlyBanks (markedOpe d e u) (streamedOpe d e u) := by
    unfold streamedOpe
    split
    · exact onlyBanks_streamTokens ..
    · exact OnlyBanks.refl _
  obtain ⟨acc, act, shd⟩ := stream.keeps
  obtain ⟨acc', act', shd'⟩ := (passOperands_keeps (tile d e) u.d (streamedOpe d e u) (stepCycles u.d)).1
  exact ⟨acc'.trans acc, act'.trans act, shd'.trans shd⟩

/-- The bank that a clearing slice in OP mode begins with (log 85). -/
theorem bankOf_issuedOpe (clears : u.d.acc = false) (mode : u.d.stat = false) : bankOf (issuedOpe d e u) (issuedOpe d e u).acc = [] := by
  have empty : bankOf (markedOpe d e u) (markedOpe d e u).acc = [] := bankOf_marker clears mode _
  have stream : streamedOpe d e u = markedOpe d e u := by simp [streamedOpe, mode]
  obtain ⟨-, bank0, bank1⟩ := passOperands_keeps (tile d e) u.d (streamedOpe d e u) (stepCycles u.d)
  rw [issuedOpe_keeps.1, ← empty, ← stream, bankOf, bankOf, issuedOpe, bank0, bank1]

/-- A slice that nothing holds joins the array. -/
theorem seqIssue_next (running : (pair d e).seq.run = true) (taken : (pair d e).seq.cur = some u)
    (free : issueBlocked d (pair d e).ope (pair d e).seq u = false) :
    let q := (pair d e).seq
    let c := firstIssue d (pair d e).ope q u
    let l := lastIssue d.throttle u.d c
    seqIssue d e = modPair d e (fun p => { p with
      ope := issuedOpe d e u
      seq := { q with
        cur := none, flight := (runOut (tile d e) (pair d e).ope q.flight).2 ++ [issuedFlight d e u], takeAt := c, prevMode := some u.d.stat, prevCL := l
        minIssue := if isIntOp u.d then l + 2 * depthD else q.minIssue
        swapAt := if u.d.stat && u.d.wSwap then some c else q.swapAt
        load0 := if u.d.stat && u.d.wSwap then none else q.load0 } }) := by
  intro q c l
  rw [seqIssue]
  simp only [taken]
  rw [if_neg (by simp [running, free])]
  exact modPair_congr rfl

end Issue

/-- R81, R82, R87, R93, R119: the slice joins the array in its first issue cycle, and its marker changes banks. -/
theorem sliceIssues : Claim.SliceIssues := by
  intro e s u awake there running taken free q o c
  obtain ⟨slice, first, last, load, drain, bank⟩ := issuedFlight_fields (d := s.d) (e := e.val) (u := u)
  obtain ⟨acc, act, shd⟩ := issuedOpe_keeps (d := s.d) (e := e.val) (u := u)
  obtain ⟨acc', act', shd'⟩ := markedOpe_keeps (d := s.d) (e := e.val) (u := u)
  refine ⟨_, issuedFlight s.d e.val u, runPair_modPair e _ s _ awake there (seqIssue_next running taken free), onlyArray_modPair .., rfl, ?_⟩
  rw [pair_modPair]
  refine ⟨List.getLast?_concat .., by simp [(runOut_frame _ _ _).2, q], slice, first, last, load, drain, bank, acc.trans acc', rfl, fun mode swaps => ?_, fun keeps => ?_, fun clears mode => ?_, rfl, rfl, rfl⟩
  · rw [act, shd, act', shd']
    simp [mode, swaps, o]
  · rw [act, shd, act', shd']
    rcases keeps with keeps | keeps <;> simp [keeps, o]
  · rw [bank]
    exact bankOf_issuedOpe clears mode

end Sys2Proof.Machine

namespace Sys2Proof.Proofs

open Sys2Proof.Machine

/-- Settles O8: the slice issues in the first cycle that the bounds and the throttle allow, and its marker leaves the engine as R82 says. -/
theorem sliceIssue : Obligations.SliceIssue := ⟨sliceIssues, issueKeepsBounds⟩

end Sys2Proof.Proofs

namespace Sys2Proof.Machine

/-! ### The check cycle of an MXINT8 attempt (R94, R95, R97) -/

/-- A changed slice that still satisfies the test is the first that does. -/
theorem find?_modFlight {fs : List Flight} {test : Flight → Bool} {g : Flight → Flight} {f : Flight} (first : fs.find? test = some f)
    (keeps : test (g f) = true) : (modFlight fs test g).find? test = some (g f) := by
  induction fs with
  | nil => simp at first
  | cons h r ih =>
    by_cases here : test h = true
    · obtain rfl : h = f := by simpa [here] using first
      simp [modFlight, here, keeps]
    · have later : r.find? test = some f := by simpa [here] using first
      simp [modFlight, here, ih later]

/-- The attempt that a slice begins in the check cycle of one that has overflowed. -/
def replayOf (d : Dev) (e : Nat) (f : Flight) : Flight :=
  let s := gate d.throttle (f.cL + 2 * depthD + 1)
  let l := gateNth d.throttle s (stepCycles f.t.d - 1)
  beginAttempt (tile d e) { f with replays := f.replays + 1, cL := l, stepAt := s, complAt := l + 2 * depthD - 1 } (f.tRef + 1)

section Check

variable {d : Dev} {e : Nat} {f : Flight} (first : (pair d e).seq.flight.find? (fun f => !f.settled) = some f) (whole : windows f.t.d ≤ f.win)
include first whole

/-- An attempt that has overflowed is begun again when it is not the last. -/
theorem checkCycle_replays (overflowed : f.over' = true) (more : finalAttempt f = false) :
    let c := f.cL + 2 * depthD
    let l := (replayOf d e f).cL
    checkCycle d e = modPair d e (fun p => { p with
      ope := { setBank p.ope f.bank [] with lastReplays := f.replays + 1, replayCnt := inc p.ope.replayCnt, busy := addSpan d p.ope.busy c (l + 2 * depthD) }
      seq := { p.seq with
        prevCL := l, minIssue := l + 2 * depthD, flight := modFlight p.seq.flight (fun f => !f.settled) (fun _ => replayOf d e f) } }) := by
  intro c l
  rw [checkCycle]
  simp only [first, Nat.not_lt.mpr whole, overflowed, more, Bool.not_false, Bool.and_self, if_true, if_false]
  rfl

/-- Any other attempt ends the slice's attempts. -/
theorem checkCycle_ends (last : f.over' = false ∨ finalAttempt f = true) :
    checkCycle d e = modPair d e (fun p => { p with
      ope := { p.ope with lastReplays := f.replays, ovfFinal := p.ope.ovfFinal || f.over', ovfCnt := if f.over' then inc p.ope.ovfCnt else p.ope.ovfCnt }
      seq := { p.seq with flight := modFlight p.seq.flight (fun f => !f.settled) (fun f => { f with settled := true, ovfFinal := f.over' }) } }) := by
  have ends : (f.over' && !finalAttempt f) = false := by rcases last with last | last <;> simp [last]
  rw [checkCycle]
  simp only [first, Nat.not_lt.mpr whole, ends, Bool.false_eq_true, if_false]

end Check

end Sys2Proof.Machine

namespace Sys2Proof.Proofs

open Sys2Proof.Machine

/-- Settles O10: an attempt that has overflowed and is not the last is begun again, and any other ends. -/
theorem checkCycleReplays : Obligations.CheckCycleReplays := by
  intro e s f awake there first whole o
  by_cases again : f.over' = true ∧ finalAttempt f = false
  · obtain ⟨overflowed, more⟩ := again
    refine ⟨_, runPair_modPair e _ s _ awake there (checkCycle_replays first whole overflowed more), onlyArray_modPair .., rfl, fun _ _ => ?_, fun last => ?_⟩
    · rw [pair_modPair]
      have unsettled : f.settled = false := by simpa using List.find?_some first
      exact ⟨by cases f.bank <;> rfl, rfl, rfl, by cases f.bank <;> rfl, _, find?_modFlight first (by simp [replayOf, beginAttempt, unsettled]), rfl, rfl, rfl⟩
    · simp [overflowed, more] at last
  · have last : f.over' = false ∨ finalAttempt f = true := by
      rcases Bool.eq_false_or_eq_true f.over' with overflowed | overflowed
      · exact .inr (by simpa [overflowed] using again)
      · exact .inl overflowed
    refine ⟨_, runPair_modPair e _ s _ awake there (checkCycle_ends first whole last), onlyArray_modPair .., rfl, fun overflowed more => absurd ⟨overflowed, more⟩ again, fun _ => ?_⟩
    rw [pair_modPair]
    exact ⟨rfl, rfl⟩

end Sys2Proof.Proofs

namespace Sys2Proof.Machine

/-! ### Numbers in memory (R11) -/

@[simp] theorem leBytes_length (n v : Nat) : (leBytes n v).length = n := by
  induction n generalizing v with
  | zero => rfl
  | succ n ih => simp [leBytes, ih]

/-- Bytes of a number spell it again, as far as they reach. -/
theorem leNat_leBytes (n v : Nat) : leNat (leBytes n v) = v % 256 ^ n := by
  induction n generalizing v with
  | zero => simp [leBytes, leNat, Nat.mod_one]
  | succ n ih => rw [leBytes, leNat, ih, BitVec.toNat_ofNat, show 256 ^ (n + 1) = 256 * 256 ^ n from Nat.pow_succ', Nat.mod_mul]

theorem Mem.read_write (m : Mem) (a : Nat) (bs : List Byte) : Mem.read (Mem.write m a bs) a bs.length = bs := by
  refine List.ext_getElem (by simp [Mem.read]) fun i _ inside => ?_
  simp [Mem.read, Mem.byte_write_inside m a bs i inside]

/-- A number that has been stored is read back. -/
theorem Mem.readNat_write (m : Mem) (a n v : Nat) : Mem.readNat (Mem.write m a (leBytes n v)) a n = v % 256 ^ n := by
  have back := Mem.read_write m a (leBytes n v)
  rw [leBytes_length] at back
  rw [Mem.readNat, back, leNat_leBytes]

/-! ### Completion records (R124) -/

/-- The number of a completion record: time, overrun, index, code, flags and tag (Table 4-10). The effects below take it as a variable `r` with
an equation, so that no comparison of devices computes with its powers of 2. -/
def recordNumber (time ovr pc sc flags tag : Nat) : Nat :=
  time % 2 ^ 32 * 2 ^ 96 + min ovr (2 ^ 24 - 1) * 2 ^ 72 + pc % 2 ^ 20 * 2 ^ 52 + sc * 2 ^ 44 + flags * 2 ^ 39 + tag

/-- Bits of a record: replays, an overflow in the final attempt, a parity error. -/
def recordFlags (f : Flight) : Nat := f.replays % 8 * 4 + f.ovfFinal.toNat * 2 + f.parityErr.toNat

theorem recordFlags_lt (f : Flight) : recordFlags f < 32 := by
  have := f.ovfFinal.toNat_lt
  have := f.parityErr.toNat_lt
  unfold recordFlags
  omega

/-- The fields of a record are those that it was put together from. -/
theorem recordNumber_fields {time ovr pc sc flags tag : Nat} (code : sc < 2 ^ 8) (bits : flags < 2 ^ 5) (small : tag < 2 ^ 11) :
    let w := BitVec.ofNat 128 (recordNumber time ovr pc sc flags tag % 256 ^ 16)
    (fld w 10 0 = tag ∧ fld w 38 11 = 0 ∧ fld w 43 39 = flags ∧ fld w 43 41 = flags / 4 ∧ fld w 43 11 = flags * 2 ^ 28)
      ∧ (fld w 51 44 = sc ∧ fld w 71 52 = pc % 2 ^ 20) ∧ fld w 95 72 = min ovr (2 ^ 24 - 1) ∧ fld w 127 96 = time % 2 ^ 32 := by
  simp only [fld, BitVec.toNat_ofNat, Nat.shiftRight_eq_div_pow, recordNumber]
  omega

/-- A bit of a word is a bit of each field that holds it. -/
theorem bit_of_fld {n : Nat} (w : BitVec n) {hi lo i : Nat} (low : lo ≤ i) (high : i ≤ hi) : bit w i = (fld w hi lo).testBit (i - lo) := by
  have inside : i - lo < hi + 1 - lo := by omega
  simp [fld, bit, Nat.testBit_mod_two_pow, Nat.testBit_shiftRight, inside, Nat.add_sub_cancel' low, BitVec.testBit_toNat]

theorem recordFlags_bits (f : Flight) :
    recordFlags f / 4 = f.replays % 8 ∧ (recordFlags f).testBit 1 = f.ovfFinal ∧ (recordFlags f).testBit 0 = f.parityErr := by
  unfold recordFlags
  cases f.ovfFinal <;> cases f.parityErr <;> simp [Nat.testBit_eq_decide_div_mod_eq] <;> omega

/-- The fields of the record of a slice. -/
theorem recordNumber_slice (time ovr pc : Nat) (f : Flight) {tag : Nat} (small : tag < 2 ^ 11) :
    let w := BitVec.ofNat 128 (recordNumber time ovr pc Sc.ok.code (recordFlags f) tag % 256 ^ 16)
    fld w 10 0 = tag ∧ fld w 38 11 = 0 ∧ bit w 39 = f.parityErr ∧ bit w 40 = f.ovfFinal ∧ fld w 43 41 = f.replays % 8
      ∧ fld w 51 44 = Sc.ok.code ∧ fld w 71 52 = pc % 2 ^ 20 ∧ fld w 95 72 = min ovr (2 ^ 24 - 1) ∧ fld w 127 96 = time % 2 ^ 32 := by
  intro w
  obtain ⟨⟨low, zero, flags, upper, -⟩, ⟨code, place⟩, overrun, point⟩ :=
    recordNumber_fields (time := time) (ovr := ovr) (pc := pc) (sc := Sc.ok.code) (by decide) (recordFlags_lt f) small
  obtain ⟨replays, final, parity⟩ := recordFlags_bits f
  refine ⟨low, zero, ?_, ?_, upper.trans replays, code, place, overrun, point⟩
  · rw [bit_of_fld w (hi := 43) (lo := 39) (by decide) (by decide), flags, parity]
  · rw [bit_of_fld w (hi := 43) (lo := 39) (by decide) (by decide), flags, final]

/-- Where the next completion record of a list goes (R124). -/
def recordPlace (q : Seq) : Nat := fld q.cfg 35 18 * 64 + q.doneCnt.toNat % 2 ^ fld q.cfg 55 52 * 16

/-- The device after a completion record of 16 bytes has been written to the ring of pair `e`. -/
def writeRecord (d : Dev) (e r : Nat) : Dev :=
  { d with tiles := Tbl.set [] d.tiles e (Mem.write (tile d e) (recordPlace (pair d e).seq) (leBytes 16 r)) }

/-- The counters of a sequencer after a record at ECLK `at'` (R121, R124). -/
def countRecord (at' ovr : Nat) (q : Seq) : Seq :=
  { q with
    doneCnt := inc q.doneCnt, lastDone := max q.lastDone at', lastRec := max q.lastRec at', overrunCnt := if ovr > 0 then inc q.overrunCnt else q.overrunCnt }

theorem modSeq_modSeq (d : Dev) (e : Nat) (f g : Seq → Seq) : modSeq (modSeq d e f) e g = modSeq d e (fun q => g (f q)) := modPair_modPair ..

@[simp] theorem seq_modSeq (d : Dev) (e : Nat) (f : Seq → Seq) : (pair (modSeq d e f) e).seq = f (pair d e).seq := by simp [modSeq]

@[simp] theorem ope_modSeq (d : Dev) (e : Nat) (f : Seq → Seq) : (pair (modSeq d e f) e).ope = (pair d e).ope := by simp [modSeq]

theorem timeAt_modSeq (d : Dev) (e : Nat) (f : Seq → Seq) (c : Nat) : timeAt (modSeq d e f) c = timeAt d c := by
  have same : (modSeq d e f).timeOff = d.timeOff := rfl
  rw [timeAt, same, timeAt]

theorem onlyArray_modSeq (d : Dev) (e : Nat) (f : Seq → Seq) : OnlyArray d (modSeq d e f) e :=
  ⟨fun _ other => pair_modPair_other _ _ _ _ other, by simp [modSeq], by simp [modSeq]⟩

/-- A record `r` of pair `e` has been written, and its sequencer has moved on as `g` says. -/
def recorded (d : Dev) (e r : Nat) (g : Seq → Seq) : Dev := modSeq (writeRecord d e r) e g

section Recorded

variable (d : Dev) (e r : Nat) (g : Seq → Seq)

/-- A record changes a tile store and its own pair. -/
theorem recorded_frame : recorded d e r g = { d with pairs := (recorded d e r g).pairs, tiles := (recorded d e r g).tiles } := rfl

theorem recorded_onlyArray : OnlyArray d (recorded d e r g) e := onlyArray_modSeq (writeRecord d e r) e g

@[simp] theorem recorded_seq : (pair (recorded d e r g) e).seq = g (pair d e).seq := seq_modSeq ..

@[simp] theorem recorded_ope : (pair (recorded d e r g) e).ope = (pair d e).ope := ope_modSeq ..

theorem recorded_calm (calm : Calm d) : Calm (recorded d e r g) := calm.of_eq ⟨by rw [recorded_frame], by rw [recorded_frame]⟩ (by rw [recorded_frame])

theorem recorded_requests : (recorded d e r g).popReqs = d.popReqs ∧ (recorded d e r g).pushReqs = d.pushReqs := by
  rw [recorded_frame]
  exact ⟨rfl, rfl⟩

theorem pairKennel_recorded (j : Nat) : pairKennel (recorded d e r g) j = pairKennel d j := by rw [pairKennel, recorded_frame, pairKennel]

theorem overrunBeats_recorded (o : Nat) : overrunBeats (recorded d e r g) o = overrunBeats d o := by
  rw [overrunBeats, overrunBeats, beatPeriod, beatPeriod, recorded_frame]

theorem tile_recorded : tile (recorded d e r g) e = Mem.write (tile d e) (recordPlace (pair d e).seq) (leBytes 16 r) := Tbl.get_set_self ..

theorem tile_recorded_other (j : Nat) (other : j ≠ e) : tile (recorded d e r g) j = tile d j := Tbl.get_set_other _ _ _ _ _ other

theorem modSeq_recorded (h : Seq → Seq) : modSeq (recorded d e r g) e h = recorded d e r (fun q => h (g q)) := modSeq_modSeq ..

/-- A change of the sequencer before a record, which leaves the record's place, may as well come after it. -/
theorem recorded_modSeq (h : Seq → Seq) (ring : (g (pair d e).seq).cfg = (pair d e).seq.cfg) (done : (g (pair d e).seq).doneCnt = (pair d e).seq.doneCnt) :
    recorded (modSeq d e g) e r h = recorded d e r (fun q => h (g q)) := by
  have same : writeRecord (modSeq d e g) e r = modSeq (writeRecord d e r) e g := by
    rw [writeRecord, seq_modSeq, recordPlace, ring, done, ← recordPlace]
    rfl
  rw [recorded, same, modSeq_modSeq, recorded]

/-- The record is read back from its place. -/
theorem readNat_recorded : Mem.readNat (tile (recorded d e r g) e) (recordPlace (pair d e).seq) 16 = r % 256 ^ 16 := by
  rw [tile_recorded, Mem.readNat_write]

/-- No byte outside the record changes. -/
theorem byte_recorded (a : Nat) (outside : a < recordPlace (pair d e).seq ∨ recordPlace (pair d e).seq + 16 ≤ a) :
    Mem.byte (tile (recorded d e r g) e) a = Mem.byte (tile d e) a := by
  rw [tile_recorded, Mem.byte_write_outside _ _ _ _ (by simpa using outside)]

end Recorded

/-- The record of a slice. -/
theorem seqRecord_slice (d : Dev) (e at' pc tag : Nat) (sc : Sc) (ovr : Nat) (f : Flight) :
    seqRecord d e at' pc tag sc ovr (some f) = recorded d e (recordNumber (timeAt d at') ovr pc sc.code (recordFlags f) tag) (countRecord at' ovr) := by
  have same : f.replays % 8 * 2 ^ 41 + f.ovfFinal.toNat * 2 ^ 40 + f.parityErr.toNat * 2 ^ 39 = recordFlags f * 2 ^ 39 := by
    unfold recordFlags
    omega
  simp only [seqRecord, same]
  rfl

/-- The record of a HALT. -/
theorem seqRecord_halt (d : Dev) (e at' pc tag : Nat) (sc : Sc) (ovr : Nat) :
    seqRecord d e at' pc tag sc ovr none = recorded d e (recordNumber (timeAt d at') ovr pc sc.code 0 tag) (countRecord at' ovr) := by
  simp only [seqRecord, recordNumber, Nat.zero_mul]
  rfl

/-! ### The completion of a HALT (R123, R124) -/

/-- A HALT that is alone writes its record, and the list stops. -/
theorem haltDescriptor_alone {d : Dev} {e c ovr r : Nat} {u : Upcoming} (taken : (pair d e).seq.cur = some u) (kind : u.d.kind = 3)
    (passed : u.refused = none) (flights : (pair d e).seq.flight = []) (waiting : (pair d e).seq.pushQ = []) (pushing : (pair d e).seq.pushing = none)
    (point : max u.time (pair d e).seq.lastDone = c) (late : overrunOf d c u.planEnd = ovr)
    (number : recordNumber (timeAt d c) ovr u.pc Sc.ok.code 0 u.d.tag = r) :
    haltDescriptor d e = recorded d e r (fun q => { countRecord c ovr q with halted := true, run := false, cur := none, lag := overrunBeats d ovr }) := by
  rw [haltDescriptor]
  simp only [taken]
  rw [if_neg (by simp [kind, passed, flights, waiting, pushing]), point, late, seqRecord_halt, number, overrunBeats_recorded, modSeq_recorded]

/-- R123, R124: the record, the counters and the end of the list. -/
theorem haltCompletes : Claim.HaltCompletes := by
  intro e s u awake there q taken kind passed flights waiting pushing ring c ovr
  have fields := recordNumber_fields (time := timeAt s.d c) (ovr := ovr) (pc := u.pc) (sc := Sc.ok.code) (flags := 0) (tag := u.d.tag)
    (by decide) (by decide) (Nat.mod_lt _ (by decide))
  obtain ⟨r, number⟩ : ∃ r, recordNumber (timeAt s.d c) ovr u.pc Sc.ok.code 0 u.d.tag = r := ⟨_, rfl⟩
  rw [number] at fields
  have effect := haltDescriptor_alone taken kind passed flights waiting pushing rfl rfl number
  have runs := runPair_calm e (fun d => haltDescriptor d e.val) s there awake.1 (effect ▸ recorded_calm _ _ _ _ awake.2)
  rw [effect] at runs
  refine ⟨_, runs, recorded_onlyArray .., recorded_ope .., ?_⟩
  rw [recorded_seq]
  refine ⟨rfl, rfl, rfl, rfl, rfl, rfl, rfl, rfl, ?_, byte_recorded _ _ _ _, tile_recorded_other _ _ _ _, rfl⟩
  rw [← readNat_recorded s.d e.val] at fields
  obtain ⟨⟨tag, -, -, -, rest⟩, ⟨code, place⟩, overrun, time⟩ := fields
  exact ⟨tag, rest, code, place, overrun, time⟩

/-! ### The completion of a slice (R121, R122) -/

/-- What becomes of the biscuit of the completed slice `f`, with the latest record before its own written by ECLK `last`: it is pushed, or dropped. -/
def handOn (d : Dev) (e : Nat) (f : Flight) (last : Nat) : Dev :=
  match f.t.biscuit with
  | some b =>
    if f.t.d.pushEn then seqNextPush (modSeq d e (fun q => { q with pushQ := q.pushQ ++ [(f.t.pc, f.t.d.pushQ, b.1, f.complAt + 1)] })) e
    else seqRelease d e (max f.complAt last)
  | none => d

/-- A sequencer whose oldest slice `f` has completed, with `rest` still in the array. -/
def leaveArray (d : Dev) (f : Flight) (rest : List Flight) (ovr : Nat) (q : Seq) : Seq :=
  countRecord f.complAt ovr { q with flight := rest, lag := overrunBeats d ovr }

/-- The oldest slice writes its record and leaves the array. -/
theorem sliceCompletion_oldest {d : Dev} {e ovr r : Nat} {f : Flight} {rest : List Flight} (oldest : (pair d e).seq.flight = f :: rest)
    (settled : f.settled = true) (whole : windows f.t.d ≤ f.win) (loaded : f.loadDue = false) (drained : f.drainDue = false)
    (late : overrunOf d f.complAt f.t.planEnd = ovr) (number : recordNumber (timeAt d f.complAt) ovr f.t.pc Sc.ok.code (recordFlags f) f.t.d.tag = r) :
    sliceCompletion d e = seqFinishRefusal (handOn (recorded d e r (leaveArray d f rest ovr)) e f (pair d e).seq.lastRec) e := by
  rw [sliceCompletion]
  simp only [oldest]
  rw [if_neg (by simp [settled, Nat.not_lt.mpr whole, loaded, drained]), late, seqRecord_slice, timeAt_modSeq, number, recorded_modSeq _ _ _ _ _ rfl rfl, handOn]
  rfl

/-- A release requests a pop that the limit held, or does nothing (R122). -/
theorem seqRelease_cases (d : Dev) (e at' : Nat) :
    (∃ t, (pair d e).seq.cur = some t ∧ t.popHeld = true ∧ seqHeld (pair d e).seq < 4 ∧ seqRelease d e at' =
        requestPop (modSeq d e (fun q => { q with cur := some { t with popHeld := false } })) (.seq e) 0 t.d.waitQ (pairKennel d e) (at' + 1))
      ∨ ((∀ t, (pair d e).seq.cur = some t → t.popHeld = true → 4 ≤ seqHeld (pair d e).seq) ∧ seqRelease d e at' = d) := by
  cases taken : (pair d e).seq.cur with
  | none => exact .inr ⟨by simp, by simp only [seqRelease, taken]⟩
  | some t =>
    by_cases held : t.popHeld = true ∧ seqHeld (pair d e).seq < 4
    · exact .inl ⟨t, rfl, held.1, held.2, by simp [seqRelease, taken, held]⟩
    · refine .inr ⟨fun u same waits => ?_, by simp [seqRelease, taken, held]⟩
      cases same
      exact Nat.not_lt.mp fun room => held ⟨waits, room⟩

/-- The oldest waiting push is sent, or nothing is done while one is under way (R121). -/
theorem seqNextPush_cases (d : Dev) (e : Nat) :
    (∃ pc hq b t r, (pair d e).seq.pushing = none ∧ (pair d e).seq.pushQ = (pc, hq, b, t) :: r ∧ seqNextPush d e =
        requestPush (modSeq d e (fun q => { q with pushing := some pc, pushQ := r })) (.seq e) hq (pairKennel d e) b (max t (pair d e).seq.lastDone))
      ∨ seqNextPush d e = d := by
  cases pushing : (pair d e).seq.pushing with
  | some pc => exact .inr (by simp only [seqNextPush, pushing])
  | none =>
    cases waiting : (pair d e).seq.pushQ with
    | nil => exact .inr (by simp only [seqNextPush, pushing, waiting])
    | cons p r => exact .inl ⟨p.1, p.2.1, p.2.2.1, p.2.2.2, r, rfl, rfl, by simp only [seqNextPush, pushing, waiting]⟩

/-- Handing a biscuit on changes the requests at the queues, and of the pair the descriptor taken up, which stays as unrefused as it was, and the
pushes that wait. -/
structure HandsOn (e : Nat) (d d' : Dev) : Prop where
  frame : d' = { d with pairs := d'.pairs, popReqs := d'.popReqs, pushReqs := d'.pushReqs }
  array : OnlyArray d d' e
  ope : (pair d' e).ope = (pair d e).ope
  seq : (pair d' e).seq = { (pair d e).seq with cur := (pair d' e).seq.cur, pushQ := (pair d' e).seq.pushQ, pushing := (pair d' e).seq.pushing }
  passed : (∀ t, (pair d e).seq.cur = some t → t.refused = none) → ∀ t, (pair d' e).seq.cur = some t → t.refused = none

theorem HandsOn.refl (e : Nat) (d : Dev) : HandsOn e d d := ⟨rfl, ⟨fun _ _ => rfl, rfl, rfl⟩, rfl, rfl, fun h => h⟩

theorem OnlyArray.trans {a b c : Dev} {e : Nat} (h : OnlyArray a b e) (g : OnlyArray b c e) : OnlyArray a c e := by
  obtain ⟨other, ve, scalars⟩ := h
  obtain ⟨other', ve', scalars'⟩ := g
  exact ⟨fun j away => (other' j away).trans (other j away), ve'.trans ve, scalars'.trans scalars⟩

theorem HandsOn.trans {e : Nat} {a b c : Dev} (h : HandsOn e a b) (g : HandsOn e b c) : HandsOn e a c := by
  refine ⟨?_, h.array.trans g.array, g.ope.trans h.ope, ?_, fun none => g.passed (h.passed none)⟩
  · rw [g.frame, h.frame]
  · rw [g.seq, h.seq]

/-- A change of the waiting pushes, or of a descriptor taken up that keeps its refusal. -/
theorem handsOn_modSeq (e : Nat) (d : Dev) (g : Seq → Seq)
    (within : g (pair d e).seq = { (pair d e).seq with cur := (g (pair d e).seq).cur, pushQ := (g (pair d e).seq).pushQ, pushing := (g (pair d e).seq).pushing })
    (passed : (∀ t, (pair d e).seq.cur = some t → t.refused = none) → ∀ t, (g (pair d e).seq).cur = some t → t.refused = none) :
    HandsOn e d (modSeq d e g) :=
  ⟨rfl, onlyArray_modSeq d e g, by simp, by rw [seq_modSeq]; exact within, by rw [seq_modSeq]; exact passed⟩

/-- A request at the queues leaves every pair. -/
theorem handsOn_requestPop (e : Nat) (d : Dev) (u : UnitId) (role hq k at' : Nat) : HandsOn e d (requestPop d u role hq k at') :=
  ⟨rfl, ⟨fun _ _ => rfl, rfl, rfl⟩, rfl, rfl, fun h => h⟩

theorem handsOn_requestPush (e : Nat) (d : Dev) (u : UnitId) (hq k : Nat) (b : DWord) (at' : Nat) : HandsOn e d (requestPush d u hq k b at') :=
  ⟨rfl, ⟨fun _ _ => rfl, rfl, rfl⟩, rfl, rfl, fun h => h⟩

theorem handsOn_seqRelease (d : Dev) (e at' : Nat) : HandsOn e d (seqRelease d e at') := by
  rcases seqRelease_cases d e at' with ⟨t, taken, -, -, next⟩ | ⟨-, same⟩
  · have moved : HandsOn e d (modSeq d e (fun q => { q with cur := some { t with popHeld := false } })) :=
      handsOn_modSeq e d _ rfl fun passed u now => by cases now; exact passed t taken
    rw [next]
    exact moved.trans (handsOn_requestPop ..)
  · rw [same]
    exact HandsOn.refl e d

theorem handsOn_seqNextPush (d : Dev) (e : Nat) : HandsOn e d (seqNextPush d e) := by
  rcases seqNextPush_cases d e with ⟨pc, hq, b, t, r, -, -, next⟩ | same
  · have moved : HandsOn e d (modSeq d e (fun q => { q with pushing := some pc, pushQ := r })) := handsOn_modSeq e d _ rfl fun h => h
    rw [next]
    exact moved.trans (handsOn_requestPush ..)
  · rw [same]
    exact HandsOn.refl e d

theorem handsOn_handOn (d : Dev) (e : Nat) (f : Flight) (last : Nat) : HandsOn e d (handOn d e f last) := by
  unfold handOn
  split
  · split
    · exact (handsOn_modSeq e d _ rfl fun h => h).trans (handsOn_seqNextPush _ e)
    · exact handsOn_seqRelease d e _
  · exact HandsOn.refl e d

section HandsOn

variable {e : Nat} {d d' : Dev} (h : HandsOn e d d')
include h

theorem HandsOn.calm (calm : Calm d) : Calm d' := calm.of_eq ⟨by rw [h.frame], by rw [h.frame]⟩ (by rw [h.frame])

/-- Beside what a record before it has changed. -/
theorem HandsOn.frame_after {b : Dev} (record : d = { b with pairs := d.pairs, tiles := d.tiles }) :
    d' = { b with pairs := d'.pairs, tiles := d'.tiles, pushReqs := d'.pushReqs, popReqs := d'.popReqs } := by
  rw [h.frame, record]

theorem HandsOn.tiles : d'.tiles = d.tiles := by rw [h.frame]

theorem HandsOn.tile (j : Nat) : tile d' j = tile d j := by rw [Machine.tile, h.tiles, Machine.tile]

theorem HandsOn.keeps :
    let q := (pair d e).seq
    let q' := (pair d' e).seq
    (q'.flight = q.flight ∧ q'.run = q.run) ∧ q'.doneCnt = q.doneCnt ∧ q'.overrunCnt = q.overrunCnt := by
  intro q q'
  have same : q' = { q with cur := q'.cur, pushQ := q'.pushQ, pushing := q'.pushing } := h.seq
  rw [same]
  exact ⟨⟨rfl, rfl⟩, rfl, rfl⟩

end HandsOn

section Requests

theorem pair_requestPush (d : Dev) (u : UnitId) (hq k : Nat) (b : DWord) (at' j : Nat) : pair (requestPush d u hq k b at') j = pair d j := rfl

variable {d : Dev} {e : Nat} {f : Flight} {last : Nat}

theorem seqRelease_pushReqs (at' : Nat) : (seqRelease d e at').pushReqs = d.pushReqs := by
  rcases seqRelease_cases d e at' with ⟨t, -, -, -, next⟩ | ⟨-, same⟩
  · rw [next]
    rfl
  · rw [same]

theorem seqRelease_popReqs (at' : Nat) (free : ∀ t, (pair d e).seq.cur = some t → t.popHeld = false) : (seqRelease d e at').popReqs = d.popReqs := by
  rcases seqRelease_cases d e at' with ⟨t, taken, held, -, -⟩ | ⟨-, same⟩
  · simp [free t taken] at held
  · rw [same]

theorem seqNextPush_popReqs : (seqNextPush d e).popReqs = d.popReqs := by
  rcases seqNextPush_cases d e with ⟨_, _, _, _, _, -, -, next⟩ | same
  · rw [next]
    rfl
  · rw [same]

/-- A biscuit that is not pushed leaves the requests for pushes. -/
theorem handOn_pushReqs (drops : f.t.biscuit = none ∨ f.t.d.pushEn = false) : (handOn d e f last).pushReqs = d.pushReqs := by
  unfold handOn
  cases biscuit : f.t.biscuit with
  | none => rfl
  | some b =>
    have dropped : f.t.d.pushEn = false := by simpa [biscuit] using drops
    simp only [dropped, Bool.false_eq_true, if_false, seqRelease_pushReqs]

/-- No pop is requested where the limit holds none. -/
theorem handOn_popReqs (free : ∀ t, (pair d e).seq.cur = some t → t.popHeld = false) : (handOn d e f last).popReqs = d.popReqs := by
  unfold handOn
  split
  · split
    · exact seqNextPush_popReqs
    · exact seqRelease_popReqs _ free
  · rfl

/-- With no push before it, a biscuit is pushed at once. -/
theorem handOn_pushes {b : DWord × Nat} (biscuit : f.t.biscuit = some b) (pushes : f.t.d.pushEn = true) (pushing : (pair d e).seq.pushing = none)
    (waiting : (pair d e).seq.pushQ = []) :
    (handOn d e f last).pushReqs =
        d.pushReqs ++ [⟨.seq e, f.t.d.pushQ, pairKennel d e, b.1, max (f.complAt + 1) (pair d e).seq.lastDone, false⟩]
      ∧ (pair (handOn d e f last) e).seq.pushing = some f.t.pc := by
  simp only [handOn, biscuit, pushes, if_true, seqNextPush, seq_modSeq, pushing, waiting, List.nil_append]
  refine ⟨rfl, ?_⟩
  rw [pair_requestPush, seq_modSeq]

/-- A biscuit that is dropped makes room for a pop that the limit held (R122). -/
theorem handOn_releases {b : DWord × Nat} {t : Upcoming} (biscuit : f.t.biscuit = some b) (drops : f.t.d.pushEn = false)
    (taken : (pair d e).seq.cur = some t) (held : t.popHeld = true) (room : seqHeld (pair d e).seq < 4) :
    (handOn d e f last).popReqs = d.popReqs ++ [⟨.seq e, 0, t.d.waitQ, pairKennel d e, max f.complAt last + 1⟩] := by
  simp only [handOn, biscuit, drops, Bool.false_eq_true, if_false, seqRelease, taken, held, room, decide_true, Bool.and_self, if_true]
  rfl

end Requests

/-- A descriptor that was not refused does not end its list. -/
theorem seqFinishRefusal_passed {d : Dev} {e : Nat} (passed : ∀ t, (pair d e).seq.cur = some t → t.refused = none) : seqFinishRefusal d e = d := by
  unfold seqFinishRefusal
  simp only
  split
  · rename_i t taken
    simp only [passed t taken]
  · rfl

/-- A command of a present pair, and what follows it at once. -/
theorem runPair_settles (e : Eng) (f : Dev → Dev) (s : State) (awake : Awake s.d) (there : present s.d e.val = true) :
    runPair e f s = becomes s (settle (f s.d)) := by
  simp [runPair, there, run, powered, awake.1]

/-- R121, R122, R124: the record, the counters, the biscuit and the pop that the limit held. -/
theorem sliceCompletes : Claim.SliceCompletes := by
  intro e s f rest awake there oldest settled whole loaded drained q ovr ring
  have place : ring = recordPlace q := rfl
  clear_value ring
  subst place
  have fields := recordNumber_slice (timeAt s.d f.complAt) ovr f.t.pc f (tag := f.t.d.tag) (Nat.mod_lt _ (by decide))
  obtain ⟨r, number⟩ : ∃ r, recordNumber (timeAt s.d f.complAt) ovr f.t.pc Sc.ok.code (recordFlags f) f.t.d.tag = r := ⟨_, rfl⟩
  have runs := runPair_settles e (fun d => sliceCompletion d e.val) s awake there
  rw [sliceCompletion_oldest oldest settled whole loaded drained (ovr := ovr) rfl number] at runs
  have after : (pair (recorded s.d e.val r (leaveArray s.d f rest ovr)) e.val).seq = leaveArray s.d f rest ovr q := recorded_seq ..
  obtain ⟨pops, pushes⟩ := recorded_requests s.d e.val r (leaveArray s.d f rest ovr)
  have owner := pairKennel_recorded s.d e.val r (leaveArray s.d f rest ovr) e.val
  have moved := handsOn_handOn (recorded s.d e.val r (leaveArray s.d f rest ovr)) e.val f q.lastRec
  obtain ⟨⟨flight, run⟩, done, overrun⟩ := moved.keeps
  rw [after] at flight run done overrun
  refine ⟨_, runs, fun passed => ?_, (recorded_onlyArray ..).trans moved.array, moved.ope.trans (recorded_ope ..), flight, done, run, overrun, ?_, fun a outside => ?_,
    fun j other => ?_, ?_, fun b at' biscuit enabled pushing waiting => ?_, fun drops => ?_, fun free => ?_, fun u b at' taken held biscuit drops room => ?_⟩
  · have kept := moved.passed (by rw [after]; exact passed)
    rw [seqFinishRefusal_passed kept, settle_calm _ (moved.calm (recorded_calm _ _ _ _ awake.2))]
  · rw [number, ← readNat_recorded s.d e.val r (leaveArray s.d f rest ovr)] at fields
    rw [moved.tile]
    exact fields
  · rw [moved.tile]
    exact byte_recorded _ _ _ _ _ outside
  · rw [moved.tile]
    exact tile_recorded_other _ _ _ _ _ other
  · exact moved.frame_after (recorded_frame ..)
  · obtain ⟨sent, under⟩ := handOn_pushes (last := q.lastRec) biscuit enabled (by rw [after]; exact pushing) (by rw [after]; exact waiting)
    rw [pushes, owner] at sent
    exact ⟨_, by omega, sent, under⟩
  · rw [← pushes]
    exact handOn_pushReqs drops
  · rw [← pops]
    exact handOn_popReqs (by rw [after]; exact free)
  · rw [← pops, ← owner]
    exact handOn_releases biscuit drops (by rw [after]; exact taken) held (by rw [after]; exact room)

/-! ### Writes to the stores -/

/-- Nothing but the tile stores, operand caches and die stores differs, and no byte of them but those of `touched`. -/
structure WritesOnly (touched : Nat → Nat → Nat → Prop) (d d' : Dev) : Prop where
  frame : d' = { d with tiles := d'.tiles, caches := d'.caches, dies := d'.dies }
  bytes : ∀ sp ∈ [1, 2, 3], ∀ u a, ¬ touched sp u a → Mem.byte (store d' sp u) a = Mem.byte (store d sp u) a

section Writes

variable {touched : Nat → Nat → Nat → Prop}

theorem WritesOnly.refl (d : Dev) : WritesOnly touched d d := ⟨rfl, fun _ _ _ _ _ => rfl⟩

theorem WritesOnly.trans {a b c : Dev} (h : WritesOnly touched a b) (g : WritesOnly touched b c) : WritesOnly touched a c :=
  ⟨by rw [g.frame, h.frame], fun sp stores u x free => (g.bytes sp stores u x free).trans (h.bytes sp stores u x free)⟩

theorem WritesOnly.each {α : Type} (xs : List α) (f : Dev → α → Dev) (d : Dev) (h : ∀ x ∈ xs, ∀ d, WritesOnly touched d (f d x)) :
    WritesOnly touched d (each d xs f) := by
  induction xs generalizing d with
  | nil => exact .refl d
  | cons x r ih => exact (h x (List.mem_cons_self ..) d).trans (ih _ fun y inside => h y (List.mem_cons_of_mem _ inside))

section Frame

variable {d d' : Dev} (h : WritesOnly touched d d')
include h

theorem WritesOnly.pair (j : Nat) : pair d' j = pair d j := by rw [Machine.pair, h.frame, Machine.pair]

theorem WritesOnly.pairKennel (j : Nat) : pairKennel d' j = pairKennel d j := by rw [Machine.pairKennel, h.frame, Machine.pairKennel]

theorem WritesOnly.calm (calm : Calm d) : Calm d' := calm.of_eq ⟨by rw [h.frame], by rw [h.frame]⟩ (by rw [h.frame])

/-- With a change of pairs, nothing but the stores and the pairs differs. -/
theorem WritesOnly.modPair_frame (i : Nat) (g : Pair → Pair) :
    let b := modPair d' i g
    b = { d with pairs := b.pairs, tiles := b.tiles, caches := b.caches, dies := b.dies } := by
  rw [h.frame]
  rfl

end Frame

/-- What every store holds once one of them has been replaced. -/
theorem store_setStore (d : Dev) (m : Mem) {sp sp' : Nat} (space : sp ∈ [1, 2, 3]) (space' : sp' ∈ [1, 2, 3]) (u u' : Nat) :
    store (setStore d sp u m) sp' u' = if sp' = sp ∧ u' = u then m else store d sp' u' := by
  simp only [List.mem_cons, List.not_mem_nil, or_false] at space space'
  rcases space with rfl | rfl | rfl <;> rcases space' with rfl | rfl | rfl <;> simp [store, setStore, Tbl.get_set]

theorem setStore_frame (d : Dev) (sp u : Nat) (m : Mem) :
    setStore d sp u m = { d with tiles := (setStore d sp u m).tiles, caches := (setStore d sp u m).caches, dies := (setStore d sp u m).dies } := by
  unfold setStore
  split <;> rfl

/-- A write of bytes touches those. -/
theorem storeWrite_writesOnly (d : Dev) {sp : Nat} (space : sp ∈ [1, 2, 3]) (u a : Nat) (bs : List Byte)
    (inside : ∀ b, a ≤ b → b < a + bs.length → touched sp u b) : WritesOnly touched d (storeWrite d sp u a bs) := by
  refine ⟨setStore_frame .., fun sp' space' u' b free => ?_⟩
  rw [storeWrite, store_setStore d _ space space']
  split
  · rename_i here
    obtain ⟨rfl, rfl⟩ := here
    refine Mem.byte_write_outside _ _ _ _ ?_
    by_contra within
    exact free (inside b (by omega) (by omega))
  · rfl

/-- A write of element `j`, `w` bits wide, touches the bytes that hold its bits. -/
theorem storeElem_writesOnly (d : Dev) {sp : Nat} (space : sp ∈ [1, 2, 3]) (u a w j v : Nat)
    (inside : ∀ b, a ≤ b → b < a + ceilDiv ((j + 1) * w) 8 → touched sp u b) : WritesOnly touched d (storeElem d sp u a w j v) := by
  refine storeWrite_writesOnly d space u _ _ fun b low high => inside b (by omega) ?_
  rw [leBytes_length] at high
  have bits : (j + 1) * w = j * w + w := Nat.succ_mul j w
  unfold ceilDiv
  omega

end Writes

/-! ### What a drain writes (R84, R117, R125) -/

/-- The value of a bank entry that a drain reads, with its bias (R103, R125). -/
def drainValue (m : Mem) (x : SDesc) (bank : Tbl Entry) (r j : Nat) : Word :=
  let c := Tbl.get {} bank (cellKey r j)
  let v := if parity c.v = c.p then c.v else nanW
  if x.biasEn then fadd v (auxElem m x.biasAddr 0 x.biasFmt 0 j) else v

/-- One element of a drained row: its stash is written, and its value joins those of the row. -/
def drainCell (e : Nat) (x : SDesc) (s : Word) (bank : Tbl Entry) (r : Nat) (acc : Dev × List Word) (j : Nat) : Dev × List Word :=
  let v := drainValue (tile acc.1 e) x bank r j
  let a := if x.auxMode = 1 then auxElem (tile acc.1 e) x.auxAddr x.auxPitch x.auxFmt r j else 0
  (if x.auxMode = 2 then storeElem acc.1 1 e (x.auxAddr * 64 + r * x.auxPitch * 64) (fmtBits x.auxFmt) j (narrow x.auxFmt v) else acc.1,
    acc.2 ++ [drainFunction x.drainFn v a s])

theorem drainRow_eq (d : Dev) (e : Nat) (x : SDesc) (s : Word) (bank : Tbl Entry) (r : Nat) :
    drainRow d e x s bank r = (List.range x.n).foldl (drainCell e x s bank r) (d, []) := rfl

/-- A row has a value for each column. -/
theorem drainRow_length (d : Dev) (e : Nat) (x : SDesc) (s : Word) (bank : Tbl Entry) (r : Nat) : (drainRow d e x s bank r).2.length = x.n := by
  rw [drainRow_eq]
  generalize x.n = n
  induction n with
  | zero => rfl
  | succ n ih => rw [List.range_succ, List.foldl_append, List.foldl_cons, List.foldl_nil, drainCell, List.length_append, ih, List.length_singleton]

/-- The bits of a column's element end within the bytes of its row. -/
theorem elemEnd_le_rowEnd {n j : Nat} (w : Nat) (column : j < n) : ceilDiv ((j + 1) * w) 8 ≤ ceilDiv (n * w) 8 :=
  Nat.div_le_div_right (Nat.sub_le_sub_right (Nat.add_le_add_right (Nat.mul_le_mul_right w column) 8) 1)

/-- Blocks of a row lie within it, and none is empty. -/
theorem mem_mxBlocks {fuel b : Nat} {ys : List Word} {z : Nat × List Word} (block : z ∈ mxBlocks fuel b ys) :
    32 * z.1 + z.2.length ≤ 32 * b + ys.length ∧ 0 < z.2.length ∧ 0 < ys.length := by
  induction fuel generalizing b ys with
  | zero => simp [mxBlocks] at block
  | succ n ih =>
    unfold mxBlocks at block
    split at block
    · simp at block
    · rename_i some
      have := List.length_pos_iff.mpr (by simpa using some)
      rcases List.mem_cons.mp block with rfl | later
      · simp only [List.length_take]
        omega
      · have := ih later
        rw [List.length_drop] at this
        omega

theorem drainStore_space (e : Nat) (x : SDesc) : (drainStore e x).1 ∈ [1, 2, 3] := by
  unfold drainStore
  split <;> simp

section Touches

variable {e : Nat} {x : SDesc} {r : Nat} (row : r < x.m)
include row

/-- The elements of a row's stash lie in the rows of the stash. -/
theorem drainRow_writesOnly (d : Dev) (s : Word) (bank : Tbl Entry) : WritesOnly (drainTouches e x) d (drainRow d e x s bank r).1 := by
  rw [drainRow_eq]
  refine List.foldlRecOn (motive := fun acc : Dev × List Word => WritesOnly (drainTouches e x) d acc.1) _ _ (WritesOnly.refl d) fun acc before j column => ?_
  refine before.trans ?_
  have ends := elemEnd_le_rowEnd (fmtBits x.auxFmt) (List.mem_range.mp column)
  unfold drainCell
  by_cases stash : x.auxMode = 2
  · simp only [stash, if_true]
    exact storeElem_writesOnly _ (by decide) _ _ _ _ _ fun b low high => ⟨r, row, .inr ⟨rfl, rfl, stash, low, by omega⟩⟩
  · simp only [stash, if_false]
    exact .refl _

/-- The elements of a row lie in the rows of the destination. -/
theorem rowElem_writesOnly (d : Dev) {j : Nat} (v : Nat) (column : j < x.n) :
    WritesOnly (drainTouches e x) d
      (storeElem d (drainStore e x).1 (drainStore e x).2 (x.dstAddr * 64 + r * x.dstPitch * 64) (fmtBits x.drainFmt) j v) := by
  have ends := elemEnd_le_rowEnd (fmtBits x.drainFmt) column
  exact storeElem_writesOnly d (drainStore_space e x) _ _ _ _ _ fun b low high => ⟨r, row, .inl ⟨rfl, .inl ⟨low, by omega⟩⟩⟩

/-- A row of values, one for each column, is written to its own place. -/
theorem writeRow_writesOnly (d : Dev) {ys : List Word} (columns : ys.length = x.n) : WritesOnly (drainTouches e x) d (writeRow d e x r ys) := by
  unfold writeRow
  simp only
  split
  · rename_i mx
    refine WritesOnly.each _ _ _ fun z block d => ?_
    obtain ⟨ends, some, -⟩ := mem_mxBlocks block
    refine (WritesOnly.each _ _ _ fun y inside d => ?_).trans (storeWrite_writesOnly _ ?_ _ _ _ fun b low high => ⟨r, row, .inl ⟨rfl, .inr ⟨mx, ?_, ?_⟩⟩⟩)
    · obtain ⟨i, short, rfl⟩ := List.mem_mapIdx.mp inside
      rw [List.length_take] at short
      exact rowElem_writesOnly row d _ (by omega)
    · exact drainStore_space e x
    · omega
    · simp at high
      unfold ceilDiv
      omega
  · refine WritesOnly.each _ _ _ fun z inside d => ?_
    obtain ⟨j, short, rfl⟩ := List.mem_mapIdx.mp inside
    exact rowElem_writesOnly row d _ (columns ▸ short)

end Touches

/-- Every row, with its stash, is written to its own place (R84). -/
theorem drainRows_writesOnly (d : Dev) (e : Nat) (x : SDesc) (s : Word) (bank : Tbl Entry) : WritesOnly (drainTouches e x) d (drainRows d e x s bank) :=
  WritesOnly.each _ _ _ fun _ inside d =>
    have row := List.mem_range.mp inside
    (drainRow_writesOnly row d s bank).trans (writeRow_writesOnly row _ (drainRow_length ..))

/-! A drain reads and writes stores alone, so that a change of pairs before it may as well come after it. -/

section Pairs

variable (d : Dev) (i : Nat) (g : Pair → Pair)

theorem storeWrite_modPair (sp u a : Nat) (bs : List Byte) : storeWrite (modPair d i g) sp u a bs = modPair (storeWrite d sp u a bs) i g := by
  have held : store (modPair d i g) sp u = store d sp u := rfl
  rw [storeWrite, held, storeWrite]
  unfold setStore
  split <;> rfl

theorem storeElem_modPair (sp u a w j v : Nat) : storeElem (modPair d i g) sp u a w j v = modPair (storeElem d sp u a w j v) i g :=
  storeWrite_modPair ..

theorem each_modPair {α : Type} (xs : List α) (f : Dev → α → Dev) (commutes : ∀ d x, f (modPair d i g) x = modPair (f d x) i g) :
    each (modPair d i g) xs f = modPair (each d xs f) i g := List.foldl_hom (modPair · i g) commutes

theorem drainRow_modPair (e : Nat) (x : SDesc) (s : Word) (bank : Tbl Entry) (r : Nat) :
    drainRow (modPair d i g) e x s bank r = (modPair (drainRow d e x s bank r).1 i g, (drainRow d e x s bank r).2) := by
  have cell (acc : Dev × List Word) (j : Nat) : drainCell e x s bank r (modPair acc.1 i g, acc.2) j =
      (modPair (drainCell e x s bank r acc j).1 i g, (drainCell e x s bank r acc j).2) := by
    have held : tile (modPair acc.1 i g) e = tile acc.1 e := rfl
    by_cases stash : x.auxMode = 2 <;> simp [drainCell, stash, held, storeElem_modPair]
  rw [drainRow_eq, drainRow_eq]
  exact List.foldl_hom (fun acc : Dev × List Word => (modPair acc.1 i g, acc.2)) (init := (d, [])) cell

theorem writeRow_modPair (e : Nat) (x : SDesc) (r : Nat) (ys : List Word) : writeRow (modPair d i g) e x r ys = modPair (writeRow d e x r ys) i g := by
  unfold writeRow
  simp only
  split
  · refine each_modPair d i g _ _ fun d z => ?_
    rw [each_modPair _ _ _ _ _ fun d y => storeElem_modPair .., storeWrite_modPair]
  · exact each_modPair d i g _ _ fun d z => storeElem_modPair ..

theorem drainRows_modPair (e : Nat) (x : SDesc) (s : Word) (bank : Tbl Entry) :
    drainRows (modPair d i g) e x s bank = modPair (drainRows d e x s bank) i g :=
  each_modPair d i g _ _ fun d r => by rw [drainRow_modPair, writeRow_modPair]

end Pairs

/-! ### The drain of a slice (R83 to R86, R103) -/

/-- A pair whose drain of the slice `f` has read `bank`. -/
def drainedPair (d : Dev) (f : Flight) (bank : Tbl Entry) (p : Pair) : Pair :=
  let ds := max (f.cL + 2 * depthD) p.seq.pathFree
  { p with
    ope := { setBank p.ope f.bank bank with
      draining := addSpan d p.ope.draining ds (ds + 276), parityErr := p.ope.parityErr || badEntries bank
      parityCnt := if badEntries bank then inc p.ope.parityCnt else p.ope.parityCnt }
    seq := { p.seq with
      pathFree := ds + 256, drain0 := if f.bank then p.seq.drain0 else ds, drain1 := if f.bank then ds else p.seq.drain1
      flight := modFlight p.seq.flight (·.drainDue) (fun f => { f with drainDue := false, complAt := ds + 275, parityErr := badEntries bank }) } }

theorem drainSlice_next {d : Dev} {e : Nat} {f : Flight} (upsets : List Nat) (oldest : (pair d e).seq.flight.find? (·.drainDue) = some f)
    (settled : f.settled = true) (whole : windows f.t.d ≤ f.win) :
    let bank := upsetBank (bankOf (pair d e).ope f.bank) upsets
    let d' := modPair (drainRows d e f.t.d f.t.sval bank) e (drainedPair d f bank)
    drainSlice d e upsets = if badEntries bank then taskFault d' (pairKennel d' e) .task else d' := by
  intro bank d'
  rw [drainSlice]
  simp only [oldest]
  rw [if_neg (by simp [settled, Nat.not_lt.mpr whole])]
  have rows : drainRows (modPair d e (drainedPair d f bank)) e f.t.d f.t.sval bank = d' := drainRows_modPair ..
  rw [← rows]
  rfl

/-- R83 to R86, R103, R125: each row is written to its own place, and the bank is left as it was read. -/
theorem drainWrites : Claim.DrainWrites := by
  intro e s upsets f awake there oldest settled whole o bank ds
  have wrote := drainRows_writesOnly s.d e.val f.t.d f.t.sval bank
  have runs := runPair_settles e (fun d => drainSlice d e.val upsets) s awake there
  rw [drainSlice_next upsets oldest settled whole] at runs
  refine ⟨modPair (drainRows s.d e.val f.t.d f.t.sval bank) e.val (drainedPair s.d f bank), runs.trans ?_, ⟨fun j other => ?_, ?_, ?_⟩, wrote.modPair_frame _ _,
    ?_, ?_, ?_, ?_, fun _ _ _ => rfl, wrote.bytes⟩
  · have owner : pairKennel (modPair (drainRows s.d e.val f.t.d f.t.sval bank) e.val (drainedPair s.d f bank)) e.val = pairKennel s.d e.val := wrote.pairKennel _
    by_cases bad : badEntries bank = true
    · rw [if_pos bad, if_pos bad, owner]
    · rw [if_neg bad, if_neg bad, settle_calm _ ((wrote.calm awake.2).modPair ..)]
  · rw [pair_modPair_other _ _ _ _ other, wrote.pair]
  all_goals rw [pair_modPair, wrote.pair]; rfl

end Sys2Proof.Machine

namespace Sys2Proof.Proofs

open Sys2Proof.Machine

/-- Settles O11: a drain writes the rows of its slice, and a record stands for each slice and each HALT that completes. -/
theorem drainAndCompletion : Obligations.DrainAndCompletion := ⟨drainWrites, sliceCompletes, haltCompletes⟩

end Sys2Proof.Proofs

namespace Sys2Proof.Machine

/-! ### What a take-up reads of a scalar register (R119, R137) -/

/-- A descriptor that passes its checks is taken up. -/
theorem seqTakeUp_accepts {d : Dev} {e : Eng} {x : SDesc} (next : NextDesc d e x)
    (passes : (x.kind = 1 ∧ sliceCheck (pair d e.val).ope (pair d e.val).seq x = none) ∨ (x.kind = 3 ∧ haltCheck x = none)) :
    seqTakeUp d e.val = takeAccepted d e.val x := by
  obtain ⟨-, there, running, free, fits, fetched⟩ := next
  rw [seqTakeUp]
  rcases passes with ⟨kind, ok⟩ | ⟨kind, ok⟩ <;> simp [there, running, free, fits, fetched, kind, ok]

/-- The plan of a descriptor leaves the scalar that it has read. -/
theorem planOf_sval (q : Seq) (m : Mem) (x : SDesc) (t : Upcoming) : (planOf q m x t).2.sval = t.sval := by
  unfold planOf
  dsimp only
  split <;> rfl

/-- A take-up changes sequencers and requests for pops alone. -/
theorem takeAccepted_calm {d : Dev} (calm : Calm d) (e : Nat) (x : SDesc) : Calm (takeAccepted d e x) := by
  unfold takeAccepted
  dsimp only
  split <;> exact calm.of_eq ⟨rfl, rfl⟩ rfl

theorem pair_requestPop (d : Dev) (u : UnitId) (role hq k at' j : Nat) : pair (requestPop d u role hq k at') j = pair d j := rfl

/-- A take-up in ECLK t reads its scalar as it was before every write in that ECLK or later (R137). -/
theorem takeAccepted_reads (d : Dev) (e : Nat) (x : SDesc) :
    (pair (takeAccepted d e x) e).seq.cur.map (·.sval) = some (scalarAt (pair d e) x.sReg (pair d e).seq.takeAt) := by
  rw [takeAccepted]
  dsimp only
  split <;> simp only [pair_requestPop, seq_modSeq, Option.map_some, planOf_sval]

/-- The command takes up a descriptor that passes its checks, and reads its scalar so. -/
theorem sliceTakeUp_reads {e : Eng} {s t : State} {x : SDesc} (next : NextDesc s.d e x)
    (passes : (x.kind = 1 ∧ sliceCheck (pair s.d e.val).ope (pair s.d e.val).seq x = none) ∨ (x.kind = 3 ∧ haltCheck x = none))
    (runs : exec (.sliceTakeUp e) s = .next t) :
    (pair t.d e.val).seq.cur.map (·.sval) = some (scalarAt (pair s.d e.val) x.sReg (pair s.d e.val).seq.takeAt) := by
  have effect := seqTakeUp_accepts next passes
  obtain ⟨⟨power, calm⟩, there, -⟩ := next
  have after : exec (.sliceTakeUp e) s = _ := runPair_calm e (fun d => seqTakeUp d e.val) s there power (effect ▸ takeAccepted_calm calm e.val x)
  cases runs.symm.trans after
  rw [effect, takeAccepted_reads]

/-- A SLICE of one row and one column with `K` 0 and `S_REG` 0. -/
def overtakenSlice : SDesc := { w0 := 0x1000000000804000#64, w1 := 0x1100000 }

/-- Pair 0 with that SLICE next in its list, to be taken up in ECLK 0, when the VE has already issued a write of 7 to S0 that a take-up sees from
ECLK 1 on. -/
def overtakenTakeUp : Dev := {
  dstate := .ready, tiles := [(0, [(1, 0x40#8), (2, 0x80#8), (7, 0x10#8), (10, 0x10#8), (11, 0x01#8)])]
  pairs := [(0, setScalar (noteScalars 0 { seq := { run := true } } [0] 1) 0 7)] }

theorem overtakenTakeUp_next : NextDesc overtakenTakeUp 0 overtakenSlice := by
  unfold NextDesc Awake Calm
  decide

end Sys2Proof.Machine

namespace Sys2Proof.Proofs

open Sys2Proof.Machine

/-- Refutes O7: `SliceTakesUpWork` has the take-up read the newest value of the scalar register. The model keeps R137: a write of the VE that falls in the ECLK
of the take-up or later is not seen, so that the SLICE of `overtakenTakeUp` reads 0 where the register already holds 7. -/
theorem not_seqStartsAndTakesUp : ¬ Obligations.SeqStartsAndTakesUp := by
  rintro ⟨-, -, takesUp, -⟩
  have passes : overtakenSlice.kind = 1 ∧ sliceCheck (pair overtakenTakeUp 0).ope (pair overtakenTakeUp 0).seq overtakenSlice = none := by decide
  obtain ⟨t, u, runs, -, -, -, taken, -, -, newest, -⟩ := takesUp 0 { d := overtakenTakeUp } overtakenSlice overtakenTakeUp_next (.inl passes)
  have reads := sliceTakeUp_reads overtakenTakeUp_next (.inl passes) runs
  rw [taken, Option.map_some, newest] at reads
  exact absurd reads (by decide)

end Sys2Proof.Proofs

namespace Sys2Proof.Machine

/-! ### What becomes of a pop at its queue (R185, R186) -/

/-- A command of a unit whose effect on a module with power leaves nothing to follow. -/
theorem run_becomes {f : Dev → Dev} {s : State} {d : Dev} (awake : Awake s.d) (effect : f s.d = d) (calm : Calm d) : run f s = becomes s d := by
  subst effect
  exact run_calm f s awake.1 calm

section Pop

variable {d : Dev} {q k : Nat} (u : UnitId) (role at' : Nat)

theorem qPop_takes {b : DWord} {bs : List DWord} (allows : hqAllows (hq d q) k = true) (items : (hq d q).items = b :: bs) :
    qPop d q k u role at' =
      ({ modHq d q (fun x => { x with items := bs, popCnt := inc x.popCnt }) with arrivals := d.arrivals ++ [⟨u, role, b, at' + 8⟩] }, .got b) := by
  simp [qPop, allows, items]

theorem qPop_waits (allows : hqAllows (hq d q) k = true) (items : (hq d q).items = []) :
    qPop d q k u role at' = (modHq d q (fun x => { x with waiters := x.waiters ++ [⟨u, role, at'⟩] }), .waiting) := by
  simp [qPop, allows, items]

theorem qPop_denied (denies : hqAllows (hq d q) k = false) : qPop d q k u role at' = (hqDeny d q, .denied) := by
  simp [qPop, denies]

end Pop

section RunPop

variable {d : Dev} {u : UnitId} {r : PopReq} {rest : List PopReq} (request : takeFirst d.popReqs (fun x => x.unit == u) = some (r, rest))
include request

/-- A pop waits for the requests that go before it. -/
theorem runPop_later (later : popFirst d r = false) : runPop d u = d := by
  simp [runPop, request, later]

/-- What the queue makes of a pop that it does not deny is all that the pop does. -/
theorem runPop_admitted {d' : Dev} {p : Popped} (first : popFirst d r = true)
    (queue : qPop { d with popReqs := rest } r.q r.kennel u r.role r.at' = (d', p)) (admitted : p ≠ .denied) : runPop d u = d' := by
  cases p with
  | denied => exact absurd rfl admitted
  | got b => simp [runPop, request, first, queue]
  | waiting => simp [runPop, request, first, queue]

/-- A denied pop counts at the queue, and its unit is told. -/
theorem runPop_denied (first : popFirst d r = true) (denies : hqAllows (hq d r.q) r.kennel = false) :
    runPop d u = popDenied (hqDeny { d with popReqs := rest } r.q) u := by
  have queue := qPop_denied (d := { d with popReqs := rest }) u r.role r.at' denies
  simp [runPop, request, first, queue]

end RunPop

/-- R185, R186: a pop takes the oldest biscuit, or the last place among those that wait. -/
theorem queuePopTakes : Claim.QueuePopTakes := by
  intro u s r rest awake request
  refine ⟨fun later => ?_, fun b bs first allows items => ?_, fun first allows items => ?_⟩
  · exact run_becomes awake (runPop_later request later) awake.2
  · exact run_becomes awake (runPop_admitted request first (qPop_takes u r.role r.at' allows items) (by simp)) (awake.2.of_eq ⟨rfl, rfl⟩ rfl)
  · exact run_becomes awake (runPop_admitted request first (qPop_waits u r.role r.at' allows items) (by simp)) (awake.2.of_eq ⟨rfl, rfl⟩ rfl)

/-- A refused pop refuses the descriptor, and with work in the array the list does not end yet (R120). -/
theorem seqPopDenied_waits {d : Dev} {e : Nat} {t : Upcoming} (taken : (pair d e).seq.cur = some t) (work : (pair d e).seq.flight ≠ []) :
    seqPopDenied d e = modSeq d e (fun q => { q with
      refused := true, refuseSc := Sc.denied.code, pc := t.pc, cur := some { t with refused := some .denied, popHeld := false } }) := by
  simp [seqPopDenied, taken, seqRefuse, seqFinishRefusal, work]

/-- R185, R120: the queue counts the pop, and the sequencer refuses its descriptor. -/
theorem queuePopDenied : Claim.QueuePopDenied := by
  intro e s r rest x awake request first denies taken work
  have told := seqPopDenied_waits (d := hqDeny { s.d with popReqs := rest } r.q) taken work
  exact run_becomes awake ((runPop_denied request first denies).trans told) (awake.2.of_eq ⟨rfl, rfl⟩ rfl)

end Sys2Proof.Machine

namespace Sys2Proof.Proofs

open Sys2Proof.Machine

/-- Settles O12: each pop meets a queue that has a biscuit, one that has none, or one that denies it. -/
theorem queuePops : Obligations.QueuePops := ⟨queuePopTakes, queuePopDenied⟩

end Sys2Proof.Proofs

namespace Sys2Proof.Machine

/-! ### What becomes of a push at its queue (R186, R187) -/

section Push

variable {d : Dev} {q k : Nat} (b : DWord) (at' : Nat) (allows : hqAllows (hq d q) k = true)
include allows

theorem qPush_hands {w : Waiter} {ws : List Waiter} (waiters : (hq d q).waiters = w :: ws) :
    qPush d q k b at' =
      ({ modHq d q (fun x => { x with waiters := ws, pushCnt := inc x.pushCnt, popCnt := inc x.popCnt }) with
        arrivals := d.arrivals ++ [⟨w.unit, w.role, b, max at' w.at' + 8⟩] }, .accepted) := by
  simp [qPush, allows, waiters]

theorem qPush_stores (waiters : (hq d q).waiters = []) (room : (hq d q).items.length < (hq d q).depth) :
    qPush d q k b at' = (modHq d q (fun x => { x with items := x.items ++ [b], pushCnt := inc x.pushCnt }), .accepted) := by
  simp [qPush, allows, waiters, room]

theorem qPush_full (waiters : (hq d q).waiters = []) (full : (hq d q).depth ≤ (hq d q).items.length) :
    qPush d q k b at' = (modHq d q (fun x => { x with fullSeen := true, fullCnt := inc x.fullCnt }), .full) := by
  simp [qPush, allows, waiters, Nat.not_lt.mpr full]

end Push

section SendPush

variable {d d' : Dev} {u : UnitId} {r : PushReq} {rest : List PushReq} (first : pushFirst d r = true)
include first

theorem sendPush_accepted (queue : qPush { d with pushReqs := rest } r.q r.kennel r.biscuit r.at' = (d', .accepted)) :
    sendPush d u r rest = pushed d' u r.at' := by
  simp [sendPush, first, queue]

/-- A push that meets the full queue is kept for 16 ECLK (R187). -/
theorem sendPush_full (queue : qPush { d with pushReqs := rest } r.q r.kennel r.biscuit r.at' = (d', .full)) :
    sendPush d u r rest = { d' with pushReqs := d'.pushReqs ++ [{ r with at' := r.at' + 16, retry := true }] } := by
  simp [sendPush, first, queue]

end SendPush

/-- A first push and a retry each send the request, and what follows it follows at once. -/
theorem pushComes_runs {s : State} {u : UnitId} {c : Instr} {r : PushReq} {rest : List PushReq} (awake : Awake s.d) (comes : PushComes s.d u c r rest) :
    exec c s = becomes s (settle (sendPush s.d u r rest)) := by
  have settles (f : Dev → Dev) : run f s = becomes s (settle (f s.d)) := by simp [run, powered, awake.1]
  obtain ⟨-, ⟨rfl, request⟩ | ⟨rfl, request⟩⟩ := comes
  · have sends : runPush s.d u = sendPush s.d u r rest := by simp only [runPush, request]
    exact sends ▸ settles (fun d => runPush d u)
  · have sends : retryPush s.d u = sendPush s.d u r rest := by simp only [retryPush, request]
    exact sends ▸ settles (fun d => retryPush d u)

/-! ### What an accepted push does at its unit (R119, R160, R177) -/

/-- The queues and what is on its way from them are as before, and nothing has come to follow. -/
structure KeepsQueues (d d' : Dev) : Prop where
  hqs : d'.hqs = d.hqs
  arrivals : d'.arrivals = d.arrivals
  told : d'.reports = d.reports ∧ d'.delivered = d.delivered
  tasks : d'.tasks = d.tasks

theorem KeepsQueues.refl (d : Dev) : KeepsQueues d d := ⟨rfl, rfl, ⟨rfl, rfl⟩, rfl⟩

theorem KeepsQueues.trans {a b c : Dev} (h : KeepsQueues a b) (g : KeepsQueues b c) : KeepsQueues a c :=
  ⟨g.hqs.trans h.hqs, g.arrivals.trans h.arrivals, ⟨g.told.1.trans h.told.1, g.told.2.trans h.told.2⟩, g.tasks.trans h.tasks⟩

theorem KeepsQueues.each {α : Type} (d : Dev) (xs : List α) (f : Dev → α → Dev) (h : ∀ d x, KeepsQueues d (f d x)) : KeepsQueues d (each d xs f) := by
  induction xs generalizing d with
  | nil => exact .refl d
  | cons x r ih => exact (h d x).trans (ih (f d x))

theorem KeepsQueues.calm {d d' : Dev} (h : KeepsQueues d d') (calm : Calm d) : Calm d' := calm.of_eq h.told h.tasks

theorem keepsQueues_modPair (d : Dev) (e : Nat) (f : Pair → Pair) : KeepsQueues d (modPair d e f) := ⟨rfl, rfl, ⟨rfl, rfl⟩, rfl⟩

theorem keepsQueues_modSe (d : Dev) (n : Nat) (f : Se → Se) : KeepsQueues d (modSe d n f) := ⟨rfl, rfl, ⟨rfl, rfl⟩, rfl⟩

theorem keepsQueues_modAct (d : Dev) (n s : Nat) (f : Active → Active) : KeepsQueues d (modAct d n s f) := keepsQueues_modSe ..

theorem keepsQueues_requestPush (d : Dev) (u : UnitId) (hq k : Nat) (b : DWord) (at' : Nat) : KeepsQueues d (requestPush d u hq k b at') :=
  ⟨rfl, rfl, ⟨rfl, rfl⟩, rfl⟩

theorem HandsOn.keepsQueues {e : Nat} {d d' : Dev} (h : HandsOn e d d') : KeepsQueues d d' := by
  rw [h.frame]
  exact ⟨rfl, rfl, ⟨rfl, rfl⟩, rfl⟩

/-- An accepted push of a sequencer whose descriptor is not refused lets its list go on. -/
theorem keepsQueues_seqPushed {d : Dev} {e : Nat} (at' : Nat) (passed : ∀ x, (pair d e).seq.cur = some x → x.refused = none) :
    KeepsQueues d (seqPushed d e at') := by
  obtain ⟨b, free⟩ : ∃ b, b = modSeq d e (fun q => { q with pushing := none, lastDone := max q.lastDone at' }) := ⟨_, rfl⟩
  have taken : (pair b e).seq.cur = (pair d e).seq.cur := by rw [free, seq_modSeq]
  have moved : HandsOn e b (seqNextPush (seqRelease b e at') e) := (handsOn_seqRelease b e at').trans (handsOn_seqNextPush _ e)
  have goes : seqPushed d e at' = seqNextPush (seqRelease b e at') e := by
    rw [seqPushed, ← free, seqFinishRefusal_passed (moved.passed (taken ▸ passed))]
  have begins : KeepsQueues d b := free ▸ keepsQueues_modPair d e _
  exact goes ▸ begins.trans moved.keepsQueues

/-- A descriptor that leaves its slot closes watches at the M-dies. -/
theorem keepsQueues_leaveActive (d : Dev) (n s plan : Nat) : KeepsQueues d (leaveActive d n s plan) := by
  have closes (d : Dev) (p : Nat → Bool) : KeepsQueues d (watchKeep d n s p) := KeepsQueues.each _ _ _ fun _ _ => ⟨rfl, rfl, ⟨rfl, rfl⟩, rfl⟩
  have ends (d : Dev) (w : List (Nat × Nat × Nat × Nat)) : KeepsQueues d { d with watchQ := w } := ⟨rfl, rfl, ⟨rfl, rfl⟩, rfl⟩
  have trims (d : Dev) : KeepsQueues d (trimWatches d n s) := by
    unfold trimWatches
    exact (ends d _).trans (closes _ _)
  exact (keepsQueues_modSe d n _).trans (trims _)

theorem keepsQueues_finalTransfer (d : Dev) (n s at' : Nat) : KeepsQueues d (finalTransfer d n s at') := by
  unfold finalTransfer
  split
  · exact .refl d
  · exact (keepsQueues_modSe d n _).trans (keepsQueues_leaveActive ..)

/-- A slot goes on to its next push, its next repetition or its end. -/
theorem keepsQueues_nextPush (fuel : Nat) (d : Dev) (n s at' : Nat) : KeepsQueues d (nextPush fuel d n s at') := by
  induction fuel generalizing d at' with
  | zero => exact .refl d
  | succ f ih =>
    cases held : (sslot d n s).act with
    | none =>
      unfold nextPush
      simp only [held]
      exact .refl d
    | some a =>
      unfold nextPush
      simp only [held]
      split
      · split
        · exact keepsQueues_requestPush ..
        · exact (keepsQueues_modAct d n s _).trans (ih ..)
        · exact .refl d
      · split
        · exact keepsQueues_finalTransfer ..
        · exact .refl d

/-- A unit goes on after an accepted push, and unless a sequencer's refused descriptor ends with it, nothing follows. -/
theorem keepsQueues_pushed (d : Dev) (u : UnitId) (at' : Nat) (passed : ∀ e x, u = .seq e → (pair d e).seq.cur = some x → x.refused = none) :
    KeepsQueues d (pushed d u at') := by
  cases u with
  | fw => exact .refl d
  | seq e => exact keepsQueues_seqPushed at' fun x => passed e x rfl
  | ve e => exact keepsQueues_modPair ..
  | se n s => exact (keepsQueues_modAct d n s _).trans (keepsQueues_nextPush ..)
  | zl p => exact .refl d

/-- R186, R187: a push meets a waiting pop, room, or a full queue. -/
theorem queuePushStores : Claim.QueuePushStores := by
  intro u c s r rest awake comes allows q accepts
  have runs := pushComes_runs awake comes
  have first := comes.1
  have accepted {d : Dev} (queue : qPush { s.d with pushReqs := rest } r.q r.kennel r.biscuit r.at' = (d, .accepted)) (same : d.pairs = s.d.pairs)
      (calm : Calm d) : accepts d := by
    refine ⟨sendPush_accepted first queue ▸ runs, fun passed => ?_⟩
    have keeps := keepsQueues_pushed d u r.at' (by simpa only [pair, same] using passed)
    exact ⟨settle_calm _ (keeps.calm calm), keeps.hqs, keeps.arrivals⟩
  refine ⟨fun w ws waiters => ?_, fun waiters room => ?_, fun waiters full => ?_⟩
  · exact accepted (qPush_hands (d := { s.d with pushReqs := rest }) r.biscuit r.at' allows waiters) rfl (awake.2.of_eq ⟨rfl, rfl⟩ rfl)
  · exact accepted (qPush_stores (d := { s.d with pushReqs := rest }) r.biscuit r.at' allows waiters room) rfl (awake.2.of_eq ⟨rfl, rfl⟩ rfl)
  · have kept := sendPush_full (u := u) first (qPush_full (d := { s.d with pushReqs := rest }) r.biscuit r.at' allows waiters full)
    exact runs.trans (congrArg (becomes s) ((congrArg settle kept).trans (settle_calm _ (awake.2.of_eq ⟨rfl, rfl⟩ rfl))))

/-! ### Arrivals (R119, R152, R177, R194) -/

/-- The biscuit of a POPQ is written into its scalar pair, and no other unit and no other engine pair changes. -/
theorem veArrive_writes {d : Dev} {e r pc : Nat} (b : DWord) (at' : Nat) (waits : (pair d e).ve.popTo = some (r, pc)) :
    let d' := veArrive d e b at'
    (pair d' e).ve.popTo = none ∧ (pair d' e).scalars = (setScalarPair (pair d e) r b).scalars ∧ (pair d' e).seq = (pair d e).seq
      ∧ (pair d' e).ope = (pair d e).ope ∧ (pair d' e).ve.v = (pair d e).ve.v ∧ (∀ j, j ≠ e → pair d' j = pair d j) ∧ d' = { d with pairs := d'.pairs } := by
  simp only [veArrive, waits, pair_modPair, true_and]
  exact ⟨rfl, rfl, rfl, rfl, fun j other => pair_modPair_other _ _ _ _ other, rfl⟩

/-- A change of a slot counts by what it makes of that slot alone. -/
theorem modSlot_congr {d : Dev} {n s : Nat} {f g : SSlot → SSlot} (same : f (sslot d n s) = g (sslot d n s)) : modSlot d n s f = modSlot d n s g :=
  congrArg (fun y => { d with ses := Tbl.set {} d.ses n { se d n with slots := Tbl.set {} (se d n).slots s y } }) same

/-- The repetition that asked for a biscuit takes it. -/
theorem seArrive_takes {d : Dev} {n i : Nat} {x : Active} (role : Nat) (b : DWord) (at' : Nat) (held : (sslot d n i).act = some x) :
    seArrive d n i role b at' = modSlot d n i (fun y => { y with act := some (withRep x (role / 100) (fun r => { r with
      biscuits := r.biscuits ++ [(role % 100, b)], popsLeft := r.popsLeft - 1, lastArrival := max r.lastArrival at' })) }) := by
  refine modSlot_congr ?_
  rw [held]
  rfl

theorem takeUps_setTakeUps (d : Dev) (p : Nat) (l : List TakeUp) : takeUps (setTakeUps d p l) p = l := Tbl.get_set_self ..

theorem setTakeUps_setTakeUps (d : Dev) (p : Nat) (l m : List TakeUp) : setTakeUps (setTakeUps d p l) p m = setTakeUps d p m := by
  simp [setTakeUps, Tbl.set_set]

/-- A take-up that has asked for its biscuits waits for all of them (R194). -/
theorem pumpTakeUp_waits (d : Dev) (p : Nat) {t : TakeUp} (r : List TakeUp) (asked : t.asked = true) (more : 0 < t.popsLeft) (pushing : t.pushing = 0) :
    pumpTakeUp (setTakeUps d p (t :: r)) p = setTakeUps d p (t :: r) := by
  have waits (d : Dev) : runTakeUp d p t = (d, t) := by simp [runTakeUp, more]
  have asks : askTakeUp (setTakeUps d p (t :: r)) p = setTakeUps d p (t :: r) := by simp [askTakeUp, takeUps_setTakeUps, asked]
  simp [pumpTakeUp, takeUps_setTakeUps, waits, pushing, setTakeUps_setTakeUps, asks]

/-- A take-up that waits for more biscuits keeps this one. -/
theorem zlArrive_keeps {d : Dev} {p : Nat} {t : TakeUp} {r : List TakeUp} (role : Nat) (b : DWord) (taken : takeUps d p = t :: r) (asked : t.asked = true)
    (pushing : t.pushing = 0) (more : 1 < t.popsLeft) :
    zlArrive d p role b = setTakeUps d p ({ t with biscuits := t.biscuits ++ [(role, b)], popsLeft := t.popsLeft - 1 } :: r) := by
  simp only [zlArrive, taken]
  exact pumpTakeUp_waits _ p r asked (Nat.sub_pos_of_lt more) pushing

theorem reportArrives_idle {d : Dev} {k : Nat} (b : DWord) (idle : takesReports d k = false) : reportArrives d k b = d := by
  simp [reportArrives, idle]

/-- R119, R152, R177, R194: the unit that asked takes its biscuit. -/
theorem biscuitReachesUnit : Claim.BiscuitArrives := by
  intro u s a rest awake came
  have runs {d : Dev} (effect : biscuitArrives s.d u = d) (calm : Calm d) : exec (.biscuitArrival u) s = becomes s d := run_becomes awake effect calm
  refine ⟨?_, ?_, ?_, ?_, ?_⟩
  · rintro e rfl
    have meets : biscuitArrives s.d (.seq e) = seqArrive { s.d with arrivals := rest } e a.biscuit a.at' := by simp only [biscuitArrives, runArrival, came]
    exact runs meets (awake.2.of_eq ⟨rfl, rfl⟩ rfl)
  · rintro e r pc rfl waits
    have meets : biscuitArrives s.d (.ve e) = veArrive { s.d with arrivals := rest } e a.biscuit a.at' := by simp only [biscuitArrives, runArrival, came]
    obtain ⟨popTo, scalars, seq, ope, v, others, frame⟩ := veArrive_writes (d := { s.d with arrivals := rest }) a.biscuit a.at' waits
    exact ⟨_, runs meets (awake.2.of_eq ⟨by rw [frame], by rw [frame]⟩ (by rw [frame])), popTo, scalars, seq, ope, v, others, frame⟩
  · rintro n i x rfl held
    have meets : biscuitArrives s.d (.se n i) = seArrive { s.d with arrivals := rest } n i a.role a.biscuit a.at' := by simp only [biscuitArrives, runArrival, came]
    have takes := seArrive_takes (d := { s.d with arrivals := rest }) a.role a.biscuit a.at' held
    exact runs (meets.trans takes) (awake.2.of_eq ⟨rfl, rfl⟩ rfl)
  · rintro p t r rfl taken asked pushing more
    have meets : biscuitArrives s.d (.zl p) = zlArrive { s.d with arrivals := rest } p a.role a.biscuit := by simp only [biscuitArrives, runArrival, came]
    have keeps := zlArrive_keeps (d := { s.d with arrivals := rest }) a.role a.biscuit taken asked pushing more
    exact runs (meets.trans keeps) (awake.2.of_eq ⟨rfl, rfl⟩ rfl)
  · rintro rfl idle
    have meets : biscuitArrives s.d .fw = reportArrives { s.d with arrivals := rest } a.role a.biscuit := by simp only [biscuitArrives, came]
    have stays := reportArrives_idle (d := { s.d with arrivals := rest }) a.biscuit idle
    exact runs (meets.trans stays) (awake.2.of_eq ⟨rfl, rfl⟩ rfl)

end Sys2Proof.Machine

namespace Sys2Proof.Proofs

open Sys2Proof.Machine

/-- Settles O13: a push meets a waiting pop, room or a full queue, its unit goes on once it is accepted, and a biscuit is taken by the unit that asked for it. -/
theorem queuePushes : Obligations.QueuePushes := ⟨queuePushStores, biscuitReachesUnit⟩

end Sys2Proof.Proofs

namespace Sys2Proof.Machine

/-! ### The issue of a ready instruction (R141, R163) -/

/-- A command of a present pair whose effect leaves nothing to follow. -/
theorem runPair_becomes {e : Eng} {f : Dev → Dev} {s : State} {d : Dev} (awake : Awake s.d) (there : present s.d e.val = true) (effect : f s.d = d)
    (calm : Calm d) : runPair e f s = becomes s d := by
  subst effect
  exact runPair_calm e f s there awake.1 calm

section Ready

variable {d : Dev} {e : Eng} {w : DWord} {i : VInfo} {op : Nat} {eff : VEffect} (ready : VeReady d e w i) (named : vOp w = op)
include ready named

/-- A ready instruction that the command names, and that its own effect does not refuse, issues. -/
theorem veIssue_issues {d' : Dev} {next : Nat} (effect : eff d e.val w (vePlace d e) (veTime d e w i) = .ok d' next) :
    veIssue d e.val op eff = modPair d' e.val (fun p => { p with
      ve := veIssued p.ve i w (vePlace d e) (veTime d e w i) next
      history := (noteScalars d.eclk (pair d e.val) (scalarWrites i w) (veTime d e w i + vLat i w)).history }) := by
  obtain ⟨-, there, runs, fits, word, row, free, sound⟩ := ready
  rw [vePlace, veTime] at effect
  simp [veIssue, there, runs, fits, word, row, free, sound, named, effect, vePlace, veTime]

/-- One that its own effect refuses is refused. -/
theorem veIssue_refuses {sc : Sc} {limit : Bool} (effect : eff d e.val w (vePlace d e) (veTime d e w i) = .refuse sc limit) :
    veIssue d e.val op eff = veRefuse d e.val (vePlace d e) sc limit := by
  obtain ⟨-, there, runs, fits, word, row, free, sound⟩ := ready
  rw [vePlace, veTime] at effect
  simp [veIssue, there, runs, fits, word, row, free, sound, named, effect, vePlace]

/-- An instruction that changes its pair alone. -/
theorem veIssue_modPair {g : Pair → Pair} {next : Nat} (effect : eff d e.val w (vePlace d e) (veTime d e w i) = .ok (modPair d e.val g) next) :
    veIssue d e.val op eff = veAfter d e w i (g (pair d e.val)) next := by
  rw [veIssue_issues ready named effect, modPair_modPair]
  exact modPair_congr rfl

end Ready

section Exec

variable {s : State} {e : Eng} {w : DWord} {i : VInfo} {op : Nat} (ready : VeReady s.d e w i) (named : vOp w = op)
include ready

theorem VeReady.calm_veAfter (p : Pair) (next : Nat) : Calm (veAfter s.d e w i p next) := ready.1.2.modPair ..

/-- The command of a ready VE whose effect leaves nothing to follow. -/
theorem VeReady.runs {f : Dev → Dev} {d : Dev} (effect : f s.d = d) (calm : Calm d) : runPair e f s = becomes s d :=
  runPair_becomes ready.1 ready.2.1 effect calm

include named

/-- The command of an instruction that changes its pair alone. -/
theorem issue_modPair {eff : VEffect} {g : Pair → Pair} {next : Nat}
    (effect : eff s.d e.val w (vePlace s.d e) (veTime s.d e w i) = .ok (modPair s.d e.val g) next) :
    runPair e (fun d => veIssue d e.val op eff) s = becomes s (veAfter s.d e w i (g (pair s.d e.val)) next) :=
  ready.runs (veIssue_modPair ready named effect) (ready.calm_veAfter ..)

/-- The command of an instruction whose effect is one on the registers of its pair. -/
theorem issue_onPair (f : Pair → DWord → Pair) :
    runPair e (fun d => veIssue d e.val op (onPair f)) s = becomes s (veAfter s.d e w i (f (pair s.d e.val) w) (vePlace s.d e + 1)) :=
  issue_modPair (g := fun p => f p w) ready named rfl

/-- The command of an instruction that its own effect refuses is its refusal. -/
theorem issue_refused {eff : VEffect} {sc : Sc} {limit : Bool}
    (effect : eff s.d e.val w (vePlace s.d e) (veTime s.d e w i) = .refuse sc limit) :
    runPair e (fun d => veIssue d e.val op eff) s = runPair e (fun d => veRefuse d e.val (vePlace s.d e) sc limit) s := by
  simp only [runPair, run, powered, veIssue_refuses ready named effect]

end Exec

/-! ### Lane instructions (Table 5-4) -/

/-- Each command issues the opcode of its row with the row's effect. -/
theorem exec_binRows (e : Eng) (s : State) : ∀ r ∈ binRows e, exec r.2.1 s = runPair e (fun d => veIssue d e.val r.1 (binLanes r.2.2)) s := by
  intro r row
  simp only [binRows, List.mem_cons, List.not_mem_nil, or_false] at row
  rcases row with rfl | rfl | rfl | rfl | rfl | rfl | rfl | rfl | rfl <;> rfl

theorem exec_laneRows (e : Eng) (s : State) : ∀ r ∈ laneRows e, exec r.2.1 s = runPair e (fun d => veIssue d e.val r.1 (onLanes r.2.2)) s := by
  intro r row
  simp only [laneRows, List.mem_cons, List.not_mem_nil, or_false] at row
  rcases row with rfl | rfl | rfl | rfl | rfl | rfl | rfl | rfl | rfl | rfl | rfl | rfl | rfl | rfl | rfl | rfl <;> rfl

/-- Table 5-4, R140, R143. -/
theorem veBinaryLanes : Claim.VeBinaryLanes := by
  intro e s w i ready r row named
  rw [exec_binRows e s r row]
  exact issue_onPair ready named _

/-- Table 5-4. -/
theorem veLaneResults : Claim.VeLaneResults := by
  intro e s w i ready r row named
  rw [exec_laneRows e s r row]
  exact issue_onPair ready named _

/-! ### Loads and stores (R144 to R146, R157) -/

/-- An access inside the operand cache has its effect at its address. -/
theorem onCache_inside {d : Dev} {e : Nat} {w : DWord} {u a : Nat} {n : DWord → Nat} (f : Dev → Nat → DWord → Nat → Dev) (pc c : Nat)
    (inside : accessAddr (pair d e) w u (n w) = some a) : onCache u n f d e w pc c = .ok (f d e w a) (pc + 1) := by
  simp only [onCache, inside]

theorem exec_loadRows (e : Eng) (s : State) : ∀ r ∈ loadRows e, exec r.2.1 s = runPair e (fun d => veIssue d e.val r.1
    (onCache 64 r.2.2.1 fun d e w a => modPair d e fun p => r.2.2.2 p w (Mem.read (cache d e) a (r.2.2.1 w)))) s := by
  intro r row
  simp only [loadRows, List.mem_cons, List.not_mem_nil, or_false] at row
  rcases row with rfl | rfl <;> rfl

theorem exec_storeRows (e : Eng) (s : State) : ∀ r ∈ storeRows e, exec r.2.1 s = runPair e (fun d => veIssue d e.val r.1
    (onCache r.2.2.1 r.2.2.2.1 fun d e w a => storeAll d e a (r.2.2.2.2 (pair d e) w))) s := by
  intro r row
  simp only [storeRows, List.mem_cons, List.not_mem_nil, or_false] at row
  rcases row with rfl | rfl | rfl | rfl <;> rfl

/-- R144. -/
theorem veLoads : Claim.VeLoads := by
  intro e s w i ready r row named a inside
  rw [exec_loadRows e s r row]
  exact issue_modPair (g := fun p => r.2.2.2 p w (Mem.read (cache s.d e.val) a (r.2.2.1 w))) ready named (onCache_inside _ _ _ inside)

/-- Pieces are stored one after another in one operand cache, and nothing else changes. -/
theorem storeAll_writes (d : Dev) (e a : Nat) (ps : List (Nat × List Byte)) : ∃ c, storeAll d e a ps = { d with caches := c }
    ∧ Tbl.get [] c e = ps.foldl (fun m z => Mem.write m (a + z.1) z.2) (cache d e) ∧ ∀ j, j ≠ e → Tbl.get [] c j = cache d j := by
  induction ps generalizing d with
  | nil => exact ⟨d.caches, rfl, rfl, fun _ _ => rfl⟩
  | cons z r ih =>
    obtain ⟨c, stored, here, others⟩ := ih (storeWrite d 2 e (a + z.1) z.2)
    have written : cache (storeWrite d 2 e (a + z.1) z.2) e = Mem.write (cache d e) (a + z.1) z.2 := Tbl.get_set_self ..
    refine ⟨c, stored, here.trans ?_, fun j other => (others j other).trans (Tbl.get_set_other _ _ _ _ _ other)⟩
    rw [written, List.foldl_cons]

/-- R144 to R146, R157. -/
theorem veStores : Claim.VeStores := by
  intro e s w i ready r row named a inside
  obtain ⟨c, stored, here, others⟩ := storeAll_writes s.d e.val a (r.2.2.2.2 (pair s.d e.val) w)
  refine ⟨c, ?_, here, others⟩
  have effect := veIssue_issues ready named (onCache_inside (fun d e w a => storeAll d e a (r.2.2.2.2 (pair d e) w)) _ _ inside)
  rw [exec_storeRows e s r row]
  refine ready.runs (effect.trans ?_) (ready.1.2.of_eq ⟨rfl, rfl⟩ rfl)
  rw [stored]
  rfl

/-! ### The exact accumulator (R155, R157, R158) -/

theorem xaddEff_over {d : Dev} {e : Nat} {w : DWord} (pc c : Nat) (exceeds : overLimit (xaddAcc (pair d e) w) = true) :
    xaddEff d e w pc c = .refuse .range true := by simp only [xaddEff, exceeds, if_true]

theorem xaddEff_adds {d : Dev} {e : Nat} {w : DWord} (pc c : Nat) (within : overLimit (xaddAcc (pair d e) w) = false) :
    xaddEff d e w pc c = .ok (modVe d e (fun x => { x with xacc := xaddAcc (pair d e) w })) (pc + 1) := by
  simp [xaddEff, within]

section Merge

variable {d : Dev} {e a : Nat} {w : DWord} (pc c : Nat) (inside : accessAddr (pair d e) w 64 1536 = some a)
include inside

theorem xmrgEff_malformed (malformed : readContainers (cache d e) a = none) : xmrgEff d e w pc c = .refuse .format false := by
  simp only [xmrgEff, inside, malformed]

theorem xmrgEff_over {cs : List Strict} (stored : readContainers (cache d e) a = some cs)
    (exceeds : overLimit (mergeAll (pair d e).ve.xacc cs) = true) : xmrgEff d e w pc c = .refuse .range true := by
  simp only [xmrgEff, inside, stored, exceeds, if_true]

theorem xmrgEff_merges {cs : List Strict} (stored : readContainers (cache d e) a = some cs)
    (within : overLimit (mergeAll (pair d e).ve.xacc cs) = false) :
    xmrgEff d e w pc c = .ok (modVe d e (fun x => { x with xacc := mergeAll (pair d e).ve.xacc cs })) (pc + 1) := by
  simp [xmrgEff, inside, stored, within]

end Merge

/-- R155, R158. -/
theorem exec_xadd {e : Eng} {s : State} {w : DWord} {i : VInfo} (ready : VeReady s.d e w i) (named : vOp w = 0x41) :
    exec (.xadd e) s = if overLimit (xaddAcc (pair s.d e.val) w) then runPair e (fun d => veRefuse d e.val (vePlace s.d e) .range true) s
      else becomes s (veAfter s.d e w i
        (withVe (pair s.d e.val) ({ (pair s.d e.val).ve with xacc := xaddAcc (pair s.d e.val) w })) (vePlace s.d e + 1)) := by
  split
  case isTrue exceeds => exact issue_refused ready named (xaddEff_over _ _ exceeds)
  case isFalse within => exact issue_modPair ready named (xaddEff_adds _ _ (Bool.eq_false_iff.mpr within))

end Sys2Proof.Machine

namespace Sys2Proof.Proofs

open Sys2Proof.Machine

/-- Settles O1: each command issues the opcode of its row with the effect on the lanes of VD that the row gives, and such an effect changes its pair alone. -/
theorem veLaneArithmetic : Obligations.VeLaneArithmetic := ⟨veBinaryLanes, veLaneResults⟩

/-- Settles O3: at an address inside the operand cache, a load changes its pair alone, and a store is its pieces one after another. -/
theorem veMemoryAccess : Obligations.VeMemoryAccess := ⟨veLoads, veStores⟩

/-- Settles O4: the effect is refused where a count would pass its limit or a container is malformed, and changes the accumulator alone elsewhere. -/
theorem veExactAccumulator : Obligations.VeExactAccumulator := by
  intro e s w i ready
  refine ⟨exec_xadd ready, fun named a inside => ?_⟩
  split
  case h_1 malformed => exact issue_refused ready named (xmrgEff_malformed _ _ inside malformed)
  case h_2 cs stored =>
    split
    case isTrue exceeds => exact issue_refused ready named (xmrgEff_over _ _ inside stored exceeds)
    case isFalse within => exact issue_modPair ready named (xmrgEff_merges _ _ inside stored (Bool.eq_false_iff.mpr within))

end Sys2Proof.Proofs

namespace Sys2Proof.Machine

/-! ### Program flow (R159 to R161) -/

section Flow

variable {d : Dev} {e : Nat} {w : DWord} {pc : Nat} (c : Nat)

/-- A LOOP with room to nest whose count is not 0 begins; with a count of 0 it skips its body. -/
theorem loopEff_nests (room : (pair d e).ve.loops.length < 2) (nested : ∀ l ∈ (pair d e).ve.loops.head?, pc + 1 + fld w 31 22 ≤ l.stop) :
    loopEff d e w pc c =
      let count := if vMod w = 0 then fld w 21 0 else (scalar (pair d e) (vSA w)).toNat
      if count = 0 then .ok d (pc + 1 + fld w 31 22)
      else .ok (modVe d e (fun x => { x with loops := ⟨pc + 1, pc + 1 + fld w 31 22, count⟩ :: x.loops })) (pc + 1) := by
  unfold loopEff
  refine if_neg ?_
  simp only [Bool.or_eq_true, decide_eq_true_eq, not_or]
  refine ⟨Nat.not_le.mpr room, ?_⟩
  split
  case h_1 l r outer =>
    have inside : pc + 1 + fld w 31 22 ≤ l.stop := nested l (by rw [outer]; rfl)
    simpa using inside
  case h_2 => simp

/-- A HALT that plans an end, or follows a GROUP, closes the last group. -/
theorem haltEff_closes (planned : fld w 7 0 ≠ 0 ∨ (pair d e).ve.afterGroup = true) :
    haltEff d e w pc c = .ok (modVe d e (fun x => closeGroup x (fld w 7 0) c true)) (pc + 1) := by
  rw [haltEff, if_neg]
  rcases planned with h | h <;> simp [h]

end Flow

section FlowExec

variable {s : State} {e : Eng} {w : DWord} {i : VInfo} (ready : VeReady s.d e w i)
include ready

/-- R159: a loop nests, or its body is skipped. -/
theorem exec_loop (named : vOp w = 0x58) (room : (pair s.d e.val).ve.loops.length < 2)
    (nested : ∀ l ∈ (pair s.d e.val).ve.loops.head?, vePlace s.d e + 1 + fld w 31 22 ≤ l.stop) :
    let p := pair s.d e.val
    let pc := vePlace s.d e
    let count := if vMod w = 0 then fld w 21 0 else (scalar p (vSA w)).toNat
    exec (.loop e) s = becomes s (veAfter s.d e w i
      (if count = 0 then p else { p with ve := { p.ve with loops := ⟨pc + 1, pc + 1 + fld w 31 22, count⟩ :: p.ve.loops } })
      (if count = 0 then pc + 1 + fld w 31 22 else pc + 1)) := by
  intro p pc count
  have effect := loopEff_nests (veTime s.d e w i) room nested
  by_cases skips : count = 0
  · rw [if_pos skips, if_pos skips]
    have issues := veIssue_issues ready named (effect.trans (if_pos skips))
    exact ready.runs (issues.trans (modPair_congr rfl)) (ready.calm_veAfter ..)
  · rw [if_neg skips, if_neg skips]
    exact issue_modPair ready named (effect.trans (if_neg skips))

/-- The command of an instruction that changes its pair and sends requests to queues. -/
theorem issue_requests {op : Nat} (named : vOp w = op) {eff : VEffect} {g : Pair → Pair} {next : Nat} {pops : List PopReq} {pushes : List PushReq}
    (effect : eff s.d e.val w (vePlace s.d e) (veTime s.d e w i) = .ok { modPair s.d e.val g with popReqs := pops, pushReqs := pushes } next) :
    runPair e (fun d => veIssue d e.val op eff) s =
      becomes s { veAfter s.d e w i (g (pair s.d e.val)) next with popReqs := pops, pushReqs := pushes } := by
  refine ready.runs ((veIssue_issues ready named effect).trans ?_) (ready.1.2.of_eq ⟨rfl, rfl⟩ rfl)
  simp only [modPair, Tbl.modify_modify, veAfter]
  rfl

end FlowExec

/-- R159 to R161. -/
theorem veProgramFlow : Claim.VeProgramFlow := by
  intro e s w i ready
  refine ⟨exec_loop ready, fun named => ?_, fun named => ?_, fun named => ?_, fun named planned => ?_⟩
  · exact issue_requests ready named (eff := popqEff) (g := fun p => { p with ve := { p.ve with popTo := some (vSD w, vePlace s.d e) } }) rfl
  · exact issue_requests ready named (eff := pushqEff) (g := fun p => { p with ve := { p.ve with pushing := true } }) rfl
  · exact issue_modPair ready named (eff := groupEff) rfl
  · exact issue_modPair ready named (haltEff_closes _ planned)

/-- R162. -/
theorem veGroupCompletes : Claim.VeGroupCompletes := by
  intro e s c r awake there closers arrived
  refine runPair_modPair e _ s _ awake there ?_
  simp only [veGroupCompletion, closers, arrived, Bool.false_eq_true, if_false, modVe, gt_iff_lt, Nat.sub_pos_iff_lt, inc]

end Sys2Proof.Machine

namespace Sys2Proof.Proofs

open Sys2Proof.Machine

/-- Settles O5: a loop changes its pair, POPQ and PUSHQ their pair and the requests, GROUP and HALT the groups of their VE, and a completion takes the oldest. -/
theorem veProgramRuns : Obligations.VeProgramRuns := ⟨veProgramFlow, veGroupCompletes⟩

end Sys2Proof.Proofs

namespace Sys2Proof.Machine

/-! ### START, ABORT and TASK_SEED (R164 to R166) -/

@[simp] theorem ve_modVe (d : Dev) (e : Nat) (f : Ve → Ve) : (pair (modVe d e f) e).ve = f (pair d e).ve := by simp [modVe]

@[simp] theorem scalars_modVe (d : Dev) (e : Nat) (f : Ve → Ve) : (pair (modVe d e f) e).scalars = (pair d e).scalars := by simp [modVe]
@[simp] theorem seq_modVe (d : Dev) (e : Nat) (f : Ve → Ve) : (pair (modVe d e f) e).seq = (pair d e).seq := by simp [modVe]

theorem modVe_modVe (d : Dev) (e : Nat) (f g : Ve → Ve) : modVe (modVe d e f) e g = modVe d e (fun x => g (f x)) := modPair_modPair ..

/-- The state of a program that `START` begins: the registers of the VE stand, and all else begins anew (R165). -/
def startedVe (d : Dev) (x : Ve) (v : DWord) : Ve := {
  cfg := accWrite veRw 0 x.cfg v, run := true, refuseSc := x.refuseSc, refused := x.refused, halted := x.halted
  cfgErr := x.cfgErr, xlimit := x.xlimit, beat0 := x.beat0, seed := x.seed, overrunCnt := x.overrunCnt
  base := fld (accWrite veRw 0 x.cfg v) 17 0, issueMin := d.eclk + 32, done := d.eclk + 32
  visible := d.eclk + 32, gStart := x.beat0.toNat }

/-- What `ABORT` leaves of a running program (R166). -/
def abortedVe (x : Ve) (v : DWord) : Ve := { x with cfg := accWrite veRw 0 x.cfg v, run := false, pushing := false }

section Control

variable {d : Dev} {e : Nat} (v : DWord) (there : present d e = true)
include there

theorem veStart_stopped (stopped : (pair d e).ve.run = false) :
    veStart d e v = modVe (dropUnits d (· == UnitId.ve e)) e (fun x => startedVe d x v) := by
  have commutes (f : Ve → Ve) : dropUnits (modVe d e f) (· == UnitId.ve e) = modVe (dropUnits d (· == UnitId.ve e)) e f := rfl
  have stands : (pair (dropUnits d (· == UnitId.ve e)) e).ve = (pair d e).ve := rfl
  simp only [veStart, there, ve_modVe, stopped, commutes, modVe_modVe, stands, Bool.not_true, Bool.false_eq_true, if_false]
  exact modPair_congr rfl

theorem veStart_running (running : (pair d e).ve.run = true) :
    veStart d e v = modVe d e (fun x => { x with cfg := accWrite veRw 0 x.cfg v, cfgErr := true }) := by
  simp [veStart, there, running, modVe_modVe]

theorem veAbort_running (running : (pair d e).ve.run = true) :
    veAbort d e v = { modVe d e (fun x => abortedVe x v) with pushReqs := d.pushReqs.filter (fun r => r.unit != .ve e) } := by
  simp only [veAbort, there, running, ve_modVe, veStop, modVe_modVe, Bool.not_true, Bool.false_eq_true, if_false, if_true]
  rfl

theorem seedWrite_stopped (stopped : (pair d e).ve.run = false) : seedWrite d e v = modVe d e (fun x => { x with seed := v }) := by
  simp only [seedWrite, there, Bool.not_true, Bool.false_eq_true, if_false]
  exact modPair_congr (by simp [stopped])

theorem seedWrite_running (running : (pair d e).ve.run = true) : seedWrite d e v = modVe d e (fun x => { x with cfgErr := true }) := by
  simp only [seedWrite, there, Bool.not_true, Bool.false_eq_true, if_false]
  exact modPair_congr (by simp [running])

end Control

/-- R164 to R166. -/
theorem veControl : Claim.VeControl := by
  intro e s v awake there x
  refine ⟨fun stopped => ?_, fun running => ?_, fun running => ?_, fun stopped => ?_, fun running => ?_⟩
  · refine ⟨_, runPair_becomes awake there (veStart_stopped v there stopped) (awake.2.of_eq ⟨rfl, rfl⟩ rfl), ve_modVe .., ?_, ?_, rfl, fun j other => ?_⟩
    · exact scalars_modVe ..
    · exact seq_modVe ..
    · exact pair_modPair_other _ _ _ _ other
  · exact runPair_becomes awake there ((veStart_running v there running).trans (modPair_congr rfl)) (awake.2.modPair ..)
  · have left : (pair (modVe s.d e.val fun x => abortedVe x v) e.val).ve = abortedVe x v := ve_modVe ..
    have others (j : Nat) (other : j ≠ e.val) : pair (modVe s.d e.val fun x => abortedVe x v) j = pair s.d j := pair_modPair_other _ _ _ _ other
    exact ⟨_, runPair_becomes awake there (veAbort_running v there running) (awake.2.of_eq ⟨rfl, rfl⟩ rfl), congrArg Ve.run left, (congrArg Ve.v left).trans rfl,
      (congrArg Ve.xacc left).trans rfl, (congrArg Ve.popTo left).trans rfl, rfl, rfl, rfl, rfl, others⟩
  · exact runPair_becomes awake there (seedWrite_stopped v there stopped) (awake.2.modPair ..)
  · exact runPair_becomes awake there (seedWrite_running v there running) (awake.2.modPair ..)

/-! ### Refusals (R163) -/

/-- The device after the refusal of the next instruction, before firmware ends the task. -/
def refusedVe (d : Dev) (e : Nat) (c : Sc) : Dev :=
  modPair d e (fun p => { p with ve := { p.ve with refused := true, refuseSc := c.code, pc := p.ve.pcNext, run := false } })

theorem veRefuse_next (d : Dev) (e : Nat) (c : Sc) :
    veRefuse d e (pair d e).ve.pcNext c false = taskEnding (refusedVe d e c) (pairKennel d e) c := by
  have same : modVe d e (fun x => { x with refused := true, refuseSc := c.code, pc := (pair d e).ve.pcNext, xlimit := x.xlimit || false, run := false })
      = refusedVe d e c := modPair_congr (by simp)
  rw [veRefuse, same]
  rfl

/-- An instruction outside the tile store or without a row is refused, whichever opcode the command names. -/
theorem veIssue_unfit {d : Dev} {e : Nat} (op : Nat) (eff : VEffect) {c : Sc} (there : present d e = true) (runs : (pair d e).ve.run = true)
    (free : veHeld d (pair d e).ve = false)
    (unfit : veFetchFits (pair d e).ve = false ∧ c = .range
      ∨ veFetchFits (pair d e).ve = true ∧ vInfo (veFetch d e) = none ∧ c = .format) :
    veIssue d e op eff = veRefuse d e (pair d e).ve.pcNext c false := by
  rcases unfit with ⟨outside, rfl⟩ | ⟨fits, unknown, rfl⟩
  · simp [veIssue, there, runs, free, outside]
  · simp [veIssue, there, runs, free, fits, unknown]

/-- R163. -/
theorem veRefusal : Claim.VeRefusal := by
  intro e s op eff c awake there runs free unfit d
  have refuses : veIssue s.d e.val op eff = taskEnding d (pairKennel s.d e.val) c :=
    (veIssue_unfit op eff there runs free unfit).trans (veRefuse_next s.d e.val c)
  refine ⟨?_, fun idle => ?_⟩
  · rw [runPair_settles e _ s awake there, refuses]
  · have nothing : taskEnding d (pairKennel s.d e.val) c = d := if_neg (Bool.eq_false_iff.mp idle)
    rw [nothing]
    exact settle_calm d (awake.2.modPair ..)

end Sys2Proof.Machine

namespace Sys2Proof.Proofs

open Sys2Proof.Machine

/-- Settles O6: `START`, `ABORT` and `TASK_SEED` change the VE of their pair and its requests, and a refusal is one change of the VE and the report of the task's end. -/
theorem veStartsAndRefuses : Obligations.VeStartsAndRefuses := ⟨veControl, veRefusal⟩

end Sys2Proof.Proofs

namespace Sys2Proof.Machine

/-! ### Commands in their turn (R347 to R349) -/

theorem fld_lt {n : Nat} (w : BitVec n) (hi lo : Nat) : fld w hi lo < 2 ^ (hi + 1 - lo) := Nat.mod_lt _ (Nat.two_pow_pos _)

/-- A check whose fault is absent refuses nothing. -/
theorem check_none {fault : Bool} {c : Sc} (absent : fault = false) : check fault c = none := by rw [absent]; rfl

/-- Checks whose faults are all absent refuse nothing. -/
theorem firstSome_checks_none (checks : List (Bool × Sc)) (absent : ∀ c ∈ checks, c.1 = false) : firstSome checks (fun c => check c.1 c.2) = none := by
  induction checks with
  | nil => rfl
  | cons c r ih =>
    obtain ⟨first, rest⟩ := List.forall_mem_cons.mp absent
    rw [firstSome, check_none first, ih rest]

/-- A request in its turn has the command's code. -/
theorem inTurn_cmd {d : Dev} {m code : Nat} {x : Mbx} {r : Req} (turn : inTurn d m code = some (x, r)) : r.cmd = code := by
  unfold inTurn at turn
  grind

/-- The reply tells the hosts alone. -/
theorem Calm.finish {d : Dev} (calm : Calm d) (m : Nat) (c : Sc) (a b e : DWord) : Calm (finish d m c a b e) :=
  Calm.host (d := { d with begun := d.begun.filter (· != m) }) (calm.of_eq ⟨rfl, rfl⟩ rfl) (finish_frame d m c a b e)

/-- A served command of a mailbox's own kennel, in a device state that allows it, whose own checks pass: its effect and its reply. -/
theorem served_answers {s : State} {m : MbxId} {code : Nat} {x : Mbx} {r : Req} {row : Cmd} {cmd : Scp} {complete : Bool} {d : Dev} {sc : Sc}
    {r0 r1 r2 : DWord} (served : Served s m code x r) (listed : cmdOf code x.version = some row) (own : row.target = false)
    (allowed : s.d.dstate ∈ row.states) (arrived : complete = true) (field : cmd.field s.d ⟨m.toNat, x.kennel, x, r⟩ = none)
    (late : cmd.late s.d ⟨m.toNat, x.kennel, x, r⟩ = none) (act : cmd.act s.d ⟨m.toNat, x.kennel, x, r⟩ = ⟨d, sc, r0, r1, r2⟩) (calm : Calm d) :
    run (fun d => scp d m.toNat code complete cmd) s = becomes s (finish d m.toNat sc r0 r1 r2) := by
  obtain ⟨awake, turn⟩ := served
  have acts : actsOn code x r = x.kennel := by simp [actsOn, listed, own]
  have target : targetBad code x r = false := by simp [targetBad, listed, own]
  have state : stateOk s.d x r = true := by simp [stateOk, inTurn_cmd turn, listed, allowed]
  have passes : scpCheck s.d code complete cmd ⟨m.toNat, x.kennel, x, r⟩ = none := by
    simp [scpCheck, firstSome, check, arrived, target, field, state, late]
  refine run_becomes awake ?_ (calm.finish ..)
  simp only [scp, turn, acts, passes, act]

/-! ### Queue commands (R184, R189, R364) -/

/-- A queue that has stored biscuits behind those that it had. -/
def storedHq (x : Hq) (bs : List DWord) : Hq := { x with items := x.items ++ bs, pushCnt := x.pushCnt + BitVec.ofNat 32 bs.length }

theorem storedHq_cons (x : Hq) (b : DWord) (bs : List DWord) : storedHq (storedHq x [b]) bs = storedHq x (b :: bs) := by
  simp [storedHq, BitVec.ofNat_add, BitVec.add_assoc, BitVec.add_comm]

section PushAll

variable {d : Dev} {q k : Nat} (allows : hqAllows (hq d q) k = true) (waiters : (hq d q).waiters = [])
include allows waiters

/-- While there is room, the first biscuit is stored, and the rest follow it. -/
theorem pushAll_first (b : DWord) (bs : List DWord) (n : Nat) (room : (hq d q).items.length < (hq d q).depth) :
    pushAll d q k (b :: bs) n = pushAll (modHq d q (storedHq · [b])) q k bs (n + 1) := by
  rw [pushAll, qPush_stores b d.eclk allows waiters room]
  rfl

/-- Biscuits for which there is room are stored one after another. -/
theorem pushAll_stores (b : DWord) (bs : List DWord) (n : Nat) (room : (hq d q).items.length + (bs.length + 1) ≤ (hq d q).depth) :
    pushAll d q k (b :: bs) n = (modHq d q (storedHq · (b :: bs)), n + (bs.length + 1)) := by
  induction bs generalizing d b n with
  | nil => exact pushAll_first allows waiters b [] n (by simpa using room)
  | cons c r ih =>
    obtain ⟨d₁, stored⟩ : ∃ d₁, d₁ = modHq d q (storedHq · [b]) := ⟨_, rfl⟩
    have queue : hq d₁ q = storedHq (hq d q) [b] := stored ▸ hq_modHq ..
    have left : (hq d₁ q).items.length + (r.length + 1) ≤ (hq d₁ q).depth := by
      have grown : (hq d₁ q).items.length = (hq d q).items.length + 1 := by rw [queue]; exact List.length_append
      have same : (hq d₁ q).depth = (hq d q).depth := by rw [queue]; rfl
      simp only [List.length_cons] at room
      omega
    rw [pushAll_first allows waiters b _ n (by omega), ← stored, ih (queue ▸ allows) (queue ▸ waiters) c (n + 1) left, stored, modHq_modHq]
    simp only [storedHq_cons, List.length_cons]
    congr 1
    omega

/-- Where biscuits are more than the room, as many as there is room for are stored, and the queue counts as met full. -/
theorem pushAll_meets_full (bs : List DWord) (n : Nat) (more : (hq d q).depth - (hq d q).items.length < bs.length) :
    ∃ d', pushAll d q k bs n = (d', n + ((hq d q).depth - (hq d q).items.length))
      ∧ (hq d' q).items = (hq d q).items ++ bs.take ((hq d q).depth - (hq d q).items.length) ∧ (hq d' q).fullSeen = true
      ∧ (∀ j, j ≠ q → hq d' j = hq d j) ∧ d' = { d with hqs := d'.hqs } := by
  induction bs generalizing d n with
  | nil => exact absurd more (Nat.not_lt_zero _)
  | cons b r ih =>
    by_cases full : (hq d q).depth ≤ (hq d q).items.length
    · have meets := qPush_full b d.eclk allows waiters full
      refine ⟨modHq d q (fun x => { x with fullSeen := true, fullCnt := inc x.fullCnt }), ?_, ?_, ?_, fun j other => hq_modHq_other _ _ _ _ other, rfl⟩
      · simp only [pushAll, meets, Nat.sub_eq_zero_of_le full, Nat.add_zero]
      · simp [Nat.sub_eq_zero_of_le full]
      · simp
    · obtain ⟨d₁, stored⟩ : ∃ d₁, d₁ = modHq d q (storedHq · [b]) := ⟨_, rfl⟩
      have queue : hq d₁ q = storedHq (hq d q) [b] := stored ▸ hq_modHq ..
      have items : (hq d₁ q).items = (hq d q).items ++ [b] := by rw [queue]; rfl
      have room : (hq d q).depth - (hq d q).items.length = (hq d₁ q).depth - (hq d₁ q).items.length + 1 := by
        have same : (hq d₁ q).depth = (hq d q).depth := by rw [queue]; rfl
        rw [same, items, List.length_append, List.length_singleton]
        omega
      have left : (hq d₁ q).depth - (hq d₁ q).items.length < r.length := by
        simp only [List.length_cons] at more
        omega
      obtain ⟨d', pushed, stands, seen, others, frame⟩ := ih (d := d₁) (queue ▸ allows) (queue ▸ waiters) (n + 1) left
      refine ⟨d', ?_, ?_, seen, fun j other => ?_, ?_⟩
      · rw [pushAll_first allows waiters b r n (by omega), ← stored, pushed, room]
        congr 1
        omega
      · rw [stands, room, List.take_succ_cons, List.append_cons, ← items]
      · rw [others j other, stored, hq_modHq_other _ _ _ _ other]
      · rw [frame, stored]
        rfl

end PushAll

/-- HQ_PUSH answers OK where every biscuit went in, and otherwise how many did. -/
theorem hqPushCmd_act {d d' : Dev} {z : Ctx} {n : Nat}
    (pushed : pushAll d (queueArg z) z.k ([z.r.p1, z.r.p2, z.r.p3, z.r.p4, z.r.p5].take (pushCount z)) 0 = (d', n)) :
    hqPushCmd.act d z = if n = pushCount z then { d := d' } else { d := d', sc := .busy, r0 := BitVec.ofNat 64 n } := by
  simp only [hqPushCmd, pushed]

/-- R184, R189, R364. -/
theorem queueCommands : Claim.QueueCommands := by
  intro m s x r k q n bs
  refine ⟨fun served state passes => ?_, fun served state allows any few waiters => ?_, fun served state allows idle => ?_⟩
  · exact served_answers (cmd := hqSetCmd) served rfl rfl state rfl (congrArg early passes) passes rfl (served.1.2.modHq ..)
  · intro room
    have given : bs.length = n := by simp [bs]; omega
    have field : hqPushCmd.field s.d ⟨m.toNat, x.kennel, x, r⟩ = none := by
      have admitted : check (!hqAllows (hq s.d q) k) .denied = none := check_none (congrArg Bool.not allows)
      have counted : check (n == 0 || decide (n > 5)) .range = none := check_none (by simp; omega)
      exact (congrArg₂ Option.or admitted counted).trans rfl
    have answers {d : Dev} {sc : Sc} {r0 : DWord} (act : hqPushCmd.act s.d ⟨m.toNat, x.kennel, x, r⟩ = ⟨d, sc, r0, 0, 0⟩) (calm : Calm d) :
        Answers s (.hqPush m) m d sc r0 0 0 := served_answers (cmd := hqPushCmd) served rfl rfl state rfl field rfl act calm
    refine ⟨fun fits => ?_, fun more => ?_⟩
    · obtain ⟨b, r', cons⟩ := List.exists_cons_of_length_pos (given ▸ any)
      have counts : r'.length + 1 = n := (congrArg List.length cons).symm.trans given
      have pushed : pushAll s.d q k bs 0 = (modHq s.d q (storedHq · bs), n) := by
        rw [cons, pushAll_stores allows waiters b r' 0 (by omega), counts, Nat.zero_add]
      have stores : modHq s.d q (storedHq · bs) = modHq s.d q (fun y => { y with items := y.items ++ bs, pushCnt := y.pushCnt + BitVec.ofNat 32 n }) := by
        simp only [storedHq, given]
      exact answers (stores ▸ (hqPushCmd_act pushed).trans (if_pos rfl)) (served.1.2.modHq ..)
    · obtain ⟨d', pushed, stands, seen, others, frame⟩ := pushAll_meets_full allows waiters bs 0 (given ▸ more)
      refine ⟨d', answers ?_ ?_, stands, seen, others, frame⟩
      · rw [hqPushCmd_act pushed, if_neg, Nat.zero_add]
        exact (Nat.zero_add _ ▸ more.ne)
      · rw [frame]
        exact served.1.2.of_eq ⟨rfl, rfl⟩ rfl
  · exact served_answers (cmd := hqFlushCmd) served rfl rfl state rfl (check_none (congrArg Bool.not allows)) (check_none idle) rfl (served.1.2.modHq ..)

/-! ### Tree commands (R270, R277) -/

section EachPort

variable (g : Nat → Port → Port) (ps : List Nat) (d : Dev)

/-- Changing ports one after another changes the table of ports alone. -/
theorem each_modPort : each d ps (fun d p => modPort d p (g p)) = { d with ports := ps.foldl (fun t p => Tbl.modify {} t p (g p)) d.ports } := by
  induction ps generalizing d with
  | nil => rfl
  | cons p r ih => exact (ih (modPort d p (g p))).trans rfl

/-- Each port of the list changes once, and no other does. -/
theorem port_each_modPort {ps : List Nat} (distinct : ps.Nodup) (p : Nat) :
    port (each d ps (fun d p => modPort d p (g p))) p = if p ∈ ps then g p (port d p) else port d p := by
  rw [each_modPort]
  exact Tbl.get_foldl_modify _ _ distinct _ _

end EachPort

theorem nodup_portsOf (m : Nat) : (portsOf m).Nodup := List.nodup_range.filter _

theorem mem_portsOf {m p : Nat} : p ∈ portsOf m ↔ p < 16 ∧ Nat.testBit m p = true := by simp [portsOf]

/-- The number of a tree and its window leave the code of the message alone (Table 8-5). -/
theorem isTcred_tcredFlit {t n : Nat} (tree : t < 2 ^ 12) (credits : n < 2 ^ 7) : isTcred (tcredFlit t n) = true := by
  have code : fld (tcredFlit t n).tsf 63 56 = 3 := by
    have kind : fld (put 64 56 3) 63 56 = 3 := by decide
    have names : fld (put 64 44 t) 63 56 = 0 := fld_put_below tree (by decide)
    have counts : fld (put 64 37 n) 63 56 = 0 := fld_put_below (credits.trans (by decide)) (by decide)
    rw [tcredFlit, fld_or, fld_or, kind, names, counts]
    rfl
  simpa [isTcred] using ⟨rfl, code⟩

/-- A tree's entry, its adder and the ports may change, and no other tree. -/
structure TreeOnly (d d' : Dev) (tn : Nat) : Prop where
  others : ∀ j, j ≠ tn → tree d' j = tree d j
  frame : d' = { d with trees := d'.trees, adders := d'.adders, ports := d'.ports }

theorem TreeOnly.trans {a b c : Dev} {tn : Nat} (h : TreeOnly a b tn) (g : TreeOnly b c tn) : TreeOnly a c tn :=
  ⟨fun j other => (g.others j other).trans (h.others j other), by rw [g.frame, h.frame]⟩

theorem TreeOnly.calm {d d' : Dev} {tn : Nat} (h : TreeOnly d d' tn) (calm : Calm d) : Calm d' :=
  calm.of_eq ⟨by rw [h.frame], by rw [h.frame]⟩ (by rw [h.frame])

theorem treeOnly_modTree (d : Dev) (tn : Nat) (f : Tree → Tree) : TreeOnly d (modTree d tn f) tn :=
  ⟨fun _ other => tree_modTree_other _ _ _ _ other, rfl⟩

theorem treeOnly_setAdder (d : Dev) (tn p : Nat) (es : List AEntry) : TreeOnly d (setAdder d p es) tn := ⟨fun _ _ => rfl, rfl⟩

theorem treeOnly_each_modPort (d : Dev) (tn : Nat) (g : Nat → Port → Port) (ps : List Nat) :
    TreeOnly d (each d ps (fun d p => modPort d p (g p))) tn := by
  rw [each_modPort]
  exact ⟨fun _ _ => rfl, rfl⟩

/-- A change of ports leaves the trees. -/
theorem tree_each_modPort (d : Dev) (g : Nat → Port → Port) (ps : List Nat) (j : Nat) : tree (each d ps (fun d p => modPort d p (g p))) j = tree d j := by
  rw [each_modPort]
  rfl

section Clear

variable (d : Dev) (tn : Nat)

/-- A port's RED flit that waits for its RED_X is forgotten when its tree is cleared (R288). -/
def clearEsc (tn : Nat) (x : Port) : Port := if x.esc.any (fun w => fld w.flit.tsf 63 52 == tn) then { x with esc := none } else x

theorem clearEsc_link (x : Port) : (clearEsc tn x).link = x.link := by
  unfold clearEsc
  split <;> rfl

theorem treeOnly_clearTree : TreeOnly d (clearTree d tn) tn :=
  ((treeOnly_each_modPort d tn (fun _ => clearEsc tn) (List.range 16)).trans (treeOnly_setAdder ..)).trans (treeOnly_modTree ..)

/-- Clearing a tree changes no link. -/
theorem clearTree_link (p : Nat) : (port (clearTree d tn) p).link = (port d p).link := by
  have ports : (clearTree d tn).ports = (each d (List.range 16) fun d p => modPort d p (clearEsc tn)).ports := by
    simp only [clearTree, modTree_ports, setAdder_ports]
    rfl
  have cleared : port (clearTree d tn) p = if p ∈ List.range 16 then clearEsc tn (port d p) else port d p := by
    rw [← port_each_modPort (fun _ => clearEsc tn) d List.nodup_range p, port, ports, port]
  rw [cleared]
  split
  · exact clearEsc_link ..
  · rfl

end Clear

section Enable

/-- A flit at the end of the queue of the credits and the link messages. -/
def queued (f : Flit) (x : Port) : Port := { x with link := { x.link with q0 := x.link.q0 ++ [f] } }

/-- A tree credit waits in its port's queue until it can be sent (R277). -/
theorem sendFlit_tcred (d : Dev) (p : Nat) {t n : Nat} (tree : t < 2 ^ 12) (credits : n < 2 ^ 7) :
    sendFlit d p (tcredFlit t n) = modPort d p (queued (tcredFlit t n)) := by
  have ready : ((tcredFlit t n).tc != 0 || isTcred (tcredFlit t n)) = true := by rw [isTcred_tcredFlit tree credits, Bool.or_true]
  exact if_pos (if_pos ready)

variable (d : Dev) {tn : Nat} (entry : BitVec 128) (number : tn < 2 ^ 12)

/-- The device with a tree's entry enabled, before its credits are sent. -/
def enabledTree (d : Dev) (tn : Nat) (entry : BitVec 128) : Dev :=
  modTree (clearTree d tn) tn (fun t => { t with
    entry := entry, stepV := false, closing := false
    localCredit := (List.range (Tree.localN { entry := entry })).foldl (fun c i => Tbl.set 0 c i (Tree.win { entry := entry })) [] })

/-- A multicast tree is enabled without credits, a reduction tree with them. -/
theorem enableTree_eq : enableTree d tn entry = if Tree.mcast { entry := entry } then enabledTree d tn entry
    else each (enabledTree d tn entry) (portsOf (Tree.down { entry := entry }))
      (fun d p => sendFlit d p (tcredFlit tn (Tree.win { entry := entry }))) := by
  simp only [enableTree, tree_modTree, modTree_modTree]
  rfl

theorem treeOnly_enabledTree : TreeOnly d (enabledTree d tn entry) tn := (treeOnly_clearTree d tn).trans (treeOnly_modTree ..)

theorem enabledTree_entry : (tree (enabledTree d tn entry) tn).entry = entry := by simp [enabledTree]

include number

/-- Enabling a reduction tree sends its window of credits to each port of its mask, and to no other. -/
theorem enableTree_sends (reduction : Tree.mcast { entry := entry } = false) :
    enableTree d tn entry = each (enabledTree d tn entry) (portsOf (Tree.down { entry := entry }))
      (fun d p => modPort d p (queued (tcredFlit tn (Tree.win { entry := entry })))) := by
  have credits : Tree.win { entry := entry } < 2 ^ 7 := (fld_lt entry 86 81).trans (by decide)
  simp only [enableTree_eq, reduction, Bool.false_eq_true, if_false, sendFlit_tcred _ _ number credits]

/-- Enabling a tree changes it to the entry, and no other tree. -/
theorem treeOnly_enableTree : TreeOnly d (enableTree d tn entry) tn ∧ (tree (enableTree d tn entry) tn).entry = entry := by
  have enabled := treeOnly_enabledTree d (tn := tn) entry
  cases kind : Tree.mcast { entry := entry } with
  | true =>
    rw [enableTree_eq, kind, if_pos rfl]
    exact ⟨enabled, enabledTree_entry d entry⟩
  | false =>
    rw [enableTree_sends d entry number kind]
    refine ⟨enabled.trans (treeOnly_each_modPort _ _ (fun _ => queued _) _), ?_⟩
    rw [tree_each_modPort _ (fun _ => queued _), enabledTree_entry]

/-- Each port of the mask has one flit more to send. -/
theorem enableTree_credits (reduction : Tree.mcast { entry := entry } = false) {p : Nat} (inside : p < 16)
    (named : Nat.testBit (Tree.down { entry := entry }) p = true) :
    (port (enableTree d tn entry) p).link.q0 = (port d p).link.q0 ++ [tcredFlit tn (Tree.win { entry := entry })] := by
  have kept : (port (enabledTree d tn entry) p).link = (port d p).link := by
    rw [port, enabledTree, modTree_ports]
    exact clearTree_link d tn p
  rw [enableTree_sends d entry number reduction, port_each_modPort (fun _ => queued _) _ (nodup_portsOf _), if_pos (mem_portsOf.mpr ⟨inside, named⟩), queued,
    kept]

end Enable

/-- Writing an entry, enabled or not, changes its tree to that entry. -/
theorem treeOnly_writeTree (d : Dev) {tn : Nat} (entry : BitVec 128) (number : tn < 2 ^ 12) :
    TreeOnly d (writeTree d tn entry) tn ∧ (tree (writeTree d tn entry) tn).entry = entry := by
  unfold writeTree
  split
  · exact treeOnly_enableTree d entry number
  · exact ⟨(treeOnly_clearTree d tn).trans (treeOnly_modTree ..), by simp⟩

/-- R137, R192, R270, R277. -/
theorem tableCommands : Claim.TableCommands := by
  intro m s x r state k e
  refine ⟨fun served passes => ?_, fun served passes => ?_, fun served => ?_⟩
  · exact served_answers (cmd := litterSetCmd) served rfl rfl state rfl (congrArg early passes) passes rfl (served.1.2.of_eq ⟨rfl, rfl⟩ rfl)
  · have number : fld r.p0 11 0 < 2 ^ 12 := fld_lt r.p0 11 0
    obtain ⟨only, entry⟩ := treeOnly_writeTree s.d e number
    have field : treeSetCmd.field s.d ⟨m.toNat, x.kennel, x, r⟩ = none := by
      have sound : treeCheck s.d x.kennel (fld r.p0 11 0) (r.p2 ++ r.p1) = none := passes
      simp [treeSetCmd, entryArg, sound, early]
    refine ⟨writeTree s.d (fld r.p0 11 0) e, served_answers (cmd := treeSetCmd) served rfl rfl state rfl field passes rfl (only.calm served.1.2), entry,
      only.others, fun on kind p inside named => ?_, only.frame⟩
    have reduction : Tree.mcast { entry := e } = false := (congrArg (bit · 120) entry).symm.trans kind
    have mask : Tree.down (tree (writeTree s.d (fld r.p0 11 0) e) (fld r.p0 11 0)) = Tree.down { entry := e } := congrArg (fld · 114 99) entry
    have window : Tree.win (tree (writeTree s.d (fld r.p0 11 0) e) (fld r.p0 11 0)) = Tree.win { entry := e } := congrArg (fld · 86 81) entry
    have enables : writeTree s.d (fld r.p0 11 0) e = enableTree s.d (fld r.p0 11 0) e := if_pos on
    rw [mask] at named
    rw [window, enables]
    exact enableTree_credits s.d e number reduction inside named
  · intro u there own idle still
    have field : scalarSetCmd.field s.d ⟨m.toNat, x.kennel, x, r⟩ = none := by
      have named : check (!present s.d u) .range = none := check_none (congrArg Bool.not there)
      have owned : check (pairKennel s.d u != k) .denied = none := check_none (bne_eq_false_iff_eq.mpr own)
      exact (congrArg₂ Option.or named owned).trans rfl
    have late : scalarSetCmd.late s.d ⟨m.toNat, x.kennel, x, r⟩ = none := check_none (congrArg₂ Bool.or idle still)
    exact served_answers (cmd := scalarSetCmd) served rfl rfl state rfl field late rfl (served.1.2.modPair ..)

/-! ### Slot commands (R171 to R176) -/

theorem calm_modSlot {d : Dev} (calm : Calm d) (n i : Nat) (f : SSlot → SSlot) : Calm (modSlot d n i f) := calm.of_eq ⟨rfl, rfl⟩ rfl

theorem sslot_modSlot (d : Dev) (n i : Nat) (f : SSlot → SSlot) : sslot (modSlot d n i f) n i = f (sslot d n i) := by
  simp [sslot, se, modSlot, modSe]

theorem sslot_modSlot_other (d : Dev) {n i j l : Nat} (f : SSlot → SSlot) (other : (j, l) ≠ (n, i)) : sslot (modSlot d n i f) j l = sslot d j l := by
  unfold sslot se modSlot modSe
  by_cases engine : j = n
  · subst engine
    have slot : l ≠ i := fun same => other (by rw [same])
    rw [Tbl.get_modify_self, Tbl.get_modify_other _ _ _ _ _ slot]
  · rw [Tbl.get_modify_other _ _ _ _ _ engine]

section Arm

variable {d : Dev} {n i : Nat} (noShadow : (sslot d n i).shd = none)
include noShadow

/-- Without a shadow nothing moves into the active position. -/
theorem shadowMove_none : shadowMove d n i = d := by
  unfold shadowMove
  simp only
  split
  case h_1 _ held => rw [noShadow] at held; cases held
  case h_2 => rfl

/-- An empty slot takes the descriptor as its active one. -/
theorem emptySlot_arm (k : Nat) (x : Desc) (start : Nat) (empty : (sslot d n i).act = none) :
    arm d k n i x start = some (modSlot d n i (fun z => { z with
      gen := (z.gen + 1) % 2 ^ 16, act := some (activate x z.gen k start), lag := 0 }), (sslot d n i).gen) := by
  simp only [arm, shadowMove_none noShadow, empty]

/-- A slot with an active descriptor takes it as its shadow. -/
theorem activeSlot_arm (k : Nat) (x : Desc) (start : Nat) {a : Active} (active : (sslot d n i).act = some a) :
    arm d k n i x start = some (modSlot d n i (fun z => { z with gen := (z.gen + 1) % 2 ^ 16, shd := some (x, z.gen, k, 0) }), (sslot d n i).gen) := by
  simp only [arm, shadowMove_none noShadow, active, noShadow]

end Arm

/-- SLOT_ARM answers the generation of what it armed. -/
theorem slotArmCmd_act {p : Payload} {d d' : Dev} {z : Ctx} {g : Nat}
    (armed : arm d z.k (engArg z) (slotArg z) (descIn (payBytes z p)) z.r.p1.toNat = some (d', g)) :
    (slotArmCmd p).act d z = { d := d', r0 := BitVec.ofNat 64 g } := by
  simp only [slotArmCmd, armed]

/-- A shadow of the named generation is taken away. -/
theorem shadowSlot_disarm {d : Dev} {n i g : Nat} {z : Desc × Nat × Nat × Nat} (shadow : (sslot d n i).shd = some z) (named : z.2.1 = g) :
    disarm d n i g = (modSlot d n i (fun x => { x with shd := none }), true) := by
  simp only [disarm, shadow, named, if_true]

/-- SLOT_DISARM answers the status of the slot after it. -/
theorem slotDisarmCmd_act {d d' : Dev} {z : Ctx} (disarmed : disarm d (engArg z) (slotArg z) (fld z.r.p0 31 16) = (d', true)) :
    slotDisarmCmd.act d z = { d := d', r0 := slotStatus d' (engArg z) (slotArg z) } := by
  simp only [slotDisarmCmd, disarmed, if_true]

/-- R171, R173 to R176. -/
theorem slotCommands : Claim.SlotCommands := by
  intro m s x r pl state k n i y ds engine
  refine ⟨fun served arrived passes quota noShadow => ?_, fun dd g plan served shadow named => ?_⟩
  · have field : (slotArmCmd pl).field s.d ⟨m.toNat, x.kennel, x, r⟩ = none := by
      have inside : check (decide (n ≥ 80)) .range = none := check_none (decide_eq_false (by omega))
      exact (congrArg₂ Option.or inside passes).trans rfl
    have late : (slotArmCmd pl).late s.d ⟨m.toNat, x.kennel, x, r⟩ = none := by
      have free : (!slotHeld k y && !within (slotUse s.d k) 1 (kennel s.d k).quota.slots) = false := by simp [within, quota]
      have idle : armBusy (shadowMove s.d n i) n i = false := by
        rw [shadowMove_none noShadow, armBusy, noShadow]
        exact Bool.and_false _
      exact firstSome_checks_none _ (List.forall_mem_cons.mpr ⟨free, List.forall_mem_singleton.mpr idle⟩)
    have answers {d : Dev} {g : Nat} (armed : arm s.d k n i ds r.p1.toNat = some (d, g)) (calm : Calm d) :
        Answers s (.slotArm m pl) m d .ok (BitVec.ofNat 64 g) 0 0 :=
      served_answers (cmd := slotArmCmd pl) served rfl rfl state arrived field late (slotArmCmd_act armed) calm
    exact ⟨fun empty => answers (emptySlot_arm noShadow k ds _ empty) (calm_modSlot served.1.2 ..),
      fun a active => answers (activeSlot_arm noShadow k ds _ active) (calm_modSlot served.1.2 ..)⟩
  · have field : slotDisarmCmd.field s.d ⟨m.toNat, x.kennel, x, r⟩ = none := by
      have inside : check (decide (n ≥ 80)) .range = none := check_none (decide_eq_false (by omega))
      have own : slotHeld k y = true := by simp [slotHeld, shadow]
      have admitted : check (slotForeign k y) .denied = none := check_none (by simp [slotForeign, own])
      exact (congrArg₂ Option.or inside admitted).trans rfl
    have act := slotDisarmCmd_act (d := s.d) (z := ⟨m.toNat, x.kennel, x, r⟩) (shadowSlot_disarm shadow named.symm)
    refine ⟨_, _, served_answers (cmd := slotDisarmCmd) served rfl rfl state rfl field rfl act (calm_modSlot served.1.2 ..), ?_, ?_, rfl,
      fun j l other => sslot_modSlot_other _ _ other, rfl⟩
    · exact congrArg SSlot.shd (sslot_modSlot ..)
    · exact (congrArg SSlot.act (sslot_modSlot ..)).trans rfl

end Sys2Proof.Machine

namespace Sys2Proof.Proofs

open Sys2Proof.Machine

/-- Settles O43: a served command whose checks pass is its effect and its reply, and each effect changes the queue, entry, pair or slot that it names. -/
theorem tablesAndSlots : Obligations.TablesAndSlots := ⟨queueCommands, tableCommands, slotCommands⟩

end Sys2Proof.Proofs

namespace Sys2Proof.Machine

/-! ### What the operations of a stream slot change (chapter 6) -/

@[simp] theorem se_modSe (d : Dev) (n : Nat) (f : Se → Se) : se (modSe d n f) n = f (se d n) := Tbl.get_modify_self ..

theorem se_modSe_other (d : Dev) {n m : Nat} (f : Se → Se) (h : m ≠ n) : se (modSe d n f) m = se d m := Tbl.get_modify_other _ _ _ _ _ h

theorem modSe_modSe (d : Dev) (n : Nat) (f g : Se → Se) : modSe (modSe d n f) n g = modSe d n (fun x => g (f x)) := by
  simp only [modSe, Tbl.modify_modify]

theorem modSlot_modSlot (d : Dev) (n s : Nat) (f g : SSlot → SSlot) : modSlot (modSlot d n s f) n s g = modSlot d n s (fun x => g (f x)) := by
  simp only [modSlot, modSe_modSe, Tbl.modify_modify]

/-- A change of an engine that keeps its slots keeps every slot. -/
theorem sslot_modSe (d : Dev) {n : Nat} {f : Se → Se} (keeps : (f (se d n)).slots = (se d n).slots) (i j : Nat) : sslot (modSe d n f) i j = sslot d i j := by
  by_cases engine : i = n
  · subst engine
    rw [sslot, se_modSe, keeps, sslot]
  · rw [sslot, se_modSe_other d f engine, sslot]

/-- A change of an active descriptor. -/
theorem modAct_held {d : Dev} {n s : Nat} {a : Active} (held : (sslot d n s).act = some a) (f : Active → Active) :
    modAct d n s f = modSlot d n s (fun x => { x with act := some (f a) }) :=
  modSlot_congr (by rw [held]; rfl)

/-- A change of a repetition of an active descriptor. -/
theorem modRep_held {d : Dev} {n s : Nat} {a : Active} (held : (sslot d n s).act = some a) (m : Nat) (f : Rep → Rep) :
    modRep d n s m f = modSlot d n s (fun x => { x with act := some (withRep a m f) }) := modAct_held held _

/-- What releasing watch entries changes: tables of the M-dies, and the waits for entries. -/
theorem trimWatches_frame (d : Dev) (n s : Nat) : ∃ m w, trimWatches d n s = { d with mdies := m, watchQ := w } := by
  have keeps (d : Dev) (l : List Nat) (f : Nat → MDie → MDie) : ∃ m, each d l (fun d i => modMdie d i (f i)) = { d with mdies := m } := by
    induction l generalizing d with
    | nil => exact ⟨_, rfl⟩
    | cons x r ih =>
      obtain ⟨m, same⟩ := ih (modMdie d x (f x))
      exact ⟨m, same⟩
  obtain ⟨m, same⟩ := keeps { d with watchQ := d.watchQ.filter (fun z => !(z.2.1 == n && z.2.2.1 == s && !blockWaits (sslot d n s) z.2.2.2)) } (List.range 4) (fun _ x =>
    { x with watches := (x.watches.map (fun w => if (blocksHeld (sslot d n s)).contains w.block then w else { w with holders := w.holders.filter (· != (n, s)) })).filter (fun w => !w.holders.isEmpty) })
  exact ⟨m, _, same⟩

theorem ses_trimWatches (d : Dev) (n s : Nat) : (trimWatches d n s).ses = d.ses := by
  obtain ⟨m, w, same⟩ := trimWatches_frame d n s
  rw [same]

theorem sslot_trimWatches (d : Dev) (n s i j : Nat) : sslot (trimWatches d n s) i j = sslot d i j := by rw [sslot, se, ses_trimWatches, sslot, se]

theorem se_trimWatches (d : Dev) (n s m : Nat) : se (trimWatches d n s) m = se d m := by rw [se, ses_trimWatches, se]

end Sys2Proof.Machine

namespace Sys2Proof.Machine

/-- A table changed entry by entry. -/
theorem Tbl.get_mapAll {α : Type} [DecidableEq α] (d : α) (t : Tbl α) (f : Nat → α → α) (k : Nat) :
    Tbl.get d (Tbl.mapAll d t f) k = if k ∈ t.keys then f k (Tbl.get d t k) else d := by
  induction t with
  | nil => rfl
  | cons p r ih =>
    obtain ⟨j, v⟩ := p
    have unfolded : Tbl.mapAll d ((j, v) :: r) f = Tbl.set d (Tbl.mapAll d r f) j (f j v) := rfl
    rw [unfolded, Tbl.get_set, ih]
    by_cases here : k = j
    · subst here
      simp [Tbl.keys, Tbl.get]
    · have listed : k ∈ Tbl.keys ((j, v) :: r) ↔ k ∈ Tbl.keys r := by simp [Tbl.keys, here]
      simp only [here, if_false, listed, Tbl.get, Ne.symm here]

/-- Of an unlisted number a table reads its default. -/
theorem Tbl.get_unlisted {α : Type} (d : α) {t : Tbl α} {k : Nat} (absent : k ∉ t.keys) : Tbl.get d t k = d := by
  induction t with
  | nil => rfl
  | cons p r ih =>
    simp only [Tbl.keys, List.map_cons, List.mem_cons, not_or] at absent
    simp [Tbl.get, Ne.symm absent.1, ih absent.2]

/-! ### The end of a descriptor (R178, R180, R205) -/

/-- The completion record of Table 6-9. -/
def seRecordWord (d : Dev) (s : Nat) (a : Active) (sc : Sc) (at' : Nat) : BitVec 128 :=
  put 128 96 (timeAt d at' % 2 ^ 32) ||| put 128 72 (min a.overrun (2 ^ 24 - 1)) ||| put 128 56 (a.gen % 2 ^ 16) ||| put 128 48 sc.code
    ||| put 128 37 (a.repDone % 2 ^ 11) ||| put 128 32 s ||| put 128 21 (a.fallbacks % 2 ^ 11) ||| put 128 0 a.desc.tag

theorem Sc.code_lt (c : Sc) : c.code < 2 ^ 8 := by cases c <;> decide

theorem tag_lt (x : Desc) : x.tag < 2 ^ 11 := fld_lt x.w0 10 0

theorem seRecordWord_fields (d : Dev) {s : Nat} (a : Active) (sc : Sc) (at' : Nat) (slot : s < 2 ^ 5) :
    let w := seRecordWord d s a sc at'
    (fld w 10 0 = a.desc.tag ∧ fld w 31 21 = a.fallbacks % 2 ^ 11 ∧ fld w 36 32 = s ∧ fld w 47 37 = a.repDone % 2 ^ 11)
      ∧ fld w 55 48 = sc.code ∧ fld w 71 56 = a.gen % 2 ^ 16 ∧ fld w 95 72 = min a.overrun (2 ^ 24 - 1) ∧ fld w 127 96 = timeAt d at' % 2 ^ 32 := by
  have tag := tag_lt a.desc
  have code := sc.code_lt
  refine ⟨⟨?_, ?_, ?_, ?_⟩, ?_, ?_, ?_, ?_⟩ <;> simp only [seRecordWord, fld_or] <;>
    simp (disch := omega) only [fld_put_self, fld_put_below, fld_put_above, Nat.zero_or, Nat.or_zero]

/-- A descriptor's record is written and what its slot has under way is dropped. -/
def recordedSlot (d : Dev) (n s : Nat) (a : Active) (c : Sc) : Dev :=
  dropUnits (cancelReads (seRecord d n s a c d.eclk) n s (fun _ => true)) (· == UnitId.se n s)

/-- The device in which a descriptor has ended, before firmware ends its task. -/
def endedSlot (d : Dev) (n s : Nat) (a : Active) (c : Sc) : Dev := leaveActive (recordedSlot d n s a c) n s (planLast a)

theorem endDesc_held {d : Dev} {n s : Nat} {a : Active} (held : (sslot d n s).act = some a) (c : Sc) :
    endDesc d n s c = taskEnding (endedSlot d n s a c) a.kennel c := by
  simp only [endDesc, held, endedSlot, recordedSlot]

theorem se_seRecord (d : Dev) (n s : Nat) (a : Active) (c : Sc) (at' : Nat) :
    se (seRecord d n s a c at') n = { se d n with
      ring := Tbl.set 0 (se d n).ring ((se d n).doneCnt.toNat % 256) (seRecordWord d s a c at'), doneCnt := (se d n).doneCnt + 1 } := se_modSe ..

theorem se_recordedSlot (d : Dev) (n s : Nat) (a : Active) (c : Sc) : se (recordedSlot d n s a c) n = se (seRecord d n s a c d.eclk) n := rfl

/-- The position is empty, and the engine's count and records are as before. -/
theorem leaveActive_empties (d : Dev) (n s plan : Nat) :
    (sslot (leaveActive d n s plan) n s).act = none ∧ (se (leaveActive d n s plan) n).doneCnt = (se d n).doneCnt ∧ (se (leaveActive d n s plan) n).ring = (se d n).ring := by
  unfold leaveActive
  rw [sslot_trimWatches, se_trimWatches, sslot_modSlot, modSlot, se_modSe]
  exact ⟨rfl, rfl, rfl⟩

theorem leaveActive_frame (d : Dev) (n s plan : Nat) : ∃ ses m w, leaveActive d n s plan = { d with ses := ses, mdies := m, watchQ := w } := by
  obtain ⟨m, w, same⟩ := trimWatches_frame (modSlot d n s (fun x => { x with
    act := none, movePlan := plan, ahead := if x.shd.isSome then x.ahead else [], aheadStop := false })) n s
  exact ⟨_, m, w, same⟩

theorem dropUnits_items (d : Dev) (p : UnitId → Bool) (q : Nat) : (hq (dropUnits d p) q).items = (hq d q).items := by
  unfold hq dropUnits
  rw [Tbl.get_mapAll]
  split
  · rfl
  · rename_i absent
    exact congrArg Hq.items (Tbl.get_unlisted (α := Hq) {} absent).symm

theorem recordedSlot_frame (d : Dev) (n s : Nat) (a : Active) (c : Sc) : ∃ ses r h, recordedSlot d n s a c = { d with
      ses := ses, reads := r, hqs := h
      popReqs := d.popReqs.filter (fun r => !(r.unit == UnitId.se n s))
      pushReqs := d.pushReqs.filter (fun r => !(r.unit == UnitId.se n s))
      arrivals := d.arrivals.filter (fun r => !(r.unit == UnitId.se n s)) } ∧ ∀ q, (Tbl.get {} h q).items = (hq d q).items :=
  ⟨(seRecord d n s a c d.eclk).ses, (cancelReads d n s (fun _ => true)).reads, (dropUnits d (· == UnitId.se n s)).hqs, rfl, dropUnits_items d _⟩

theorem endedSlot_frame (d : Dev) (n s : Nat) (a : Active) (c : Sc) : ∃ ses m w r h, endedSlot d n s a c = { d with
      ses := ses, mdies := m, watchQ := w, reads := r, hqs := h
      popReqs := d.popReqs.filter (fun r => !(r.unit == UnitId.se n s))
      pushReqs := d.pushReqs.filter (fun r => !(r.unit == UnitId.se n s))
      arrivals := d.arrivals.filter (fun r => !(r.unit == UnitId.se n s)) } ∧ ∀ q, (Tbl.get {} h q).items = (hq d q).items := by
  obtain ⟨ses, r, h, recorded, items⟩ := recordedSlot_frame d n s a c
  obtain ⟨ses', m, w, left⟩ := leaveActive_frame (recordedSlot d n s a c) n s (planLast a)
  exact ⟨ses', m, w, r, h, left.trans (by rw [recorded]), items⟩

theorem runsTask_tasks {d e : Dev} (same : e.tasks = d.tasks) (k : Nat) : runsTask e k = runsTask d k := by
  unfold runsTask task
  rw [same]

/-- Firmware ends the task of a kennel that has one, and does nothing for another. -/
theorem settle_taskEnding_idle {d : Dev} (calm : Calm d) {k : Nat} (idle : runsTask d k = false) (c : Sc) : settle (taskEnding d k c) = d := by
  rw [taskEnding, idle, if_neg (by decide), settle_calm _ calm]

/-- A descriptor whose slot ends it, on a device that differs from the one before the command in its engines alone. -/
theorem endDesc_ends {d0 d : Dev} {n : StreamIx} {slot : SlotId} {a : Active} (c : Sc) (calm : Calm d0) (same : ∃ e, d = { d0 with ses := e })
    (count : (se d n.val).doneCnt = (se d0 n.val).doneCnt) (held : InSlot d n slot a) : Ends d0 (settle (endDesc d n.val slot.toNat c)) n slot a c := by
  rw [endDesc_held held]
  obtain ⟨empty, done, ring⟩ := leaveActive_empties (recordedSlot d n.val slot.toNat a c) n.val slot.toNat (planLast a)
  rw [se_recordedSlot, se_seRecord] at done ring
  obtain ⟨ses, m, w, r, h, frame, items⟩ := endedSlot_frame d n.val slot.toNat a c
  obtain ⟨⟨tag, -, number, -⟩, code, -⟩ := seRecordWord_fields d a c d.eclk slot.isLt
  rw [← endedSlot] at empty done ring
  generalize endedSlot d n.val slot.toNat a c = e at *
  obtain ⟨es, rfl⟩ := same
  have tasks : e.tasks = d0.tasks := by rw [frame]
  have quiet : Calm e := calm.of_eq ⟨by rw [frame], by rw [frame]⟩ tasks
  refine ⟨e, rfl, fun idle => settle_taskEnding_idle quiet ((runsTask_tasks tasks _).trans idle) c, empty, done.trans (congrArg (· + 1) count), ?_, ?_, ?_, fun q => ?_, ?_⟩
  · rw [ring, ← count, Tbl.get_set_self]
    exact ⟨code, number, tag⟩
  · rw [frame]
    exact fun x inside => by simpa using (List.mem_filter.mp inside).2
  · rw [frame]
    exact fun x inside => by simpa using (List.mem_filter.mp inside).2
  · rw [hq, frame]
    exact items q
  · rw [frame]

end Sys2Proof.Machine

namespace Sys2Proof.Machine

/-- R173, R175. -/
theorem shadowMoves : Claim.ShadowMoves := by
  intro n slot s awake x
  refine ⟨fun ds g k t empty shadow => run_becomes awake ?_ (calm_modSlot awake.2 ..), fun stays => run_becomes awake ?_ awake.2⟩
  · simp only [shadowMove, show (sslot s.d n.val slot.toNat).act = none from empty, show (sslot s.d n.val slot.toNat).shd = some (ds, g, k, t) from shadow]
    rfl
  · unfold shadowMove
    simp only
    split
    next empty shadow => simp [x, empty, shadow] at stays
    · rfl

/-- Requests of pops join those on their way, in order. -/
theorem each_requestPop {α : Type} (d : Dev) (pops : List α) (u : UnitId) (role queue : α → Nat) (k : Nat) :
    each d pops (fun d z => requestPop d u (role z) (queue z) k d.eclk)
      = { d with popReqs := d.popReqs ++ pops.map (fun z => ⟨u, role z, queue z, k, d.eclk⟩) } := by
  induction pops generalizing d with
  | nil => simp [each]
  | cons z r ih => exact (ih _).trans (by simp [requestPop])

theorem nextDue_iff (a : Active) : nextDue a = true ↔
    a.waiting = false ∧ a.next ≤ a.desc.rep ∧ ∀ r, a.reps.getLast? = some r → readsIssued a.desc r = true := by
  unfold nextDue
  cases a.reps.getLast? <;> simp [and_assoc]

/-- The next repetition of a descriptor may begin (R177, R188). -/
theorem repPops_ready_iff (d : Dev) (n : Nat) (a : Active) : (nextDue a && aligned d a a.next && popRoom d n a) = true ↔
    a.waiting = false ∧ a.next ≤ a.desc.rep ∧ (∀ r, a.reps.getLast? = some r → readsIssued a.desc r = true)
      ∧ (a.desc.align = true → repStart a a.next ≤ beatNow d) ∧ popsOutstanding d (seUnit n) + (popList d a.desc).length ≤ 64 := by
  have align : aligned d a a.next = true ↔ (a.desc.align = true → repStart a a.next ≤ beatNow d) := by
    unfold aligned
    cases a.desc.align <;> simp
  simp only [Bool.and_eq_true, nextDue_iff, align, popRoom, decide_eq_true_eq, and_assoc]

/-- R177, R188. -/
theorem repetitionPopsRequested : Claim.RepetitionPopsRequested := by
  intro n slot s a awake held now
  have act : (sslot s.d n.val slot.toNat).act = some a := held
  have ready := repPops_ready_iff s.d n.val a
  refine ⟨fun due => run_becomes awake ?_ (awake.2.of_eq ⟨rfl, rfl⟩ rfl), fun waits => run_becomes awake ?_ awake.2⟩
  · have pops := each_requestPop (modAct s.d n.val slot.toNat (fun b => { b with
      next := b.next + 1, started := b.started || !(popList s.d a.desc).isEmpty
      reps := b.reps ++ [{ num := b.next, popsLeft := (popList s.d a.desc).length, lastArrival := s.d.eclk }] })) (popList s.d a.desc)
      (.se n.val slot.toNat) (fun z => roleOf a.next z.1) (·.2) a.kennel
    simp only [repPops, act, ready.mpr due, Bool.not_true, Bool.false_eq_true, if_false]
    refine pops.trans ?_
    rw [modAct_held act]
    rfl
  · simp only [repPops, act, Bool.eq_false_iff.mpr (mt ready.mp waits), Bool.not_false, if_true]

end Sys2Proof.Machine

namespace Sys2Proof.Machine

/-! ### Completion (R177, R180, R332) -/

/-- The slot's descriptor counts its oldest repetition as done; `rest` are the others in hand. -/
def countRep (d : Dev) (n s : Nat) (a : Active) (rest : List Rep) : Dev :=
  modSlot d n s (fun x => { x with act := some { a with reps := rest, repDone := a.repDone + 1 } })

theorem sslot_countRep (d : Dev) (n s : Nat) (a : Active) (rest : List Rep) :
    sslot (countRep d n s a rest) n s = { sslot d n s with act := some { a with reps := rest, repDone := a.repDone + 1 } } := sslot_modSlot ..

theorem countRep_keeps (d : Dev) (n s : Nat) (a : Active) (rest : List Rep) : (∃ e, countRep d n s a rest = { d with ses := e })
    ∧ (se (countRep d n s a rest) n).overrunCnt = (se d n).overrunCnt ∧ (se (countRep d n s a rest) n).doneCnt = (se d n).doneCnt
    ∧ ∀ i j, (i, j) ≠ (n, s) → sslot (countRep d n s a rest) i j = sslot d i j := by
  refine ⟨⟨_, rfl⟩, ?_, ?_, fun i j other => sslot_modSlot_other _ _ other⟩
  · rw [countRep, modSlot, se_modSe]
  · rw [countRep, modSlot, se_modSe]

section NextPush

variable {d : Dev} {n s : Nat} {a : Active} (held : (sslot d n s).act = some a) (fuel at' : Nat)
include held

/-- A completed repetition requests its next push one ECLK later. -/
theorem nextPush_pushes {r : Rep} {rest : List Rep} {z : Nat × DWord} {zs : List (Nat × DWord)} (oldest : a.reps = r :: rest) (left : r.pushes = some (z :: zs)) :
    nextPush (fuel + 1) d n s at' = requestPush d (.se n s) z.1 a.kennel z.2 (max at' r.complAt + 1) := by
  rw [nextPush.eq_def]
  simp only [held, oldest, left]

/-- A completed repetition without a push left counts, and the one behind it goes on. -/
theorem nextPush_counts {r : Rep} {rest : List Rep} (oldest : a.reps = r :: rest) (left : r.pushes = some []) :
    nextPush (fuel + 1) d n s at'
      = nextPush fuel (countRep d n s a rest) n s (max at' r.complAt) := by
  rw [nextPush.eq_def]
  simp only [held, oldest, left, modAct_held held, countRep]

/-- Without a repetition in hand or to come the descriptor makes its final transfer. -/
theorem nextPush_idle (idle : a.reps = []) : nextPush (fuel + 1) d n s at' = if a.next > a.desc.rep then finalTransfer d n s at' else d := by
  rw [nextPush.eq_def]
  simp only [held, idle]

theorem finalTransfer_held : finalTransfer d n s at' = leaveActive (seRecord d n s a .ok at') n s (planLast a) := by
  simp only [finalTransfer, held]

end NextPush

/-- Where no repetition writes, a slot only lets go of watch entries. -/
theorem goOn_idle {d : Dev} {n s : Nat} (idle : ∀ a, (sslot d n s).act = some a → writer a = none) : goOn d n s = trimWatches d n s := by
  have stays (fuel : Nat) : flush fuel d n s = d := by
    cases fuel with
    | zero => rfl
    | succ f =>
      rw [flush.eq_def]
      cases held : (sslot d n s).act with
      | none => rfl
      | some a => simp only [idle a held]
  simp only [goOn, stays]

/-- A slot whose repetition has completed `late` ECLK after its planned end, with `b` as its descriptor from then on. -/
def lagged (d : Dev) (n s late : Nat) (b : Active) : Dev :=
  modSlot (modSe d n (fun x => if late > 0 then { x with overrunCnt := inc x.overrunCnt } else x)) n s
    (fun x => { x with lag := overrunBeats d late, act := some b })

section Lagged

variable (d : Dev) (n s late : Nat) (b : Active)

theorem lagged_frame : ∃ e, lagged d n s late b = { d with ses := e } := ⟨_, rfl⟩

theorem sslot_lagged : sslot (lagged d n s late b) n s = { sslot d n s with lag := overrunBeats d late, act := some b } := by
  rw [lagged, sslot_modSlot, sslot_modSe d (by split <;> rfl)]

theorem sslot_lagged_other {i j : Nat} (other : (i, j) ≠ (n, s)) : sslot (lagged d n s late b) i j = sslot d i j := by
  rw [lagged, sslot_modSlot_other _ _ other, sslot_modSe d (by split <;> rfl)]

theorem se_lagged : (se (lagged d n s late b) n).overrunCnt = (if late > 0 then (se d n).overrunCnt + 1 else (se d n).overrunCnt)
    ∧ (se (lagged d n s late b) n).doneCnt = (se d n).doneCnt := by
  rw [lagged, modSlot, se_modSe, se_modSe]
  split <;> exact ⟨rfl, rfl⟩

end Lagged

/-- The completion point of the one repetition in hand (R177, R332). -/
theorem repCompletion_completes {d : Dev} {n s : Nat} {a : Active} {r : Rep} (at' : Nat) (held : (sslot d n s).act = some a) (writes : writer a = some r)
    (one : a.reps = [r]) (complete : repComplete d n s a.desc r = true) (whole : r.stopRow = none) :
    let t := if a.desc.rows = 0 then r.lastArrival + 1 else max at' (r.lastArrival + 1)
    let late := t - beatEclk d (repEnd a r.num)
    repCompletion d n s at' = goOn (nextPush 2 (lagged d n s late
      { a with overrun := late, reps := [{ r with pushes := some (pushList d a.desc r), complAt := t }] }) n s t) n s := by
  intro t late
  have same : modAct (modRep (modSlot (modSe d n (fun x => if late > 0 then { x with overrunCnt := inc x.overrunCnt } else x)) n s
        (fun x => { x with lag := overrunBeats d late })) n s r.num (fun y => { y with pushes := some (pushList d a.desc r), complAt := t })) n s
        (fun a => { a with overrun := late })
      = lagged d n s late { a with overrun := late, reps := [{ r with pushes := some (pushList d a.desc r), complAt := t }] } := by
    unfold modAct modRep modAct lagged
    rw [modSlot_modSlot, modSlot_modSlot]
    refine modSlot_congr ?_
    simp [sslot_modSe d (n := n) (f := fun x => if late > 0 then { x with overrunCnt := inc x.overrunCnt } else x) (by split <;> rfl), held, one]
  have many : manyReps (lagged d n s late { a with overrun := late, reps := [{ r with pushes := some (pushList d a.desc r), complAt := t }] }) n s = 2 := by
    simp only [manyReps, sslot_lagged, List.length_singleton]
  rw [← many, ← same]
  simp only [repCompletion, held, writes, complete, whole, one, Bool.not_true, Bool.false_eq_true, if_false, Option.isSome_none, List.head?_cons, Option.any_some,
    beq_self_eq_true, if_true]
  rfl

/-- A command of a unit whose effect firmware settles. -/
theorem run_settles {f : Dev → Dev} {s : State} {d : Dev} (awake : Awake s.d) (effect : f s.d = d) : run f s = becomes s (settle d) := by
  subst effect
  simp [run, powered, awake.1]

/-- Lags, overruns and the other slots stay as they are when a descriptor leaves with its record. -/
theorem leaveActive_keeps (d : Dev) (n s plan : Nat) : (se (leaveActive d n s plan) n).overrunCnt = (se d n).overrunCnt
    ∧ (sslot (leaveActive d n s plan) n s).lag = (sslot d n s).lag ∧ ∀ i j, (i, j) ≠ (n, s) → sslot (leaveActive d n s plan) i j = sslot d i j := by
  unfold leaveActive
  refine ⟨?_, ?_, fun i j other => ?_⟩
  · rw [se_trimWatches, modSlot, se_modSe]
  · rw [sslot_trimWatches, sslot_modSlot]
  · rw [sslot_trimWatches, sslot_modSlot_other _ _ other]

theorem sslot_seRecord (d : Dev) (n s : Nat) (a : Active) (c : Sc) (at' i j : Nat) : sslot (seRecord d n s a c at') i j = sslot d i j := sslot_modSe d rfl i j

/-- The last repetition ends its descriptor with a record of Table 6-9 (R174, R180). -/
theorem finalTransfer_records {d : Dev} {n s : Nat} {a : Active} (held : (sslot d n s).act = some a) (at' : Nat) :
    (sslot (finalTransfer d n s at') n s).act = none ∧ (se (finalTransfer d n s at') n).doneCnt = (se d n).doneCnt + 1
      ∧ Tbl.get 0 (se (finalTransfer d n s at') n).ring ((se d n).doneCnt.toNat % 256) = seRecordWord d s a .ok at'
      ∧ (se (finalTransfer d n s at') n).overrunCnt = (se d n).overrunCnt ∧ (sslot (finalTransfer d n s at') n s).lag = (sslot d n s).lag
      ∧ (∀ i j, (i, j) ≠ (n, s) → sslot (finalTransfer d n s at') i j = sslot d i j)
      ∧ ∃ e m w, finalTransfer d n s at' = { d with ses := e, mdies := m, watchQ := w } := by
  rw [finalTransfer_held held]
  obtain ⟨empty, count, ring⟩ := leaveActive_empties (seRecord d n s a .ok at') n s (planLast a)
  obtain ⟨overrun, lag, others⟩ := leaveActive_keeps (seRecord d n s a .ok at') n s (planLast a)
  obtain ⟨e, m, w, frame⟩ := leaveActive_frame (seRecord d n s a .ok at') n s (planLast a)
  rw [se_seRecord] at count ring overrun
  refine ⟨empty, count, ?_, overrun, lag.trans (by rw [sslot_seRecord]), fun i j other => (others i j other).trans (sslot_seRecord ..), e, m, w, frame⟩
  rw [ring, Tbl.get_set_self]

section Completed

variable {d : Dev} {n s : Nat} {b : Active} {r : Rep} (held : (sslot d n s).act = some b) (one : b.reps = [r]) (t : Nat)
include held one

/-- A completed repetition with a push requests it, and its slot waits for the push. -/
theorem completed_pushes {z : Nat × DWord} {zs : List (Nat × DWord)} (left : r.pushes = some (z :: zs)) : ∃ m w,
    goOn (nextPush 2 d n s t) n s
      = { d with mdies := m, watchQ := w, pushReqs := d.pushReqs ++ [⟨.se n s, z.1, b.kennel, z.2, max t r.complAt + 1, false⟩] } := by
  have idle (a : Active) (same : (sslot d n s).act = some a) : writer a = none := by
    obtain rfl : b = a := Option.some.inj (held.symm.trans same)
    simp [writer, one, left]
  rw [nextPush_pushes held 1 t one left, goOn_idle (d := requestPush d ..) idle]
  exact trimWatches_frame ..

/-- One without pushes counts, and its slot has nothing in hand. -/
theorem completed_counts (left : r.pushes = some []) : nextPush 2 d n s t
    = if b.next > b.desc.rep then finalTransfer (countRep d n s b []) n s (max t r.complAt) else countRep d n s b [] := by
  rw [nextPush_counts held 1 t one left, nextPush_idle (congrArg SSlot.act (sslot_countRep ..)) 0 _ rfl]

end Completed

/-- R177, R180, R195, R332. -/
theorem repetitionCompletes : Claim.RepetitionCompletes := by
  intro n slot at' s a r awake held writes
  have act : (sslot s.d n.val slot.toNat).act = some a := held
  refine ⟨fun waits => run_becomes awake ?_ awake.2, fun complete => ⟨fun stopped => ?_, fun whole one => ?_⟩⟩
  · simp only [repCompletion, act, writes, waits, Bool.not_false, if_true]
  · refine ⟨_, run_settles awake ?_, endDesc_ends .range awake.2 ⟨_, rfl⟩ rfl held⟩
    simp only [repCompletion, act, writes, complete, stopped, Bool.not_true, Bool.false_eq_true, if_false, if_true]
  · intro t' late
    have meets : repCompletion s.d n.val slot.toNat at' = goOn (nextPush 2 (lagged s.d n.val slot.toNat late
      { a with overrun := late, reps := [{ r with pushes := some (pushList s.d a.desc r), complAt := t' }] }) n.val slot.toNat t') n.val slot.toNat :=
      repCompletion_completes at' act writes one complete whole
    generalize late = l at *
    generalize t' = t at *
    obtain ⟨e, frame⟩ := lagged_frame s.d n.val slot.toNat l { a with overrun := l, reps := [{ r with pushes := some (pushList s.d a.desc r), complAt := t }] }
    obtain ⟨overrun, count⟩ := se_lagged s.d n.val slot.toNat l { a with overrun := l, reps := [{ r with pushes := some (pushList s.d a.desc r), complAt := t }] }
    have held' := sslot_lagged s.d n.val slot.toNat l { a with overrun := l, reps := [{ r with pushes := some (pushList s.d a.desc r), complAt := t }] }
    have others (i j : Nat) (other : (i, j) ≠ (n.val, slot.toNat)) := sslot_lagged_other s.d n.val slot.toNat l
      { a with overrun := l, reps := [{ r with pushes := some (pushList s.d a.desc r), complAt := t }] } other
    generalize lagged s.d n.val slot.toNat l { a with overrun := l, reps := [{ r with pushes := some (pushList s.d a.desc r), complAt := t }] } = L at *
    have lag := congrArg SSlot.lag held'
    replace held' := congrArg SSlot.act held'
    have calm : Calm L := frame ▸ awake.2.of_eq ⟨rfl, rfl⟩ rfl
    cases pushes : pushList s.d a.desc r with
    | cons z zs =>
      rw [pushes] at held'
      obtain ⟨m, w, goes⟩ := completed_pushes held' rfl t rfl
      rw [max_self] at goes
      refine ⟨{ s with d := { L with mdies := m, watchQ := w, pushReqs := L.pushReqs ++ [⟨.se n.val slot.toNat, z.1, a.kennel, z.2, t + 1, false⟩] } },
        run_becomes awake (meets.trans goes) (calm.of_eq ⟨rfl, rfl⟩ rfl), overrun, lag, others, by rw [frame],
        fun z' zs' same => ?_, fun none' => nomatch none'⟩
      cases same
      exact ⟨by rw [frame], held'⟩
    | nil =>
      rw [pushes] at held'
      rw [completed_counts held' rfl t rfl, max_self] at meets
      have counted := sslot_countRep L n.val slot.toNat { a with overrun := l, reps := [{ r with pushes := some [], complAt := t }] } []
      obtain ⟨⟨e', frame'⟩, overrun', count', others'⟩ := countRep_keeps L n.val slot.toNat { a with overrun := l, reps := [{ r with pushes := some [], complAt := t }] } []
      generalize countRep L n.val slot.toNat { a with overrun := l, reps := [{ r with pushes := some [], complAt := t }] } [] = C at *
      have lag' := (congrArg SSlot.lag counted).trans lag
      have act' := congrArg SSlot.act counted
      have calm' : Calm C := frame' ▸ calm.of_eq ⟨rfl, rfl⟩ rfl
      by_cases last : a.desc.rep < a.next
      · rw [if_pos last] at meets
        obtain ⟨empty, done, ring, overrun'', lag'', others'', e'', m, w, final⟩ := finalTransfer_records act' t
        generalize finalTransfer C n.val slot.toNat t = F at *
        have calm'' : Calm F := final ▸ calm'.of_eq ⟨rfl, rfl⟩ rfl
        rw [goOn_idle (by rw [empty]; exact fun _ none' => nomatch none')] at meets
        obtain ⟨m', w', trim⟩ := trimWatches_frame F n.val slot.toNat
        rw [count', count] at ring
        refine ⟨{ s with d := { F with mdies := m', watchQ := w' } }, run_becomes awake (meets.trans trim) (calm''.of_eq ⟨rfl, rfl⟩ rfl),
          overrun''.trans (overrun'.trans overrun), lag''.trans lag', fun i j other => (others'' i j other).trans ((others' i j other).trans (others i j other)),
          by rw [final, frame', frame], nofun, fun _ => ⟨by rw [final, frame', frame], fun more => absurd last (Nat.not_lt.mpr more), fun _ => ⟨empty, ?_, ?_⟩⟩⟩
        · exact done.trans (congrArg (· + 1) (count'.trans count))
        · obtain ⟨⟨tag, fallbacks, number, reps⟩, code, gen, excess, time⟩ := seRecordWord_fields C { a with overrun := l, reps := [], repDone := a.repDone + 1 } .ok t slot.isLt
          rw [← ring] at tag fallbacks number reps code gen excess time
          exact ⟨tag, fallbacks, number, reps, code, gen, excess, time.trans (by rw [frame', frame]; rfl)⟩
      · rw [if_neg last] at meets
        rw [goOn_idle (by rw [act']; rintro b ⟨⟩; rfl)] at meets
        obtain ⟨m', w', trim⟩ := trimWatches_frame C n.val slot.toNat
        exact ⟨{ s with d := { C with mdies := m', watchQ := w' } }, run_becomes awake (meets.trans trim) (calm'.of_eq ⟨rfl, rfl⟩ rfl),
          overrun'.trans overrun, lag', fun i j other => (others' i j other).trans (others i j other), by rw [frame', frame],
          nofun, fun _ => ⟨by rw [frame', frame], fun _ => ⟨count'.trans count, act'⟩, fun more => absurd more last⟩⟩

end Sys2Proof.Machine

namespace Sys2Proof.Machine

/-! ### Leashes (R203, R204) -/

/-- The leash of repetition m is counted, and the reads of other modules under way for it are cancelled. -/
def leashCounted (d : Dev) (n s m : Nat) : Dev := cancelReads (modSe d n (fun x => { x with leashCnt := inc x.leashCnt })) n s (· == m)

theorem sslot_cancelReads (d : Dev) (n s : Nat) (p : Nat → Bool) (i j : Nat) : sslot (cancelReads d n s p) i j = sslot d i j := rfl

theorem leashCounted_frame (d : Dev) (n s m : Nat) : ∃ e r, leashCounted d n s m = { d with ses := e, reads := r } :=
  ⟨(modSe d n (fun x => { x with leashCnt := inc x.leashCnt })).ses, (cancelReads d n s (· == m)).reads, rfl⟩

theorem sslot_leashCounted (d : Dev) (n s m i j : Nat) : sslot (leashCounted d n s m) i j = sslot d i j := by
  rw [leashCounted, sslot_cancelReads, sslot_modSe d (n := n) (f := fun x => { x with leashCnt := inc x.leashCnt }) rfl]

theorem se_leashCounted (d : Dev) (n s m : Nat) : se (leashCounted d n s m) n = { se d n with leashCnt := (se d n).leashCnt + 1 } :=
  se_modSe d n (fun x => { x with leashCnt := inc x.leashCnt })

/-- The leash of the one repetition in hand has fired: its reads and entries are gone with it. -/
def leashFired (d : Dev) (n s m : Nat) (a : Active) : Dev :=
  trimWatches (modSlot (leashCounted d n s m) n s (fun x => { x with act := some { a with reps := [] } })) n s

section LeashFired

variable (d : Dev) (n s m : Nat) (a : Active)

theorem leashFired_frame : ∃ e ms w r, leashFired d n s m a = { d with ses := e, mdies := ms, watchQ := w, reads := r } := by
  unfold leashFired
  obtain ⟨e, r, counted⟩ := leashCounted_frame d n s m
  generalize leashCounted d n s m = c at *
  obtain ⟨ms, w, frame⟩ := trimWatches_frame (modSlot c n s (fun x => { x with act := some { a with reps := [] } })) n s
  exact ⟨_, ms, w, r, frame.trans (by rw [counted]; rfl)⟩

theorem sslot_leashFired : sslot (leashFired d n s m a) n s = { sslot d n s with act := some { a with reps := [] } } := by
  rw [leashFired, sslot_trimWatches, sslot_modSlot, sslot_leashCounted]

theorem sslot_leashFired_other {i j : Nat} (other : (i, j) ≠ (n, s)) : sslot (leashFired d n s m a) i j = sslot d i j := by
  rw [leashFired, sslot_trimWatches, sslot_modSlot_other _ _ other, sslot_leashCounted]

theorem se_leashFired : (se (leashFired d n s m a) n).leashCnt = (se d n).leashCnt + 1 ∧ (se (leashFired d n s m a) n).doneCnt = (se d n).doneCnt := by
  rw [leashFired, se_trimWatches, modSlot, se_modSe, se_leashCounted]
  exact ⟨rfl, rfl⟩

/-- The one repetition in hand goes as its leash is counted. -/
theorem leashFired_eq {d : Dev} {n s : Nat} {a : Active} {r : Rep} (held : (sslot d n s).act = some a) (one : a.reps = [r]) :
    trimWatches (modAct (cancelReads (modSe d n (fun x => { x with leashCnt := inc x.leashCnt })) n s (· == r.num)) n s
      (fun a => { a with reps := a.reps.filter (fun y => y.num != r.num) })) n s = leashFired d n s r.num a := by
  rw [← leashCounted, leashFired, modAct_held (a := a) (by rw [sslot_leashCounted, held])]
  simp [one]

end LeashFired

/-- The descriptor in `FB_SLOT` that a leash hands its biscuits to. -/
def FallsBack (d : Dev) (n s : Nat) (a f : Active) : Prop :=
  (sslot d n a.desc.fbSlot).act = some f ∧ a.desc.fbEn = true ∧ f.waiting = true ∧ f.kennel = a.kennel ∧ a.desc.fbSlot ≠ s

/-- The dormant descriptor `f` has taken the biscuits of repetition r, which counts for the descriptor `a` that it came from. -/
def handedOver (d : Dev) (n s : Nat) (a f : Active) (r : Rep) : Dev :=
  modSlot (modSlot d n a.desc.fbSlot (fun x => { x with act := some { f with
      waiting := false, plan := repStart a r.num, next := 1, reps := [{ num := 0, biscuits := r.biscuits, lastArrival := d.eclk }] } })) n s
    (fun x => { x with act := some { a with reps := [], repDone := a.repDone + 1, fallbacks := a.fallbacks + 1 } })

section FireLeash

variable {d : Dev} {n s : Nat} {a : Active} {r : Rep} (held : (sslot d n s).act = some a) (one : a.reps = [r])
include held one

/-- Without a descriptor to fall back to, the task has a fault. -/
theorem fireLeash_faults (none' : a.desc.fbEn = false ∨ a.desc.fbSlot = s ∨ ∀ f, (sslot d n a.desc.fbSlot).act = some f → f.waiting = false ∨ f.kennel ≠ a.kennel) :
    fireLeash d n s r.num = taskFault (leashFired d n s r.num a) a.kennel .task := by
  have waits : (a.desc.fbEn && a.desc.fbSlot != s && (sslot (leashFired d n s r.num a) n a.desc.fbSlot).act.any (fun f => f.waiting && f.kennel == a.kennel)) = false := by
    obtain off | same | stays := none'
    · simp [off]
    · simp [same]
    · by_cases same : a.desc.fbSlot = s
      · simp [same]
      · rw [sslot_leashFired_other d n s r.num a (by simpa using same)]
        cases fb : (sslot d n a.desc.fbSlot).act with
        | none => simp
        | some f => obtain awake | foreign := stays f fb <;> simp_all
  simp only [fireLeash, held, one, List.find?_cons, beq_self_eq_true, leashFired_eq held one, waits]
  rfl

/-- With one, its biscuits pass to it, and the repetition counts. -/
theorem fireLeash_fallsBack {f : Active} (falls : FallsBack d n s a f) :
    fireLeash d n s r.num = (let e := handedOver (leashFired d n s r.num a) n s a f r
      if a.next > a.desc.rep then finalTransfer e n s e.eclk else e) := by
  obtain ⟨fb, enabled, waits, kennel, apart⟩ := falls
  have there := sslot_leashFired_other d n s r.num a (i := n) (j := a.desc.fbSlot) (by simpa using apart)
  rw [← there] at fb
  have here := congrArg SSlot.act (sslot_leashFired d n s r.num a)
  simp only [fireLeash, held, one, List.find?_cons, beq_self_eq_true, leashFired_eq held one]
  generalize leashFired d n s r.num a = L at *
  have handed : modAct (modAct L n a.desc.fbSlot (fun f => { f with
        waiting := false, plan := repStart a r.num, next := 1, reps := [{ num := 0, biscuits := r.biscuits, lastArrival := L.eclk }] })) n s
        (fun a => { a with repDone := a.repDone + 1, fallbacks := a.fallbacks + 1 }) = handedOver L n s a f r := by
    rw [modAct_held fb, modAct_held (a := { a with reps := [] }) ((congrArg SSlot.act (sslot_modSlot_other _ _ (by simpa using apart.symm))).trans here)]
    rfl
  have apart' : (a.desc.fbSlot != s) = true := by simpa using apart
  have act : (sslot (handedOver L n s a f r) n s).act = some { a with reps := [], repDone := a.repDone + 1, fallbacks := a.fallbacks + 1 } :=
    congrArg SSlot.act (sslot_modSlot ..)
  simp only [fb, enabled, waits, kennel, apart', Option.any_some, beq_self_eq_true, Bool.and_self, if_true, List.head?_cons, handed]
  rw [show manyReps (handedOver L n s a f r) n s = 1 by simp only [manyReps, act, List.length_nil], nextPush_idle act 0 _ rfl]

end FireLeash

/-- At the boundary of the one repetition in hand its leash fires if a read is late, and nothing happens otherwise (R203). -/
theorem leashExpiry_one {d : Dev} {n s : Nat} {a : Active} {r : Rep} (held : (sslot d n s).act = some a) (one : a.reps = [r]) : leashExpiry d n s
    = if a.desc.leash ≠ 0 ∧ repStart a r.num + a.desc.leash ≤ beatNow d ∧ leashLate a r = true then fireLeash d n s r.num else d := by
  have found : a.reps.find? (fun r => a.desc.leash != 0 && repStart a r.num + a.desc.leash ≤ beatNow d && leashLate a r)
      = if a.desc.leash ≠ 0 ∧ repStart a r.num + a.desc.leash ≤ beatNow d ∧ leashLate a r = true then some r else none := by
    simp [one, List.find?_cons]
    split <;> simp_all
  simp only [leashExpiry, held, found]
  by_cases late : a.desc.leash ≠ 0 ∧ repStart a r.num + a.desc.leash ≤ beatNow d ∧ leashLate a r = true
  · rw [if_pos late, if_pos late]
  · rw [if_neg late, if_neg late]

section HandedOver

variable (d : Dev) (n s : Nat) (a f : Active) (r : Rep)

theorem handedOver_frame : ∃ e, handedOver d n s a f r = { d with ses := e } := ⟨_, rfl⟩

theorem sslot_handedOver (apart : a.desc.fbSlot ≠ s) : (sslot (handedOver d n s a f r) n s).act = some { a with reps := [], repDone := a.repDone + 1, fallbacks := a.fallbacks + 1 }
    ∧ (sslot (handedOver d n s a f r) n a.desc.fbSlot).act = some { f with
        waiting := false, plan := repStart a r.num, next := 1, reps := [{ num := 0, biscuits := r.biscuits, lastArrival := d.eclk }] } := by
  refine ⟨congrArg SSlot.act (sslot_modSlot ..), ?_⟩
  rw [handedOver, sslot_modSlot_other _ _ (by simpa using apart), sslot_modSlot]

theorem se_handedOver : (se (handedOver d n s a f r) n).leashCnt = (se d n).leashCnt ∧ (se (handedOver d n s a f r) n).doneCnt = (se d n).doneCnt := by
  rw [handedOver, modSlot, se_modSe, modSlot, se_modSe]
  exact ⟨rfl, rfl⟩

end HandedOver

theorem finalTransfer_leashCnt {d : Dev} {n s : Nat} {a : Active} (held : (sslot d n s).act = some a) (at' : Nat) :
    (se (finalTransfer d n s at') n).leashCnt = (se d n).leashCnt := by
  rw [finalTransfer_held held, leaveActive, se_trimWatches, modSlot, se_modSe, se_seRecord]

theorem not_fallsBack_iff {d : Dev} {n s : Nat} {a : Active} : (¬ ∃ f, FallsBack d n s a f) ↔
    a.desc.fbEn = false ∨ a.desc.fbSlot = s ∨ ∀ f, (sslot d n a.desc.fbSlot).act = some f → f.waiting = false ∨ f.kennel ≠ a.kennel := by
  unfold FallsBack
  cases a.desc.fbEn <;> by_cases same : a.desc.fbSlot = s <;> simp [same, imp_iff_not_or]

/-- The biscuits of a late repetition pass to the descriptor in `FB_SLOT`; its own descriptor goes on, or ends with the last repetition. -/
theorem fireLeash_handsOver {d : Dev} {n s : Nat} {a f : Active} {r : Rep} (held : (sslot d n s).act = some a) (one : a.reps = [r]) (falls : FallsBack d n s a f) :
    let d' := fireLeash d n s r.num
    (se d' n).leashCnt = (se d n).leashCnt + 1 ∧ d' = { d with ses := d'.ses, mdies := d'.mdies, watchQ := d'.watchQ, reads := d'.reads }
      ∧ (sslot d' n a.desc.fbSlot).act = some { f with
          waiting := false, plan := repStart a r.num, next := 1, reps := [{ num := 0, biscuits := r.biscuits, lastArrival := d.eclk }] }
      ∧ (a.next ≤ a.desc.rep → (sslot d' n s).act = some { a with reps := [], repDone := a.repDone + 1, fallbacks := a.fallbacks + 1 })
      ∧ (a.desc.rep < a.next → (sslot d' n s).act = none ∧ (se d' n).doneCnt = (se d n).doneCnt + 1) := by
  intro d'
  have fires : d' = _ := fireLeash_fallsBack held one falls
  generalize d' = D at *
  obtain ⟨-, -, -, -, apart⟩ := falls
  obtain ⟨e, m, w, q, frame⟩ := leashFired_frame d n s r.num a
  obtain ⟨leash, count⟩ := se_leashFired d n s r.num a
  generalize leashFired d n s r.num a = L at *
  obtain ⟨leash', count'⟩ := se_handedOver L n s a f r
  obtain ⟨mine, handed⟩ := sslot_handedOver L n s a f r apart
  obtain ⟨e', frame'⟩ := handedOver_frame L n s a f r
  generalize handedOver L n s a f r = H at *
  rw [show L.eclk = d.eclk by rw [frame]] at handed
  by_cases last : a.desc.rep < a.next
  · rw [if_pos last] at fires
    obtain ⟨empty, done, -, -, -, others, e'', m', w', final⟩ := finalTransfer_records mine H.eclk
    have leash'' := finalTransfer_leashCnt mine H.eclk
    rw [← fires] at empty done others final leash''
    exact ⟨leash''.trans (leash'.trans leash), by rw [final, frame', frame], (congrArg SSlot.act (others n _ (by simpa using apart))).trans handed,
      fun more => absurd last (Nat.not_lt.mpr more), fun _ => ⟨empty, done.trans (congrArg (· + 1) (count'.trans count))⟩⟩
  · rw [if_neg last] at fires
    subst fires
    exact ⟨leash'.trans leash, by rw [frame', frame], handed, fun _ => mine, fun more => absurd more last⟩

/-- R203, R204. -/
theorem leashFires : Claim.LeashFires := by
  intro n slot s a r awake held one late fb
  have act : (sslot s.d n.val slot.toNat).act = some a := held
  have expires := leashExpiry_one act one
  refine ⟨fun early => run_becomes awake (expires.trans (if_neg early)) awake.2, fun passed => ?_⟩
  rw [if_pos passed] at expires
  by_cases falls : ∃ f, FallsBack s.d n.val slot.toNat a f
  · obtain ⟨f, falls⟩ := falls
    obtain ⟨counted, frame, handed, goes, ends⟩ := fireLeash_handsOver act one falls
    generalize fireLeash s.d n.val slot.toNat r.num = D at *
    refine ⟨D, counted, frame, fun f' there _ _ _ _ => ?_, fun none' => absurd ⟨f, falls⟩ (not_fallsBack_iff.mpr none')⟩
    obtain rfl : f = f' := Option.some.inj (falls.1.symm.trans there)
    exact ⟨run_becomes awake expires (frame ▸ awake.2.of_eq ⟨rfl, rfl⟩ rfl), handed, goes, ends⟩
  · obtain ⟨e, m, w, q, frame⟩ := leashFired_frame s.d n.val slot.toNat r.num a
    refine ⟨leashFired s.d n.val slot.toNat r.num a, (se_leashFired ..).1, by rw [frame], fun f there enabled waits kennel apart => ?_, fun none' => ?_⟩
    · exact absurd ⟨f, there, enabled, waits, kennel, apart⟩ falls
    · exact ⟨run_settles awake (expires.trans (fireLeash_faults act one none')), congrArg SSlot.act (sslot_leashFired ..)⟩

end Sys2Proof.Machine

namespace Sys2Proof.Proofs
open Sys2Proof.Machine

/-- Settles O16: the completion point by what is left to push, the leash by whether a descriptor waits to fall back to. -/
theorem repetitionsEnd : Obligations.RepetitionsEnd := ⟨repetitionCompletes, leashFires⟩

end Sys2Proof.Proofs

namespace Sys2Proof.Machine

/-! ### Watch entries (R198, R200) -/

/-- Taking an entry succeeds, and changes the entries of its M-die, where one is open or free; else it changes nothing. -/
theorem watchTake_cases (d : Dev) (m k b n s : Nat) :
    ((blockWatched d m k b || watchRoom d m k) = true ∧ ∃ f : List Watch → List Watch, watchTake d m k b n s = (modMdie d m (fun x => { x with watches := f x.watches }), true)
      ∧ ∃ w ∈ f (mdie d m).watches, w.kennel = k ∧ w.block = b ∧ (n, s) ∈ w.holders)
    ∨ ((blockWatched d m k b || watchRoom d m k) = false ∧ watchTake d m k b n s = (d, false)) := by
  unfold watchTake
  by_cases shared : (mdie d m).watches.any (isWatch k b) = true
  · rw [if_pos shared]
    refine .inl ⟨by simp [blockWatched, shared], (fun l => l.map (fun w : Watch =>
      if isWatch k b w && !w.holders.contains (n, s) then { w with holders := w.holders ++ [(n, s)] } else w)), rfl, ?_⟩
    obtain ⟨w, listed, names⟩ := List.any_eq_true.mp shared
    refine ⟨_, List.mem_map_of_mem listed, ?_⟩
    simp only [isWatch, Bool.and_eq_true, beq_iff_eq] at names
    by_cases holds : (n, s) ∈ w.holders <;> simp [isWatch, names, holds]
  · by_cases room : watchRoom d m k = true
    · rw [if_neg shared, if_pos room]
      exact .inl ⟨by simp [room], (fun l => l ++ [⟨k, b, [(n, s)]⟩]), rfl, ⟨k, b, [(n, s)]⟩, by simp, rfl, rfl, by simp⟩
    · rw [if_neg shared, if_neg room]
      exact .inr ⟨by simp [blockWatched, shared, room], rfl⟩

/-- What a change of an M-die keeps of it, it keeps of every M-die. -/
theorem mdie_modMdie_keeps {α : Type} (d : Dev) (m : Nat) {f : MDie → MDie} (g : MDie → α) (keeps : ∀ x, g (f x) = g x) (j : Nat) :
    g (mdie (modMdie d m f) j) = g (mdie d j) := by
  by_cases here : j = m
  · subst here
    rw [mdie_modMdie, keeps]
  · rw [mdie_modMdie_other _ _ _ _ here]

/-- Watch entries and the waits for them alone have changed: the tensor caches are as before. -/
def EntriesOnly (d e : Dev) : Prop := (∃ ms w, e = { d with mdies := ms, watchQ := w }) ∧ ∀ j, (mdie e j).tc = (mdie d j).tc

theorem entriesOnly_watches (d : Dev) (w : List (Nat × Nat × Nat × Nat)) (m : Nat) (f : List Watch → List Watch) :
    EntriesOnly d (modMdie { d with watchQ := w } m (fun x => { x with watches := f x.watches })) := by
  exact ⟨⟨_, _, rfl⟩, mdie_modMdie_keeps { d with watchQ := w } m MDie.tc fun _ => rfl⟩

/-- A read takes its entry, or waits in turn. -/
theorem takeEntry_cases (d : Dev) (n s k addr : Nat) : (∃ e, takeEntry d n s k addr = (e, true) ∧ EntriesOnly d e)
    ∨ takeEntry d n s k addr = ({ d with watchQ := if d.watchQ.contains (homeOf d k addr, n, s, blockNo addr) then d.watchQ
        else d.watchQ ++ [(homeOf d k addr, n, s, blockNo addr)] }, false) := by
  unfold takeEntry
  simp only
  split
  next free =>
    left
    obtain ⟨-, f, takes, -⟩ | ⟨full, -⟩ := watchTake_cases
      { d with watchQ := d.watchQ.filter (· != (homeOf d k addr, n, s, blockNo addr)) } (homeOf d k addr) k (blockNo addr) n s
    · exact ⟨_, takes, entriesOnly_watches ..⟩
    · have same : (blockWatched d (homeOf d k addr) k (blockNo addr) || watchRoom d (homeOf d k addr) k) = false := full
      rw [Bool.or_eq_false_iff] at same
      simp [same] at free
  next => exact .inr rfl

/-- The prefetch of a slot that waits for an entry of a block has taken it. -/
def entryTaken (d : Dev) (m k b n i : Nat) : Dev := (watchTake { d with watchQ := d.watchQ.filter (· != (m, n, i, b)) } m k b n i).1

theorem entryTaken_holds {d : Dev} {m k b n i : Nat} (free : (blockWatched d m k b || watchRoom d m k) = true) :
    (∃ ms, entryTaken d m k b n i = { d with mdies := ms, watchQ := d.watchQ.filter (· != (m, n, i, b)) })
      ∧ (∃ w ∈ (mdie (entryTaken d m k b n i) m).watches, w.kennel = k ∧ w.block = b ∧ (n, i) ∈ w.holders)
      ∧ ∀ j, j ≠ m → mdie (entryTaken d m k b n i) j = mdie d j := by
  unfold entryTaken
  obtain ⟨-, f, takes, holds⟩ | ⟨full, -⟩ := watchTake_cases { d with watchQ := d.watchQ.filter (· != (m, n, i, b)) } m k b n i
  · rw [takes]
    exact ⟨⟨_, rfl⟩, by simpa only [mdie_modMdie] using holds, fun j other => mdie_modMdie_other { d with watchQ := d.watchQ.filter (· != (m, n, i, b)) } m j _ other⟩
  · exact absurd (full.symm.trans free) Bool.false_ne_true

/-- R200, R245. -/
theorem watchGranted : Claim.WatchGranted := by
  intro m s awake
  refine ⟨fun none' => run_becomes awake ?_ awake.2, ?_⟩
  · simp only [watchGrant, none']
  · intro n i b a first held mine reads
    have ready := List.find?_some first
    simp only [waiterReady, slotKennel, held, beq_self_eq_true, Bool.true_and] at ready
    have grants : watchGrant s.d m.toNat = modAct { entryTaken s.d m.toNat a.kennel b n i with arrived := (entryTaken s.d m.toNat a.kennel b n i).arrived + 1 } n i
        (fun a' => { a' with reps := a'.reps.map (fun r => { r with pieces := r.pieces.map (fun p => if mine p then
          arrive (entryTaken s.d m.toNat a.kennel b n i) a' r.num p else p) }) }) := by
      simp only [watchGrant, first, held]
      rw [if_pos reads]
      rfl
    obtain ⟨⟨ms, frame⟩, holds, others⟩ := entryTaken_holds (n := n) (i := i) ready
    generalize entryTaken s.d m.toNat a.kennel b n i = L at *
    rw [modAct_held (a := a) (by rw [frame]; exact held)] at grants
    have calm : Calm { L with arrived := L.arrived + 1 } := frame ▸ awake.2.of_eq ⟨rfl, rfl⟩ rfl
    refine ⟨_, run_becomes awake grants (calm_modSlot calm ..), ?_, ?_, ?_, holds, others, ?_⟩
    · rw [frame]
      rfl
    · rw [frame]
      rfl
    · refine (congrArg SSlot.act (sslot_modSlot ..)).trans ?_
      rw [frame]
      rfl
    · rw [frame]
      rfl

end Sys2Proof.Machine

namespace Sys2Proof.Machine

/-! ### What a read of memory finds, and what it changes (R219, R221, R234) -/

/-- What memory holds is read alike on two devices with the same bytes, waiting writes, cached lines and pages but for the time of their
last access. -/
theorem peek_congr {d e : Dev} (pages : ∀ key, ∃ l, Tbl.get {} e.pages key = { (Tbl.get {} d.pages key : Page) with lastAccess := l })
    (tc : ∀ m, (mdie e m).tc = (mdie d m).tc) (mem : e.mem = d.mem) (waits : e.waits = d.waits) (k addr n : Nat) : peek e k addr n = peek d k addr n := by
  have home (a : Nat) : (page e k a).home = (page d k a).home := by
    obtain ⟨l, same⟩ := pages (pageKey k a)
    rw [page, same, page, Page.home, Page.home]
  have tier (a n : Nat) : tierBytes e k a n = tierBytes d k a n := by
    obtain ⟨l, same⟩ := pages (pageKey k (a / pageBytes))
    simp only [tierBytes, page, same, kmem, mem]
    rfl
  have line (m l : Nat) : cached e m k l = cached d m k l := by rw [cached, tc, cached]
  have sees (bs : List Byte) : seeWaits e k addr bs = seeWaits d k addr bs := by rw [seeWaits, waits, seeWaits]
  simp only [peek, home, tier, line, sees]

/-- The page of a read notes its access. -/
def touched (d : Dev) (k addr : Nat) : Dev := modPage d (pageKey k (addr / pageBytes)) (fun p => { p with lastAccess := d.eclk })

theorem peek_touched (d : Dev) (k addr k' addr' n : Nat) : peek (touched d k addr) k' addr' n = peek d k' addr' n := by
  refine peek_congr (d := d) (e := touched d k addr) (fun key => ?_) (fun _ => rfl) rfl rfl k' addr' n
  by_cases here : key = pageKey k (addr / pageBytes)
  · subst here
    exact ⟨d.eclk, by rw [touched, modPage, Tbl.get_modify_self]⟩
  · exact ⟨(Tbl.get {} d.pages key : Page).lastAccess, by rw [touched, modPage, Tbl.get_modify_other _ _ _ _ _ here]⟩

theorem page_touched (d : Dev) (k addr : Nat) : page (touched d k addr) k (addr / pageBytes) = { page d k (addr / pageBytes) with lastAccess := d.eclk } := by
  rw [page, touched, modPage, Tbl.get_modify_self, page]

theorem touched_eq (d : Dev) (k addr : Nat) : modPage d (pageKey k (addr / pageBytes)) (fun p => { p with lastAccess := d.eclk }) = touched d k addr := rfl

/-- Pages and M-dies alone have changed, and no count of poison reads. -/
def AccessOnly (d e : Dev) : Prop :=
  (∃ ms ps, e = { d with mdies := ms, pages := ps }) ∧ ∀ m, (mdie e m).cnt.poisonRd = (mdie d m).cnt.poisonRd

theorem AccessOnly.refl (d : Dev) : AccessOnly d d := ⟨⟨_, _, rfl⟩, fun _ => rfl⟩

theorem AccessOnly.trans {a b c : Dev} (first : AccessOnly a b) (second : AccessOnly b c) : AccessOnly a c := by
  obtain ⟨⟨ms, ps, rfl⟩, keeps⟩ := first
  obtain ⟨⟨ms', ps', rfl⟩, keeps'⟩ := second
  exact ⟨⟨ms', ps', rfl⟩, fun m => (keeps' m).trans (keeps m)⟩

/-- M-dies alone have changed, and no count of poison reads. -/
def MdiesOnly (d e : Dev) : Prop := (∃ ms, e = { d with mdies := ms }) ∧ ∀ m, (mdie e m).cnt.poisonRd = (mdie d m).cnt.poisonRd

theorem MdiesOnly.access {d e : Dev} (only : MdiesOnly d e) : AccessOnly d e := by
  obtain ⟨⟨ms, rfl⟩, keeps⟩ := only
  exact ⟨⟨ms, _, rfl⟩, keeps⟩

theorem MdiesOnly.refl (d : Dev) : MdiesOnly d d := ⟨⟨_, rfl⟩, fun _ => rfl⟩

theorem MdiesOnly.trans {a b c : Dev} (first : MdiesOnly a b) (second : MdiesOnly b c) : MdiesOnly a c := by
  obtain ⟨⟨ms, rfl⟩, keeps⟩ := first
  obtain ⟨⟨ms', rfl⟩, keeps'⟩ := second
  exact ⟨⟨ms', rfl⟩, fun m => (keeps' m).trans (keeps m)⟩

theorem MdiesOnly.each {α : Type} {f : Dev → α → Dev} (step : ∀ d x, MdiesOnly d (f d x)) (xs : List α) (d : Dev) : MdiesOnly d (each d xs f) := by
  induction xs generalizing d with
  | nil => exact .refl d
  | cons x r ih => exact (step d x).trans (ih _)

theorem mdiesOnly_modMdie (d : Dev) (m : Nat) {f : MDie → MDie} (keeps : ∀ x, (f x).cnt.poisonRd = x.cnt.poisonRd) : MdiesOnly d (modMdie d m f) :=
  ⟨⟨_, rfl⟩, mdie_modMdie_keeps d m (fun x => x.cnt.poisonRd) keeps⟩

theorem mdiesOnly_modCnt (d : Dev) (m : Nat) {f : MemCnt → MemCnt} (keeps : ∀ c, (f c).poisonRd = c.poisonRd) : MdiesOnly d (modCnt d m f) :=
  mdiesOnly_modMdie d m fun x => keeps x.cnt

theorem accessOnly_modPage (d : Dev) (key : Nat) (f : Page → Page) : AccessOnly d (modPage d key f) := ⟨⟨_, _, rfl⟩, fun _ => rfl⟩

theorem mdiesOnly_tcFill (d : Dev) (m k line tensor : Nat) (bytes : List Byte) (poisoned counted : Bool) :
    MdiesOnly d (tcFill d m k line tensor bytes poisoned counted) := by
  have skip : MdiesOnly d (if counted then modCnt d m (fun c => { c with bypass := inc c.bypass }) else d) := by
    split
    · exact mdiesOnly_modMdie _ _ fun _ => rfl
    · exact .refl d
  unfold tcFill
  simp only
  split
  · exact .refl d
  · split
    · exact skip
    · split
      · exact mdiesOnly_modMdie _ _ fun _ => rfl
      · split
        · exact skip
        · split
          · exact skip
          · exact mdiesOnly_modMdie _ _ fun _ => rfl

theorem mdiesOnly_tcOffer (d : Dev) (k line : Nat) : MdiesOnly d (tcOffer d k line) :=
  MdiesOnly.each (fun _ _ => mdiesOnly_tcFill ..) _ d

theorem mdiesOnly_tcRead (d : Dev) (k addr n : Nat) : MdiesOnly d (tcRead d k addr n) := by
  refine MdiesOnly.each (fun d z => ?_) _ d
  split
  · exact mdiesOnly_modMdie _ _ fun _ => rfl
  · exact (mdiesOnly_modCnt d _ (f := fun c => { c with miss := inc c.miss }) fun _ => rfl).trans (mdiesOnly_tcOffer ..)

theorem mdiesOnly_requestMig (d : Dev) (m key prio : Nat) (up : Bool) : MdiesOnly d (requestMig d m key prio up) :=
  mdiesOnly_modMdie _ _ fun x => by split <;> rfl

theorem accessOnly_readCount (d : Dev) (k addr n : Nat) : AccessOnly d (readCount d k addr n) := by
  unfold readCount
  simp only
  split
  · exact .refl d
  · split
    · exact (accessOnly_modPage ..).trans (mdiesOnly_requestMig ..).access
    · exact accessOnly_modPage ..

/-- The device after a read of memory that nothing went wrong with; `own` as in `memAccess`. -/
def accessed (own : Bool) (d : Dev) (k addr n : Nat) : Dev :=
  tcRead (if own then readCount (touched d k addr) k addr n else touched d k addr) k addr n

theorem accessOnly_accessed (own : Bool) (d : Dev) (k addr n : Nat) : AccessOnly d (accessed own d k addr n) := by
  refine AccessOnly.trans ?_ (mdiesOnly_tcRead ..).access
  cases own
  · exact accessOnly_modPage ..
  · exact (accessOnly_modPage ..).trans (accessOnly_readCount ..)

section MemAccess

variable {d : Dev} {k addr : Nat} (own : Bool) (n : Nat) (table : tableBad d k addr = false)
include table

theorem memAccess_denied (denied : canRead d k addr = false) (ecc : Ecc) : memAccess own d k addr n ecc = (d, .denied, zeros n) := by
  simp [memAccess, table, denied]

variable (reads : canRead d k addr = true)
include reads

theorem memAccess_zero (zero : (page d k (addr / pageBytes)).st = .zero) : memAccess own d k addr n .clean = (touched d k addr, .ok, seeWaits d k addr (zeros n)) := by
  have st : (page (touched d k addr) k (addr / pageBytes)).st = .zero := by rw [page_touched]; exact zero
  simp only [memAccess, table, reads, touched_eq, st, Bool.false_eq_true, if_false, Bool.not_true, reduceCtorEq, if_true]
  rfl

variable (some' : (page d k (addr / pageBytes)).st ≠ .zero) (whole : (page d k (addr / pageBytes)).st ≠ .lost)
include some' whole

theorem memAccess_ok {bs : List Byte} (finds : peek d k addr n = (.ok, bs)) : memAccess own d k addr n .clean = (accessed own d k addr n, .ok, bs) := by
  rw [← peek_touched d k addr] at finds
  have st : (page (touched d k addr) k (addr / pageBytes)).st = (page d k (addr / pageBytes)).st := by rw [page_touched]
  simp only [memAccess, table, reads, touched_eq, st, some', whole, eccFinds, finds, Bool.false_eq_true, if_false, Bool.not_true, reduceCtorEq]
  rfl

theorem memAccess_poison (finds : (peek d k addr n).1 = .poison) : memAccess own d k addr n .clean
    = (modCnt (accessed own d k addr n) (page d k (addr / pageBytes)).home (fun c => { c with poisonRd := inc c.poisonRd }), .poison, (peek d k addr n).2) := by
  have found : peek (touched d k addr) k addr n = (.poison, (peek d k addr n).2) := (peek_touched d k addr k addr n).trans (Prod.ext finds rfl)
  have st : (page (touched d k addr) k (addr / pageBytes)).st = (page d k (addr / pageBytes)).st := by rw [page_touched]
  have home : (page (touched d k addr) k (addr / pageBytes)).home = (page d k (addr / pageBytes)).home := by
    rw [page_touched]
    rfl
  simp only [memAccess, table, reads, touched_eq, st, some', whole, eccFinds, found, home, Bool.false_eq_true, if_false, Bool.not_true, reduceCtorEq]
  rfl

end MemAccess

end Sys2Proof.Machine

namespace Sys2Proof.Machine

/-! ### Run-ahead (R198, R200 to R202) -/

/-- The run-ahead of a slot can fetch at byte `addr`, behind its oldest bytes and the source of the repetition that read last. -/
structure RunsAhead (d : Dev) (n s : Nat) (a : Active) (r : Rep) (addr : Nat) : Prop where
  held : (sslot d n s).act = some a
  last : a.reps.getLast? = some r
  bound : (sslot d n s).ahead.length < a.desc.runahead * 4096
  goes : (sslot d n s).aheadStop = false
  issued : readsIssued a.desc r = true
  memory : (placeOf a.desc r true).sp = 4
  joins : (sslot d n s).ahead = [] ∨ sourceEnd a.desc r = ((sslot d n s).aheadAt : Int)
  room : 0 < stageRoom d n
  place : inSpace (sourceEnd a.desc r + (sslot d n s).ahead.length) 1 = some addr

/-- How many bytes the run-ahead fetches next. -/
def aheadLen (d : Dev) (n s : Nat) (a : Active) (addr : Nat) : Nat :=
  min (min 4096 (a.desc.runahead * 4096 - (sslot d n s).ahead.length)) (min (stageRoom d n) (65536 - addr % 65536))

section RunAhead

variable {d : Dev} {n s : Nat} {a : Active} {r : Rep} {addr : Nat} (runs : RunsAhead d n s a r addr)
include runs

theorem runAhead_stops (page : aheadPage d a.kennel addr = false) (ecc : Ecc) :
    runAhead d n s ecc = stopAhead (modSe d n (fun e => { e with pfStop := inc e.pfStop })) n s := by
  obtain ⟨held, last, bound, goes, issued, memory, joins, room, place⟩ := runs
  have left : ¬ a.desc.runahead * 4096 - (sslot d n s).ahead.length = 0 := by omega
  have follows : ((sslot d n s).ahead.isEmpty || sourceEnd a.desc r == (sslot d n s).aheadAt) = true := by simpa using joins
  simp [runAhead, held, last, left, goes, issued, memory, follows, room.ne', place, page]

theorem runAhead_waits (page : aheadPage d a.kennel addr = true) {e : Dev} (waits : takeEntry d n s a.kennel addr = (e, false))
    (new : (homeOf d a.kennel addr, n, s, blockNo addr) ∉ d.watchQ) (ecc : Ecc) : runAhead d n s ecc = countWait e n := by
  obtain ⟨held, last, bound, goes, issued, memory, joins, room, place⟩ := runs
  have left : ¬ a.desc.runahead * 4096 - (sslot d n s).ahead.length = 0 := by omega
  have follows : ((sslot d n s).ahead.isEmpty || sourceEnd a.desc r == (sslot d n s).aheadAt) = true := by simpa using joins
  simp [runAhead, held, last, left, goes, issued, memory, follows, room.ne', place, page, waits, new]

theorem runAhead_fetches (page : aheadPage d a.kennel addr = true) {e e' : Dev} {bs : List Byte} (takes : takeEntry d n s a.kennel addr = (e, true))
    {ecc : Ecc} (reads : memAccess false e a.kennel addr (aheadLen d n s a addr) ecc = (e', .ok, bs)) : runAhead d n s ecc
      = modSlot e' n s (fun y => { y with aheadKennel := a.kennel, aheadAt := if y.ahead.isEmpty then addr else y.aheadAt, ahead := y.ahead ++ bs }) := by
  obtain ⟨held, last, bound, goes, issued, memory, joins, room, place⟩ := runs
  have left : ¬ a.desc.runahead * 4096 - (sslot d n s).ahead.length = 0 := by omega
  have follows : ((sslot d n s).ahead.isEmpty || sourceEnd a.desc r == (sslot d n s).aheadAt) = true := by simpa using joins
  rw [aheadLen] at reads
  simp only [runAhead, held, last, left, goes, issued, memory, follows, room.ne', place, page, takes, reads]
  rfl

end RunAhead

theorem aheadPage_iff (d : Dev) (k addr : Nat) : aheadPage d k addr = true ↔
    tableBad d k addr = false ∧ canRead d k addr = true ∧ (page d k (addr / pageBytes)).st ≠ .zero ∧ (page d k (addr / pageBytes)).st ≠ .lost := by
  simp [aheadPage, and_assoc]

/-- A page that the run-ahead may read delivers what memory holds, under the entry that has been taken. -/
theorem memAccess_ahead {d e : Dev} {k addr n : Nat} (may : aheadPage d k addr = true) (finds : (peek d k addr n).1 = .ok) (entries : EntriesOnly d e) :
    ∃ e', memAccess false e k addr n .clean = (e', .ok, (peek d k addr n).2) ∧ ∃ ms w ps, e' = { d with mdies := ms, watchQ := w, pages := ps } := by
  obtain ⟨table, reads, some', whole⟩ := (aheadPage_iff d k addr).mp may
  obtain ⟨⟨ms, w, rfl⟩, tc⟩ := entries
  have same := peek_congr (d := d) (e := { d with mdies := ms, watchQ := w }) (fun key => ⟨_, rfl⟩) tc rfl rfl k addr n
  obtain ⟨⟨ms', ps, frame⟩, -⟩ := accessOnly_accessed false { d with mdies := ms, watchQ := w } k addr n
  have served := memAccess_ok (d := { d with mdies := ms, watchQ := w }) false n table reads some' whole (same.trans (Prod.ext finds rfl))
  exact ⟨_, served, ms', w, ps, by rw [frame]⟩

/-- R198, R200 to R202. -/
theorem runaheadFetches : Claim.RunaheadFetches := by
  intro n slot s a r addr awake held last y start me bound goes issued memory joins room place len
  have runs : RunsAhead s.d n.val slot.toNat a r addr := ⟨held, last, bound, goes, issued, memory, joins, room, place⟩
  refine ⟨fun page => ?_, fun page takes finds => ?_, fun page waits new => ?_⟩
  · have stops := runAhead_stops runs page .clean
    have keeps (i j : Nat) := sslot_modSe s.d (n := n.val) (f := fun e => { e with pfStop := inc e.pfStop }) rfl i j
    have count := congrArg Se.pfStop (se_modSe s.d n.val (fun e => { e with pfStop := inc e.pfStop }))
    obtain ⟨e, frame⟩ : ∃ e, modSe s.d n.val (fun e => { e with pfStop := inc e.pfStop }) = { s.d with ses := e } := ⟨_, rfl⟩
    generalize modSe s.d n.val (fun e => { e with pfStop := inc e.pfStop }) = L at *
    refine ⟨_, run_becomes awake stops (calm_modSlot (frame ▸ awake.2.of_eq ⟨rfl, rfl⟩ rfl) ..), ?_, ?_, fun i j other => ?_, by rw [frame]; rfl⟩
    · exact (sslot_modSlot ..).trans (by rw [keeps])
    · exact (by rw [stopAhead, modSlot, se_modSe] : (se (stopAhead L n.val slot.toNat) n.val).pfStop = (se L n.val).pfStop).trans count
    · exact (sslot_modSlot_other _ _ other).trans (keeps i j)
  · obtain ⟨e, entry, entries⟩ | entry := takeEntry_cases s.d n.val slot.toNat a.kennel addr
    · obtain ⟨e', reads, ms, w, ps, frame⟩ := memAccess_ahead page finds entries
      refine ⟨_, run_becomes awake (runAhead_fetches runs page entry reads) (calm_modSlot (frame ▸ awake.2.of_eq ⟨rfl, rfl⟩ rfl) ..),
        (sslot_modSlot ..).trans ?_, fun i j other => (sslot_modSlot_other _ _ other).trans (by rw [frame]; rfl), by rw [frame]; rfl⟩
      rw [show sslot e' n.val slot.toNat = y by rw [frame]; rfl]
      simp only [List.isEmpty_iff]
    · rw [entry] at takes
      cases takes
  · obtain ⟨e, entry, -⟩ | entry := takeEntry_cases s.d n.val slot.toNat a.kennel addr
    · rw [entry] at waits
      cases waits
    · rw [if_neg (by simpa using new)] at entry
      have waited := runAhead_waits runs page entry new .clean
      obtain ⟨e, frame⟩ : ∃ e, { s.d with watchQ := s.d.watchQ ++ [me] } = e := ⟨_, rfl⟩
      rw [frame] at waited
      have keeps (i j : Nat) := sslot_modSe e (n := n.val) (f := fun x => { x with pfWait := inc x.pfWait }) rfl i j
      refine ⟨{ s with d := countWait e n.val }, run_becomes awake waited (frame ▸ awake.2.of_eq ⟨rfl, rfl⟩ rfl), ?_, ?_, ?_, fun i j _ => ?_, ?_⟩
      · exact (keeps ..).trans (by rw [← frame]; rfl)
      · exact (congrArg Se.pfWait (se_modSe ..)).trans (by rw [← frame]; rfl)
      · rw [← frame]
        rfl
      · exact (keeps i j).trans (by rw [← frame]; rfl)
      · rw [← frame]
        rfl

end Sys2Proof.Machine

namespace Sys2Proof.Proofs
open Sys2Proof.Machine

/-- Settles O17: the run-ahead by its page and its watch entry, a waiting prefetch by the entry that it takes. -/
theorem runaheadAndWatches : Obligations.RunaheadAndWatches := ⟨runaheadFetches, watchGranted⟩

end Sys2Proof.Proofs

namespace Sys2Proof.Machine

/-! ### What a slot's writes leave alone (R177, R193) -/

theorem keepsQueues_storeWrite (d : Dev) (sp u a : Nat) (bs : List Byte) : KeepsQueues d (storeWrite d sp u a bs) := by
  rw [storeWrite, setStore_frame]
  exact ⟨rfl, rfl, ⟨rfl, rfl⟩, rfl⟩

theorem sendFlit_frame (d : Dev) (p : Nat) (f : Flit) : ∃ ps, sendFlit d p f = { d with ports := ps } := by
  unfold sendFlit
  extract_lets ok
  split
  · exact ⟨_, rfl⟩
  · exact ⟨_, rfl⟩

theorem keepsQueues_sendFlit (d : Dev) (p : Nat) (f : Flit) : KeepsQueues d (sendFlit d p f) := by
  obtain ⟨ps, frame⟩ := sendFlit_frame d p f
  rw [frame]
  exact ⟨rfl, rfl, ⟨rfl, rfl⟩, rfl⟩

theorem keepsQueues_mcastWrite (d : Dev) (n s : Nat) (a : Active) (r : Rep) (off : Nat) (bs : List Byte) : KeepsQueues d (mcastWrite d n s a r off bs) := by
  have windows := KeepsQueues.each d (litMembers (litter d a.desc.litter)) (fun e u => storeWrite e (litSpace (litter d a.desc.litter)) u
    ((litBase (litter d a.desc.litter) : Int) * 64 + mcastByte d a.desc r off).toNat bs) fun _ _ => keepsQueues_storeWrite ..
  unfold mcastWrite
  simp only
  split
  · exact windows
  · exact windows.trans (KeepsQueues.each _ _ _ fun _ _ => KeepsQueues.each _ _ _ fun _ _ => keepsQueues_sendFlit ..)

theorem keepsQueues_writeOut (d : Dev) (n s : Nat) (a : Active) (r : Rep) (off : Nat) (bs : List Byte) : KeepsQueues d (writeOut d n s a r off bs) := by
  unfold writeOut
  split
  · exact keepsQueues_mcastWrite ..
  · exact keepsQueues_storeWrite ..

theorem keepsQueues_modRep (d : Dev) (n s m : Nat) (f : Rep → Rep) : KeepsQueues d (modRep d n s m f) := keepsQueues_modSe ..

theorem keepsQueues_flush (fuel : Nat) (d : Dev) (n s : Nat) : KeepsQueues d (flush fuel d n s) := by
  induction fuel generalizing d with
  | zero => exact .refl d
  | succ f ih =>
    rw [flush.eq_def]
    cases held : (sslot d n s).act with
    | none => exact .refl d
    | some a =>
      simp only
      split
      · exact .refl d
      · split
        · exact keepsQueues_modRep ..
        · split
          · exact .refl d
          · split
            · exact .refl d
            · split
              · exact ((keepsQueues_writeOut ..).trans (keepsQueues_modRep ..)).trans (ih _)
              · exact .refl d

theorem keepsQueues_trimWatches (d : Dev) (n s : Nat) : KeepsQueues d (trimWatches d n s) := by
  obtain ⟨m, w, frame⟩ := trimWatches_frame d n s
  rw [frame]
  exact ⟨rfl, rfl, ⟨rfl, rfl⟩, rfl⟩

theorem keepsQueues_goOn (d : Dev) (n s : Nat) : KeepsQueues d (goOn d n s) := (keepsQueues_flush ..).trans (keepsQueues_trimWatches ..)

/-! ### Reads at the home M-die (R219, R238, R245) -/

/-- The slot's first read `p`, of repetition m, is served at its M-die. -/
structure ReadsNow (d : Dev) (n s : Nat) (a : Active) (m : Nat) (p : Piece) : Prop where
  held : (sslot d n s).act = some a
  first : firstRead a = some (m, p)
  turn : ∀ q ∈ mdieReads d (homeOf d a.kennel p.addr), goesFirst q p = false

section ReadsNow

variable {d d' : Dev} {n s : Nat} {a : Active} {m : Nat} {p : Piece} {bs : List Byte} {ecc : Ecc} (now : ReadsNow d n s a m p)
include now

theorem seMemRead_stages (reads : memRead d a.kennel p.addr p.len ecc = (d', .ok, bs)) : seMemRead d n s ecc = stage d' n s m p bs := by
  obtain ⟨held, first, turn⟩ := now
  have alone : (mdieReads d (homeOf d a.kennel p.addr)).any (fun q => goesFirst q p) = false := by simpa using turn
  simp only [seMemRead, held, first, alone, reads]
  rfl

theorem seMemRead_denied (reads : memRead d a.kennel p.addr p.len ecc = (d', .denied, bs)) : seMemRead d n s ecc = endDesc d' n s .denied := by
  obtain ⟨held, first, turn⟩ := now
  have alone : (mdieReads d (homeOf d a.kennel p.addr)).any (fun q => goesFirst q p) = false := by simpa using turn
  simp only [seMemRead, held, first, alone, reads]
  rfl

theorem seMemRead_poison (reads : memRead d a.kennel p.addr p.len ecc = (d', .poison, bs)) : seMemRead d n s ecc = readFailed d' n s m := by
  obtain ⟨held, first, turn⟩ := now
  have alone : (mdieReads d (homeOf d a.kennel p.addr)).any (fun q => goesFirst q p) = false := by simpa using turn
  simp only [seMemRead, held, first, alone, reads]
  rfl

end ReadsNow

/-- Without a leash, a read that meets an error is a fault of the task. -/
theorem readFailed_faults {d : Dev} {n s : Nat} {a : Active} (held : (sslot d n s).act = some a) (leash : a.desc.leash = 0) (m : Nat) :
    readFailed d n s m = taskFault d a.kennel .task := by
  simp [readFailed, held, leash]

/-- Where the bytes of a read are staged, its slot goes on. -/
theorem stage_held {d : Dev} {n s : Nat} {a : Active} (held : (sslot d n s).act = some a) (m : Nat) (p : Piece) (bs : List Byte) :
    ∃ e, stage d n s m p bs = goOn e n s ∧ (sslot e n s).act = some (withRep a m (fun r => withBytes r p.off bs))
      ∧ (∀ i j, (i, j) ≠ (n, s) → sslot e i j = sslot d i j) ∧ ∃ ses, e = { d with ses := ses } := by
  have keeps (i j : Nat) : sslot (if p.again then modSe d n (fun x => { x with pfRefetch := inc x.pfRefetch }) else d) i j = sslot d i j := by
    split
    · exact sslot_modSe d rfl i j
    · rfl
  obtain ⟨ses, frame⟩ : ∃ ses, (if p.again then modSe d n (fun x => { x with pfRefetch := inc x.pfRefetch }) else d) = { d with ses := ses } := by
    split
    · exact ⟨_, rfl⟩
    · exact ⟨_, rfl⟩
  unfold stage
  generalize (if p.again then modSe d n (fun x => { x with pfRefetch := inc x.pfRefetch }) else d) = b at *
  refine ⟨_, rfl, ?_⟩
  rw [modRep_held ((congrArg SSlot.act (keeps n s)).trans held)]
  exact ⟨congrArg SSlot.act (sslot_modSlot ..), fun i j other => (sslot_modSlot_other _ _ other).trans (keeps i j), _, by rw [frame]; rfl⟩

/-- R208, R219, R234, R238, R245. -/
theorem memoryReadServes : Claim.MemoryReadServes := by
  intro n slot s a m p awake held first turn table pg found
  have now : ReadsNow s.d n.val slot.toNat a m p := ⟨held, first, turn⟩
  refine ⟨fun denied => ?_, fun bs reads finds => ?_, fun reads some' whole poison leash => ?_⟩
  · exact ⟨_, run_settles awake (seMemRead_denied now (memAccess_denied true p.len table denied .clean)), endDesc_ends .denied awake.2 ⟨_, rfl⟩ rfl held⟩
  · obtain ⟨e, serves, only⟩ : ∃ e, memRead s.d a.kennel p.addr p.len .clean = (e, .ok, bs) ∧ AccessOnly s.d e := by
      obtain ⟨zero, rfl⟩ | ⟨some', whole, finds⟩ := finds
      · exact ⟨_, memAccess_zero true p.len table reads zero, accessOnly_modPage ..⟩
      · exact ⟨_, memAccess_ok true p.len table reads some' whole finds, accessOnly_accessed ..⟩
    obtain ⟨⟨ms, ps, frame⟩, -⟩ := only
    obtain ⟨e', stages, mine, others, ses, frame'⟩ := stage_held (d := e) (n := n.val) (s := slot.toNat) (a := a) (by rw [frame]; exact held) m p bs
    refine ⟨e', run_becomes awake ((seMemRead_stages now serves).trans stages) ((keepsQueues_goOn ..).calm ?_), mine, fun i j other => ?_, ?_⟩
    · rw [frame', frame]
      exact awake.2.of_eq ⟨rfl, rfl⟩ rfl
    · rw [others i j other, frame]
      rfl
    · rw [frame', frame]
  · obtain ⟨⟨ms, ps, frame⟩, keeps⟩ := accessOnly_accessed true s.d a.kennel p.addr p.len
    have fails := seMemRead_poison now (memAccess_poison true p.len table reads some' whole poison)
    generalize accessed true s.d a.kennel p.addr p.len = e at *
    refine ⟨modCnt e pg.home (fun c => { c with poisonRd := inc c.poisonRd }), run_settles awake (fails.trans ?_), ?_, ?_⟩
    · have still : (sslot (modCnt e pg.home (fun c => { c with poisonRd := inc c.poisonRd })) n.val slot.toNat).act = some a := by
        rw [frame]
        exact held
      exact readFailed_faults still leash m
    · rw [modCnt, mdie_modMdie, ← keeps]
      rfl
    · rw [frame]
      rfl

end Sys2Proof.Machine

namespace Sys2Proof.Machine

/-! ### What a write at the home M-die changes (R199, R219, R220, R242) -/

/-- Pages, M-dies and what is reported to firmware alone have changed. -/
def UeOnly (d e : Dev) : Prop := ∃ ms ps rs, e = { d with mdies := ms, pages := ps, reports := rs }

theorem UeOnly.trans {a b c : Dev} (first : UeOnly a b) (second : UeOnly b c) : UeOnly a c := by
  obtain ⟨ms, ps, rs, rfl⟩ := first
  obtain ⟨ms', ps', rs', rfl⟩ := second
  exact ⟨ms', ps', rs', rfl⟩

theorem UeOnly.each {α : Type} {f : Dev → α → Dev} (step : ∀ d x, UeOnly d (f d x)) (xs : List α) (d : Dev) : UeOnly d (each d xs f) := by
  induction xs generalizing d with
  | nil => exact ⟨_, _, _, rfl⟩
  | cons x r ih => exact (step d x).trans (ih _)

theorem ueOnly_countUe (d : Dev) (key o : Nat) : UeOnly d (countUe d key o) := by
  unfold countUe
  simp only
  split
  · exact ⟨_, _, _, rfl⟩
  · exact ⟨_, _, _, rfl⟩

theorem ueOnly_poisonLines (d : Dev) (key : Nat) (ls : List Nat) : UeOnly d (poisonLines d key ls) := ⟨_, _, _, rfl⟩

/-- The descriptor with its reads changed by `g`. -/
def rewatched (a : Active) (g : Piece → Piece) : Active := { a with reps := a.reps.map (fun r => { r with pieces := r.pieces.map g }) }

theorem rewatched_id (a : Active) : rewatched a id = a := by simp [rewatched]

theorem rewatched_rewatched (a : Active) (g h : Piece → Piece) : rewatched (rewatched a g) h = rewatched a (h ∘ g) := by simp [rewatched]

theorem restage_act (now k b : Nat) (fresh : Nat → Nat → List Byte) {x : SSlot} {a : Active} (held : x.act = some a) :
    ∃ g, (restage now k b fresh x).1.act = some (rewatched a g) := by
  refine ⟨fun p => if stale k b a p then { p with bytes := none, again := true, issued := some now } else p, ?_⟩
  unfold restage
  simp only
  split <;> simp [held, rewatched]

/-- Where a write discards staged bytes, the slot keeps its descriptor, with its reads to be made again. -/
def StillHolds (s : Nat) (a : Active) (e : Se) : Prop := ∃ g, (Tbl.get {} e.slots s).act = some (rewatched a g)

theorem StillHolds.restaged {s : Nat} {a : Active} {e : Se} (still : StillHolds s a e) (j now k b : Nat) (fresh : Nat → Nat → List Byte) (c : Nat) :
    StillHolds s a { e with slots := Tbl.set {} e.slots j (restage now k b fresh (Tbl.get {} e.slots j)).1, pfRefetch := e.pfRefetch + BitVec.ofNat 32 c } := by
  obtain ⟨g, held⟩ := still
  unfold StillHolds
  simp only [Tbl.get_set]
  split
  next here =>
    obtain ⟨h, staged⟩ := restage_act now k b fresh held
    subst here
    exact ⟨h ∘ g, by rw [staged, rewatched_rewatched]⟩
  next => exact ⟨g, held⟩

theorem foldl_keeps {α β : Type} {P : β → Prop} {f : β → α → β} (step : ∀ b x, P b → P (f b x)) (xs : List α) {b : β} (holds : P b) : P (xs.foldl f b) := by
  induction xs generalizing b with
  | nil => exact holds
  | cons x r ih => exact ih (step b x holds)

theorem invalidate_slot {d : Dev} {n s : Nat} {a : Active} (held : (sslot d n s).act = some a) (k addr len : Nat) :
    ∃ g, (sslot (invalidate d k addr len) n s).act = some (rewatched a g) := by
  have listed : n ∈ Tbl.keys d.ses := by
    by_contra absent
    have empty : se d n = {} := Tbl.get_unlisted (α := Se) {} absent
    rw [sslot, empty] at held
    cases held
  unfold sslot se invalidate
  simp only
  rw [Tbl.get_mapAll, if_pos listed]
  exact foldl_keeps (P := StillHolds s a) (fun e j still => foldl_keeps (fun e b still => still.restaged j (beatNow d) k b _ _) _ still) _ ⟨id, by rw [rewatched_id]; exact held⟩

theorem invalidate_frame (d : Dev) (k addr n : Nat) : ∃ ses, invalidate d k addr n = { d with ses := ses } := ⟨_, rfl⟩

/-- A write poisons and counts what it merges into a bad line, then stores its bytes with fresh check bytes. -/
theorem applyWrite_eq (d : Dev) (k addr : Nat) (bs : List Byte) (ues : List Nat) : ∃ e f, UeOnly d e ∧ applyWrite d k addr bs ues
    = invalidate (tcWrite (setKmem (modPage e (pageKey k (addr / pageBytes)) f) k (Mem.write (kmem e k) addr bs))
      (Tbl.get {} d.pages (pageKey k (addr / pageBytes)) : Page).home k addr bs) k addr bs.length := by
  unfold applyWrite
  extract_lets key ls p merged bad e e'
  have only : UeOnly d e := (UeOnly.each (fun d l => ueOnly_countUe d key (64 * l)) bad d).trans (ueOnly_poisonLines _ key bad)
  clear_value e
  exact ⟨e, _, only, rfl⟩

/-- A write of a near page: its bytes are those of the kennel's memory, and the slots keep their descriptors. -/
theorem applyWrite_writes (d : Dev) (k addr : Nat) (bs : List Byte) (ues : List Nat) :
    (∃ ms ps rs ses, applyWrite d k addr bs ues
      = { d with mdies := ms, pages := ps, reports := rs, ses := ses, mem := Tbl.set [] d.mem k (Mem.write (kmem d k) addr bs) })
    ∧ ∀ n s a, (sslot d n s).act = some a → ∃ g, (sslot (applyWrite d k addr bs ues) n s).act = some (rewatched a g) := by
  obtain ⟨e, f, ⟨ms, ps, rs, frame⟩, writes⟩ := applyWrite_eq d k addr bs ues
  obtain ⟨b, stored⟩ : ∃ b, tcWrite (setKmem (modPage e (pageKey k (addr / pageBytes)) f) k (Mem.write (kmem e k) addr bs))
      (Tbl.get {} d.pages (pageKey k (addr / pageBytes)) : Page).home k addr bs = b := ⟨_, rfl⟩
  obtain ⟨ms', ps', frame'⟩ : ∃ ms' ps', b = { d with mdies := ms', pages := ps', reports := rs, mem := Tbl.set [] d.mem k (Mem.write (kmem d k) addr bs) } :=
    ⟨b.mdies, b.pages, by rw [← stored, frame]; rfl⟩
  rw [writes, stored]
  obtain ⟨ses, frame''⟩ := invalidate_frame b k addr bs.length
  exact ⟨⟨ms', ps', rs, ses, by rw [frame'', frame']⟩, fun n s a held => invalidate_slot (by rw [frame']; exact held) _ _ _⟩

end Sys2Proof.Machine

namespace Sys2Proof.Machine

/-! ### Writes of a slot (R205, R211, R219, R220, R238) -/

/-- A write within one page is one piece. -/
theorem cutPages_one {addr : Nat} {bs : List Byte} (some' : 0 < bs.length) (inside : addr % pageBytes + bs.length ≤ pageBytes) (fuel : Nat) :
    cutPages (fuel + 2) addr bs = [(addr, bs)] := by
  have whole : bs.length ≤ pageBytes - addr % pageBytes := by omega
  have begun : bs.isEmpty = false := by cases bs with
    | nil => cases some'
    | cons b r => rfl
  simp only [cutPages, begun, Bool.false_eq_true, if_false, List.take_of_length_le whole, List.drop_of_length_le whole, List.isEmpty_nil, if_true]

theorem memWriteAll_one {addr : Nat} {bs : List Byte} (some' : 0 < bs.length) (inside : addr % pageBytes + bs.length ≤ pageBytes)
    (d : Dev) (k : Nat) (w : Writer) (ecc : Ecc) : memWriteAll d k addr bs w ecc = memWrite d k addr bs w ecc := by
  rw [memWriteAll, cutPages_one some' inside]
  rfl

section MemWrite

variable {d : Dev} {k addr : Nat} (bs : List Byte) (w : Writer) (table : tableBad d k addr = false)
include table

theorem memWrite_denied (denied : canWrite d k addr = false) (ecc : Ecc) : memWrite d k addr bs w ecc = (d, .denied) := by
  simp [memWrite, table, denied]

variable (writes : canWrite d k addr = true)
include writes

theorem memWrite_near (near : (page d k (addr / pageBytes)).st = .near) : memWrite d k addr bs w .clean = (applyWrite d k addr bs [], .done) := by
  simp [memWrite, table, writes, near]

theorem memWrite_promoting (promoting : (page d k (addr / pageBytes)).st = .promoting) : memWrite d k addr bs w .clean = (waitWrite d k addr bs w, .waiting) := by
  simp [memWrite, table, writes, promoting]

end MemWrite

theorem writer_withRep (a : Active) (m : Nat) {f : Rep → Rep} (keeps : ∀ r, (f r).pushes = r.pushes) :
    writer (withRep a m f) = (writer a).map (fun r => if r.num = m then f r else r) := by
  have same : (fun r : Rep => r.pushes.isNone) ∘ (fun r => if r.num = m then f r else r) = fun r => r.pushes.isNone := by
    funext r
    simp only [Function.comp]
    split
    · rw [keeps]
    · rfl
  simp only [writer, withRep, List.find?_map, same]

theorem writer_rewatched (a : Active) (g : Piece → Piece) : writer (rewatched a g) = (writer a).map (fun r => { r with pieces := r.pieces.map g }) := by
  simp only [writer, rewatched, List.find?_map]
  rfl

/-- The oldest read of repetition m is done with, and watch entries that nothing needs close. -/
def pieceWritten (d : Dev) (n s m : Nat) : Dev := trimWatches (modRep d n s m (fun r => { r with pieces := r.pieces.drop 1 })) n s

theorem pieceWritten_frame (d : Dev) (n s m : Nat) : ∃ ses ms w, pieceWritten d n s m = { d with ses := ses, mdies := ms, watchQ := w } := by
  obtain ⟨ms, w, frame⟩ := trimWatches_frame (modRep d n s m (fun r => { r with pieces := r.pieces.drop 1 })) n s
  exact ⟨_, ms, w, frame⟩

/-- The slot keeps its descriptor, and its writing repetition has one read less. -/
theorem pieceWritten_left {d : Dev} {n s : Nat} {a : Active} {r : Rep} {g : Piece → Piece} {p : Piece} {ps : List Piece} (writes : writer a = some r)
    (oldest : r.pieces = p :: ps) (held : (sslot d n s).act = some (rewatched a g)) : ∃ b r', (sslot (pieceWritten d n s r.num) n s).act = some b
      ∧ writer b = some r' ∧ b.desc = a.desc ∧ r'.pieces.length = ps.length := by
  have next : writer (withRep (rewatched a g) r.num (fun r => { r with pieces := r.pieces.drop 1 })) = some { r with pieces := (r.pieces.map g).drop 1 } := by
    rw [writer_withRep (f := fun r => { r with pieces := r.pieces.drop 1 }) _ _ (fun _ => rfl), writer_rewatched, writes]
    simp
  refine ⟨_, _, ?_, next, rfl, by simp [oldest]⟩
  rw [pieceWritten, sslot_trimWatches, modRep_held held, sslot_modSlot]

/-- What the slot writes next reaches its M-die; the slot then goes on by what became of it. -/
theorem WritesNext.meets {d : Dev} {n : StreamIx} {slot : SlotId} {a : Active} {r : Rep} {p : Piece} {ps : List Piece} {bs : List Byte} {addr : Nat}
    (next : WritesNext d n slot a r p ps bs addr) (ecc : Ecc) : seMemWrite d n.val slot.toNat ecc
      = wroteOut n.val slot.toNat a.kennel (memWrite (served d n.val slot.toNat) a.kennel addr bs (.stream n.val slot.toNat) ecc)
        (fun e => pieceWritten e n.val slot.toNat r.num) := by
  obtain ⟨held, turn, writes, kind, memory, results, pieces, staged, place, some', inside, -⟩ := next
  have act : (sslot d n.val slot.toNat).act = some a := held
  have due : resultDue a.desc r = none := by simp [resultDue, results]
  have map' (e : Dev) : mapDue e a.desc r = false := by simp [mapDue, atRoot, kind]
  have ready : writeReady d a = true := by simp [writeReady, writes, kind, memory, pieces, staged]
  simp only [seMemWrite, act, turn, ready, writes, due, map', pieces, place, staged, Option.getD_some, memWriteAll_one some' inside]
  rfl

theorem served_frame (d : Dev) (n s : Nat) : ∃ ses, served d n s = { d with ses := ses } := ⟨_, rfl⟩

theorem sslot_served (d : Dev) (n s i j : Nat) : sslot (served d n s) i j = sslot d i j := sslot_modSe d rfl i j

/-- R211, R238, R205. -/
theorem memoryWriteDenied : Claim.MemoryWriteDenied := by
  intro n slot s a r p ps bs addr awake next denied
  have meets := next.meets .clean
  obtain ⟨held, -, -, -, -, -, -, -, -, -, -, table⟩ := next
  obtain ⟨ses, frame⟩ := served_frame s.d n.val slot.toNat
  have refused := memWrite_denied (d := served s.d n.val slot.toNat) bs (.stream n.val slot.toNat) (by rw [frame]; exact table) (by rw [frame]; exact denied) .clean
  rw [refused] at meets
  refine ⟨_, run_settles awake meets, endDesc_ends .denied awake.2 ⟨ses, frame⟩ ?_ ?_⟩
  · rw [served, se_modSe]
  · exact (congrArg SSlot.act (sslot_served ..)).trans held

/-- R219, R220. -/
theorem memoryWriteApplies : Claim.MemoryWriteApplies := by
  intro n slot s a r p ps bs addr awake next may pg left
  have meets := next.meets .clean
  obtain ⟨held, -, writes, -, -, -, pieces, -, -, -, -, table⟩ := next
  have act := (congrArg SSlot.act (sslot_served s.d n.val slot.toNat n.val slot.toNat)).trans held
  obtain ⟨ses, frame⟩ := served_frame s.d n.val slot.toNat
  generalize served s.d n.val slot.toNat = b at *
  refine ⟨fun near => ?_, fun promoting => ?_⟩
  · rw [memWrite_near bs (.stream n.val slot.toNat) (by rw [frame]; exact table) (by rw [frame]; exact may) (by rw [frame]; exact near)] at meets
    obtain ⟨⟨ms, pgs, rs, ses', applied⟩, still⟩ := applyWrite_writes b a.kennel addr bs []
    obtain ⟨g, rewatches⟩ := still _ _ _ act
    generalize applyWrite b a.kennel addr bs [] = e at *
    have leaves := pieceWritten_left writes pieces rewatches
    obtain ⟨ses'', ms', w, drops⟩ := pieceWritten_frame e n.val slot.toNat r.num
    replace meets : seMemWrite s.d n.val slot.toNat .clean = pieceWritten e n.val slot.toNat r.num := meets
    generalize pieceWritten e n.val slot.toNat r.num = D at *
    have whole : D = { s.d with ses := ses'', mdies := ms', watchQ := w, pages := pgs, reports := rs, mem := Tbl.set [] s.d.mem a.kennel (Mem.write (kmem s.d a.kennel) addr bs) } := by
      rw [drops, applied, frame]
      rfl
    refine ⟨D, run_settles awake meets, fun quiet => settle_calm _ (awake.2.of_eq ⟨?_, ?_⟩ ?_), ?_, fun k other => ?_, leaves, ?_⟩
    · rw [quiet, awake.2.1.1]
    · rw [whole]
    · rw [whole]
    · rw [whole]
      exact Tbl.get_set_self ..
    · rw [whole]
      exact Tbl.get_set_other _ _ _ _ _ other
    · rw [whole]
  · rw [memWrite_promoting bs (.stream n.val slot.toNat) (by rw [frame]; exact table) (by rw [frame]; exact may) (by rw [frame]; exact promoting)] at meets
    obtain ⟨e, waits⟩ : ∃ e, waitWrite b a.kennel addr bs (.stream n.val slot.toNat) = e := ⟨_, rfl⟩
    rw [waits] at meets
    have leaves := pieceWritten_left (g := id) writes pieces (d := e) (by rw [← waits, rewatched_id]; exact act)
    obtain ⟨ses'', ms', w, drops⟩ := pieceWritten_frame e n.val slot.toNat r.num
    replace meets : seMemWrite s.d n.val slot.toNat .clean = pieceWritten e n.val slot.toNat r.num := meets
    generalize pieceWritten e n.val slot.toNat r.num = D at *
    have whole : D = { s.d with ses := ses'', mdies := ms', watchQ := w, waits := s.d.waits ++ [⟨a.kennel, addr, bs, .stream n.val slot.toNat, s.d.eclk⟩] } := by
      rw [drops, ← waits, frame]
      rfl
    refine ⟨{ s with d := D }, run_becomes awake meets (awake.2.of_eq ⟨by rw [whole], by rw [whole]⟩ (by rw [whole])), leaves, by rw [whole], by rw [whole]⟩

end Sys2Proof.Machine

namespace Sys2Proof.Proofs
open Sys2Proof.Machine

/-- Settles O15: a read by what translation and the tier answer, a write by the state of its page. -/
theorem memoryServes : Obligations.MemoryServes := ⟨memoryReadServes, memoryWriteApplies, memoryWriteDenied⟩

end Sys2Proof.Proofs

namespace Sys2Proof.Machine

/-! ### Flits that the link layer accepts (R253 to R263) -/

/-- Ports alone have changed. -/
def PortsOnly (d e : Dev) : Prop := ∃ ps, e = { d with ports := ps }

theorem PortsOnly.refl (d : Dev) : PortsOnly d d := ⟨_, rfl⟩

theorem PortsOnly.trans {a b c : Dev} (first : PortsOnly a b) (second : PortsOnly b c) : PortsOnly a c := by
  obtain ⟨ps, rfl⟩ := first
  obtain ⟨ps', rfl⟩ := second
  exact ⟨ps', rfl⟩

theorem PortsOnly.each {α : Type} {f : Dev → α → Dev} (step : ∀ d x, PortsOnly d (f d x)) (xs : List α) (d : Dev) : PortsOnly d (each d xs f) := by
  induction xs generalizing d with
  | nil => exact .refl d
  | cons x r ih => exact (step d x).trans (ih _)

theorem PortsOnly.calm {d e : Dev} (only : PortsOnly d e) (calm : Calm d) : Calm e := by
  obtain ⟨ps, rfl⟩ := only
  exact calm.of_eq ⟨rfl, rfl⟩ rfl

theorem portsOnly_modPort (d : Dev) (p : Nat) (f : Port → Port) : PortsOnly d (modPort d p f) := ⟨_, rfl⟩

theorem portsOnly_takeAck (d : Dev) (p a : Nat) : PortsOnly d (takeAck d p a) := by
  unfold takeAck
  simp only
  split
  · exact portsOnly_modPort ..
  · exact .refl d

/-- The link layer changes its ports alone. -/
theorem portsOnly_linkReceive (d : Dev) (p : Nat) (r : RxFlit) : PortsOnly d (linkReceive d p r).1 := by
  unfold linkReceive
  extract_lets x src r' b discard e
  have counted : PortsOnly d b := portsOnly_modPort ..
  have acked : PortsOnly d e := counted.trans (portsOnly_takeAck b p r'.ack)
  have discards (c : Dev) : PortsOnly c (discard c) := portsOnly_modPort ..
  clear_value b e discard
  split
  · exact .refl d
  · split
    · exact (counted.trans (portsOnly_modPort ..)).trans (discards _)
    · split
      · exact acked
      · split
        · exact acked.trans (portsOnly_modPort ..)
        · exact (acked.trans (portsOnly_modPort ..)).trans (discards _)

/-- A flit that passes the checks leaves what the link layer left. -/
theorem rxCheck_accepts {d d' : Dev} {p : Nat} {r : RxFlit} {f : Flit} (accepted : rxCheck d p r = (d', some f)) : PortsOnly d d' := by
  have link := portsOnly_linkReceive d p r
  unfold rxCheck at accepted
  generalize linkReceive d p r = z at *
  obtain ⟨e, received⟩ := z
  cases received with
  | none => cases accepted
  | some g =>
    simp only at accepted
    -- a branch that refuses the flit answers none; one that accepts it answers the device of the link layer
    repeat' split at accepted
    all_goals cases accepted
    all_goals exact link

section Received

variable {d d' : Dev} {p : PortId} {r : RxFlit} {row : FlitRow} (received : Received d p r row d')
include received

theorem Received.calm : Calm d' := (rxCheck_accepts received.2.2).calm received.1.2

theorem Received.row_held : flitRow (held r) = row := received.2.1

/-- The flit goes to its row. -/
theorem Received.receives (f : Dev → Flit → Dev) : receive d p.toNat r row f = f d' (held r) := by
  obtain ⟨-, own, accepted⟩ := received
  have kept : flitRow (held r) = row := own
  simp [receive, own, accepted, kept]

end Received

/-! ### Multicast (R194, R285, R286) -/

/-- A multicast flit goes on to every child port of its tree. -/
def forwarded (d : Dev) (p : Nat) (f : Flit) : Dev :=
  each d (portsOf (tree d (fld f.tsf 63 52)).down) (fun d' q => sendFlit d' q { f with origin := some (p, (port d p).link.freed.getD 2 0) })

theorem mapIdx_index {α : Type} (l : List α) : l.mapIdx (fun i _ => i) = List.range l.length :=
  List.ext_getElem (by simp) fun i h _ => by simp

/-- The only take-up of a port requests a pop for each member of its litter. -/
theorem askTakeUp_asks {d : Dev} {p : Nat} {t : TakeUp} (first : takeUps d p = [t]) (new : t.asked = false) :
    askTakeUp d p = { setTakeUps d p [{ t with asked := true, popsLeft := (litMembers (litter d t.litter)).length }] with
      popReqs := d.popReqs ++ (List.range (litMembers (litter d t.litter)).length).map (fun i => ⟨.zl p, i, litFree (litter d t.litter) + i, t.kennel, d.eclk⟩) } := by
  simp only [askTakeUp, first, new, mapIdx_index]
  exact each_requestPop (setTakeUps d p [{ t with asked := true, popsLeft := (litMembers (litter d t.litter)).length }]) _ (.zl p) id
    (fun i => litFree (litter d t.litter) + i) t.kennel

/-- A take-up that begins asks for its pops before it writes. -/
theorem pumpTakeUp_asks {d : Dev} {p : Nat} {t : TakeUp} (first : takeUps d p = [t]) (new : t.asked = false) (idle : t.pushing = 0) :
    pumpTakeUp d p = askTakeUp (setTakeUps d p [t]) p := by
  simp [pumpTakeUp, first, runTakeUp, new, idle]

theorem forwarded_eq (d : Dev) (p : Nat) (f : Flit) : each d (portsOf (tree d (fld f.tsf 63 52)).down)
    (fun d' q => sendFlit d' q { f with origin := some (p, (port d p).link.freed.getD 2 0) }) = forwarded d p f := rfl

section Mcast

variable {d : Dev} {p : Nat} {f : Flit} (en : (tree d (fld f.tsf 63 52)).en = true) (kennel : (tree d (fld f.tsf 63 52)).kennel = f.ktag)
  (mcast : (tree d (fld f.tsf 63 52)).mcast = true) (leaf : (tree d (fld f.tsf 63 52)).root = false) (parent : (tree d (fld f.tsf 63 52)).upPort = p)

theorem portsOnly_forwarded (d : Dev) (p : Nat) (f : Flit) : PortsOnly d (forwarded d p f) :=
  PortsOnly.each (fun _ _ => sendFlit_frame ..) _ d

include en kennel mcast leaf parent

/-- The flit passes the checks of its tree. -/
theorem mcastFlit_passes : (!(tree d (fld f.tsf 63 52)).en || decide ((tree d (fld f.tsf 63 52)).kennel ≠ f.ktag) || !(tree d (fld f.tsf 63 52)).mcast
    || (tree d (fld f.tsf 63 52)).root || decide ((tree d (fld f.tsf 63 52)).upPort ≠ p)) = false := by
  simp [en, kennel, mcast, leaf, parent]

theorem mcastFlit_forwards (away : (tree d (fld f.tsf 63 52)).localN ≠ 1) : mcastFlit d p f = forwarded d p f := by
  simp only [mcastFlit, mcastFlit_passes en kennel mcast leaf parent, if_pos away]
  rfl

/-- The first flit for a litter of this module begins a take-up. -/
theorem mcastFlit_begins (here : (tree d (fld f.tsf 63 52)).localN = 1) (enabled : litEn (litter d (fld f.tsf 51 42)) = true)
    (own : litKennel (litter d (fld f.tsf 51 42)) = f.ktag) (some' : 0 < (litMembers (litter d (fld f.tsf 51 42))).length) (first : bit f.tsf 41 = true)
    (idle : takeUps d p = []) : mcastFlit d p f = askTakeUp (setTakeUps (forwarded d p f) p [{
        litter := fld f.tsf 51 42, kennel := f.ktag, ofs := fld f.tsf 37 0
        data := [(fld f.tsf 37 0, f.pay.take (64 * (fld f.tsf 39 38 + 1)), bit f.tsf 40, (port d p).link.freed.getD 2 0)] }]) p := by
  obtain ⟨ps, frame⟩ := portsOnly_forwarded d p f
  have same (l : Nat) : litter (forwarded d p f) l = litter d l := by rw [frame]; rfl
  have none' : takeUps (forwarded d p f) p = [] := by rw [frame]; exact idle
  have members : (litMembers (litter d (fld f.tsf 51 42))).isEmpty = false := by simpa [List.isEmpty_iff, ← List.length_eq_zero_iff] using some'.ne'
  have begins : mcastFlit d p f = pumpTakeUp (setTakeUps (setTakeUps (forwarded d p f) p [{ litter := fld f.tsf 51 42, kennel := f.ktag, ofs := fld f.tsf 37 0 }]) p
      (addData [{ litter := fld f.tsf 51 42, kennel := f.ktag, ofs := fld f.tsf 37 0 }] (fld f.tsf 51 42)
        (fld f.tsf 37 0, f.pay.take (64 * (fld f.tsf 39 38 + 1)), bit f.tsf 40, (port d p).link.freed.getD 2 0))) p := by
    simp only [mcastFlit, mcastFlit_passes en kennel mcast leaf parent, forwarded_eq, here, same, enabled, own, members, first, none', List.nil_append,
      takeUps_setTakeUps, if_true, ne_eq, not_true_eq_false, decide_false, Bool.not_true, Bool.or_self, Bool.false_eq_true, if_false]
  have joined (t : TakeUp) (x : Nat × List Byte × Bool × Nat) (none' : t.data = []) : addData [t] t.litter x = [{ t with data := [x] }] := by simp [addData, none']
  rw [begins, setTakeUps_setTakeUps, joined { litter := fld f.tsf 51 42, kennel := f.ktag, ofs := fld f.tsf 37 0 } _ rfl,
    pumpTakeUp_asks (takeUps_setTakeUps ..) rfl rfl, setTakeUps_setTakeUps]

end Mcast

/-- R194, R285, R286. -/
theorem mcastForwards : Claim.McastForwards := by
  intro p s r d' received t buffer fwd ln l members en kennel mcast leaf parent
  have goes : receive s.d p.toNat r .mcast (fun d f => mcastFlit d p.toNat f) = mcastFlit d' p.toNat (held r) := received.receives _
  have calm : Calm fwd := (portsOnly_forwarded d' p.toNat (held r)).calm received.calm
  refine ⟨fun away => run_becomes received.1 (goes.trans (mcastFlit_forwards en kennel mcast leaf parent away)) calm, fun here enabled own some' first idle => ?_⟩
  have begins := goes.trans (mcastFlit_begins en kennel mcast leaf parent here enabled own some' first idle)
  rw [askTakeUp_asks (takeUps_setTakeUps ..) rfl, setTakeUps_setTakeUps] at begins
  obtain ⟨ps, frame⟩ := portsOnly_forwarded d' p.toNat (held r)
  refine run_becomes received.1 (begins.trans ?_) (calm.of_eq ⟨rfl, rfl⟩ rfl)
  show _ = ({ setTakeUps (forwarded d' p.toNat (held r)) p.toNat _ with popReqs := _ } : Dev)
  rw [frame]
  rfl

end Sys2Proof.Machine

namespace Sys2Proof.Machine

/-! ### Peer reads (R260, R268, R287) -/

theorem ftype_of_readRsp {f : Flit} (row : flitRow f = .readRsp) : f.ftype = 7 := by
  unfold flitRow at row
  grind

/-- A routed flit goes on through the port of its route, one hop more. -/
def hopped (d : Dev) (f : Flit) : Dev :=
  sendFlit d (Tbl.get 0 d.epochRun.routes (fld f.tsf 63 52) % 16) { f with tsf := (f.tsf &&& ~~~(mask 64 27 24)) ||| put 64 24 (fld f.tsf 27 24 + 1) }

theorem routeFlit_hops {d : Dev} {p : Nat} {f : Flit} (route : 16 ≤ Tbl.get 0 d.epochRun.routes (fld f.tsf 63 52))
    (fits : tooLongFor d (Tbl.get 0 d.epochRun.routes (fld f.tsf 63 52) % 16) f = false) : routeFlit d p f = hopped d f := by
  simp only [routeFlit, fits, Nat.not_lt.mpr route]
  rfl

theorem readResponses_last {d d2 : Dev} {k dst rid addr ofs : Nat} {ecc : Ecc} {bs : List Byte} (reads : memReadAll d k addr 256 ecc = (d2, .ok, bs))
    (route : 16 ≤ Tbl.get 0 d2.epochRun.routes dst) (fuel : Nat) : readResponses (fuel + 2) d k dst rid addr ofs 1 ecc
      = sendFlit d2 (Tbl.get 0 d2.epochRun.routes dst % 16) {
          ftype := 7, tc := 2, ktag := k, pay := bs
          tsf := put 64 52 dst ||| put 64 40 d2.epochRun.moduleNo ||| put 64 28 rid ||| put 64 8 ofs ||| put 64 0 0 } := by
  simp [readResponses, reads, route, rstat]

section ReadReq

variable {d : Dev} {p : Nat} {f : Flit} (ecc : Ecc) (hop : fld f.tsf 27 24 ≠ 15) (fits : tooLongFor d p f = false)
include hop fits

theorem readReq_routes (away : fld f.tsf 63 52 ≠ d.epochRun.moduleNo) : readReq d p f ecc = routeFlit d p f := by
  simp [readReq, fits, hop, away]

theorem readReq_serves (here : fld f.tsf 63 52 = d.epochRun.moduleNo) (one : reqLen f = 1) (inside : leNat (f.pay.take 6) < 2 ^ 38) (clear : ∀ x ∈ f.pay.drop 8, x = 0) :
    readReq d p f ecc = readResponses 4096 d f.ktag (fld f.tsf 51 40) (fld f.tsf 39 28) (leNat (f.pay.take 5) % 2 ^ 38 * 64) 0 1 ecc := by
  have rsvd : (f.pay.drop 8).any (· != 0) = false := by simpa using clear
  have passes : (decide (reqLen f = 0) || decide (reqLen f > 4096) || decide (leNat (f.pay.take 6) ≥ 2 ^ 38) || (f.pay.drop 8).any (· != 0)) = false := by
    rw [one, rsvd, decide_eq_false (Nat.not_le.mpr inside)]
    rfl
  simp only [readReq, passes]
  simp [fits, hop, here, one]

end ReadReq

theorem readRsp_routes {d : Dev} {p : Nat} {f : Flit} (hop : fld f.tsf 27 24 ≠ 15) (goes : stoppedTask d f.ktag = false)
    (away : fld f.tsf 63 52 ≠ d.epochRun.moduleNo) : readRsp d p f = routeFlit d p f := by
  simp [readRsp, hop, goes, away]

/-- After its last hop a flit is rejected. -/
theorem readReq_last {d : Dev} {p : Nat} {f : Flit} (ecc : Ecc) (hop : fld f.tsf 27 24 = 15) : readReq d p f ecc = rejectFlit d p f.ktag := by
  simp [readReq, hop]

theorem readRsp_last {d : Dev} {p : Nat} {f : Flit} (hop : fld f.tsf 27 24 = 15) : readRsp d p f = rejectFlit d p f.ktag := by
  simp [readRsp, hop]

/-- R260, R268, R287. -/
theorem peerReadsRoute : Claim.PeerReadsRoute := by
  intro p s r d' ecc f e on away
  refine ⟨fun received ⟨module, hop, route⟩ fits onward => ?_, fun received ⟨module, hop, route⟩ goes => ?_, fun hop => ⟨fun received => ?_, fun received => ?_⟩,
    fun received hop module fits one inside clear d2 bs reads => ?_⟩
  · exact run_becomes received.1 ((received.receives _).trans ((readReq_routes ecc hop fits module).trans (routeFlit_hops route onward)))
      ((keepsQueues_sendFlit ..).calm received.calm)
  · have fits : tooLongFor d' (e % 16) f = false := by simp [tooLongFor, show f.ftype = 7 from ftype_of_readRsp received.row_held]
    exact run_becomes received.1 ((received.receives _).trans ((readRsp_routes hop goes module).trans (routeFlit_hops route fits)))
      ((keepsQueues_sendFlit ..).calm received.calm)
  · exact run_settles received.1 ((received.receives _).trans (readReq_last ecc hop))
  · exact run_settles received.1 ((received.receives _).trans (readRsp_last hop))
  · intro back route
    exact run_settles received.1 ((received.receives _).trans ((readReq_serves ecc hop fits module one inside clear).trans (readResponses_last reads route 4094)))

/-- The flit answers the read `q` of this module. -/
structure AnswersRead (d : Dev) (f : Flit) (rid : Nat) (q : PeerRead) : Prop where
  module : fld f.tsf 63 52 = d.epochRun.moduleNo
  hop : fld f.tsf 27 24 ≠ 15
  goes : stoppedTask d f.ktag = false
  number : rid = fld f.tsf 39 28
  read : Tbl.get none d.reads rid = some q
  kennel : q.kennel = f.ktag

/-- The read has been answered. -/
def readDone (d : Dev) (rid : Nat) : Dev := { d with reads := Tbl.set none d.reads rid none }

section AnswersRead

variable {d : Dev} {p : Nat} {f : Flit} {rid : Nat} {q : PeerRead} (answers : AnswersRead d f rid q)
include answers

theorem readRsp_more (fine : fld f.tsf 7 0 = 0) (more : q.got + 1 < q.len) :
    readRsp d p f = { d with reads := Tbl.set none d.reads rid (some { q with got := q.got + 1, bytes := q.bytes ++ f.pay }) } := by
  obtain ⟨module, hop, goes, rfl, read, kennel⟩ := answers
  have left : ¬ q.len ≤ q.got + 1 := by omega
  simp [readRsp, module, hop, goes, read, kennel, fine, left]

theorem readRsp_cancelled (dead : q.live = false) (ends : fld f.tsf 7 0 ≠ 0 ∨ q.len ≤ q.got + 1) : readRsp d p f = readDone d rid := by
  obtain ⟨module, hop, goes, rfl, read, kennel⟩ := answers
  by_cases fine : fld f.tsf 7 0 = 0
  · have last : q.len ≤ q.got + 1 := ends.resolve_left (absurd fine)
    simp [readRsp, readDone, module, hop, goes, read, kennel, fine, last, dead]
  · simp [readRsp, readDone, module, hop, goes, read, kennel, dead]

variable (live : q.live = true)
include live

theorem readRsp_denied (rstat : fld f.tsf 7 0 = 5) : readRsp d p f = endDesc (readDone d rid) q.engine q.slot .denied := by
  obtain ⟨module, hop, goes, rfl, read, kennel⟩ := answers
  simp [readRsp, readDone, module, hop, goes, read, kennel, rstat, live]

theorem readRsp_fails (some' : 1 ≤ fld f.tsf 7 0) (few : fld f.tsf 7 0 ≤ 4) : readRsp d p f = readFailed (readDone d rid) q.engine q.slot q.rep := by
  obtain ⟨module, hop, goes, rfl, read, kennel⟩ := answers
  have bad : fld f.tsf 7 0 ≠ 0 := by omega
  have other : fld f.tsf 7 0 ≠ 5 := by omega
  simp [readRsp, readDone, module, hop, goes, read, kennel, other, live]

theorem readRsp_stages {a : Active} {y : Rep} {x : Piece} (held : (sslot d q.engine q.slot).act = some a) (fine : fld f.tsf 7 0 = 0) (last : q.len ≤ q.got + 1)
    (rep : a.reps.find? (fun x => x.num == q.rep) = some y) (piece : y.pieces.find? (fun x => x.off == q.off) = some x) :
    readRsp d p f = stage (readDone d rid) q.engine q.slot q.rep x ((q.bytes ++ f.pay).take x.len) := by
  obtain ⟨module, hop, goes, rfl, read, kennel⟩ := answers
  have held' : (sslot (readDone d (fld f.tsf 39 28)) q.engine q.slot).act = some a := held
  rw [readDone] at *
  simp [readRsp, module, hop, goes, read, kennel, fine, last, live, held', rep, piece]

end AnswersRead

theorem peerTimeout_late {d : Dev} {rid : Nat} {q : PeerRead} (read : Tbl.get none d.reads rid = some q) (late : q.beat + 256 ≤ beatNow d) :
    peerTimeout d rid = taskFault { d with reads := Tbl.set none d.reads rid none } q.kennel .task := by
  simp [peerTimeout, read, late]

theorem peerTimeout_early {d : Dev} {rid : Nat} {q : PeerRead} (read : Tbl.get none d.reads rid = some q) (early : beatNow d < q.beat + 256) :
    peerTimeout d rid = d := by
  simp [peerTimeout, read, Nat.not_le.mpr early]

/-- R287. -/
theorem peerReadsDeliver : Claim.PeerReadsDeliver := by
  intro p s r d' n slot a q rid
  refine ⟨fun received module hop goes number read kennel => ?_, fun awake read => ⟨fun late => ?_, fun early => ?_⟩⟩
  · intro gone
    have answers : AnswersRead d' (held r) rid.toNat q := ⟨module, hop, goes, number, read, kennel⟩
    have comes : receive s.d p.toNat r .readRsp (fun d f => readRsp d p.toNat f) = readRsp d' p.toNat (held r) := received.receives _
    have calm : Calm gone := received.calm.of_eq ⟨rfl, rfl⟩ rfl
    refine ⟨fun fine more => ?_, fun dead ends => ?_, fun live engine place inSlot => ?_⟩
    · exact run_becomes received.1 (comes.trans (readRsp_more answers fine more)) (received.calm.of_eq ⟨rfl, rfl⟩ rfl)
    · exact run_becomes received.1 (comes.trans (readRsp_cancelled answers dead ends)) calm
    · have act : (sslot d' q.engine q.slot).act = some a := by
        rw [engine, place]
        exact inSlot
      refine ⟨fun y x fine last rep piece => ?_, fun denied => ?_, fun some' few leash => ?_⟩
      · obtain ⟨e, stages, mine, others, ses, frame⟩ := stage_held (d := gone) act q.rep x ((q.bytes ++ r.flit.pay).take x.len)
        have place' : x.off = q.off := by simpa using List.find?_some piece
        have all := (comes.trans (readRsp_stages answers live act fine last rep piece)).trans stages
        rw [engine, place] at all mine others
        rw [place'] at mine
        refine ⟨e, run_becomes received.1 all ((keepsQueues_goOn ..).calm ?_), mine, others, ?_⟩
        · rw [frame]
          exact calm.of_eq ⟨rfl, rfl⟩ rfl
        · rw [frame]
      · refine ⟨_, run_settles received.1 (comes.trans (readRsp_denied answers live denied)), ?_⟩
        rw [engine, place]
        exact endDesc_ends .denied calm ⟨_, rfl⟩ rfl inSlot
      · exact run_settles received.1 ((comes.trans (readRsp_fails answers live some' few)).trans (readFailed_faults (d := gone) act leash q.rep))
  · exact run_settles awake (peerTimeout_late read late)
  · exact run_becomes awake (peerTimeout_early read early) awake.2

end Sys2Proof.Machine

namespace Sys2Proof.Proofs
open Sys2Proof.Machine

/-- Settles O25: a flit that the link layer accepts goes to its row; a multicast by its tree, a read by its route, an answer by the read that waits. -/
theorem mcastAndPeerReads : Obligations.McastAndPeerReads := ⟨mcastForwards, peerReadsRoute, peerReadsDeliver⟩

end Sys2Proof.Proofs

namespace Sys2Proof.Machine

/-! ### Staging (Table 6-1) -/

section Sums

variable {α : Type} (g : α → Nat) (t : Tbl α) (k : Nat)

theorem Tbl.sum_insert (v : α) : ((Tbl.insert t k v).map (fun z => g z.2)).sum = (t.map (fun z => g z.2)).sum + g v := by
  induction t with
  | nil => simp [Tbl.insert]
  | cons p r ih =>
    unfold Tbl.insert
    split
    · simp only [List.map_cons, List.sum_cons]
      omega
    · simp only [List.map_cons, List.sum_cons, ih]
      omega

theorem Tbl.sum_erase {d : α} (none' : g d = 0) : ((Tbl.erase t k).map (fun z => g z.2)).sum + g (Tbl.get d t k) ≤ (t.map (fun z => g z.2)).sum := by
  have smaller (r : Tbl α) : ((Tbl.erase r k).map (fun z => g z.2)).sum ≤ (r.map (fun z => g z.2)).sum :=
    (List.Sublist.map _ List.filter_sublist).sum_le_sum fun _ _ => Nat.zero_le _
  induction t with
  | nil => simp [Tbl.erase, Tbl.get, none']
  | cons p r ih =>
    by_cases here : p.1 = k
    · have rest := smaller r
      simp only [Tbl.erase, Tbl.get, here, List.filter_cons, bne_self_eq_false, Bool.false_eq_true, if_false, if_true, List.map_cons, List.sum_cons] at rest ⊢
      omega
    · have kept : (p.1 != k) = true := by simpa using here
      simp only [Tbl.erase, Tbl.get, here, kept, List.filter_cons, if_false, if_true, List.map_cons, List.sum_cons] at ih ⊢
      omega

/-- A table's sum grows at most by what the written entry grows. -/
theorem Tbl.sum_set [DecidableEq α] {d : α} (none' : g d = 0) (v : α) :
    ((Tbl.set d t k v).map (fun z => g z.2)).sum + g (Tbl.get d t k) ≤ (t.map (fun z => g z.2)).sum + g v := by
  have less := Tbl.sum_erase g t k none'
  unfold Tbl.set
  split
  · omega
  · rw [Tbl.sum_insert]
    omega

end Sums

/-- Staging grows at most by what the slot's own grows. -/
theorem staged_modSlot (d : Dev) (n s : Nat) (f : SSlot → SSlot) :
    staged (modSlot d n s f) n + slotStaged (sslot d n s) ≤ staged d n + slotStaged (f (sslot d n s)) := by
  unfold staged
  rw [modSlot, se_modSe]
  exact Tbl.sum_set slotStaged (se d n).slots s (d := {}) rfl (f (sslot d n s))

theorem staged_trimWatches (d : Dev) (n s m : Nat) : staged (trimWatches d n s) m = staged d m := by rw [staged, se_trimWatches, staged]

/-! ### A slot at work (R168, R177) -/

/-- From device `d0` on, the slot has become `y`, as far as its engine, the stores and the watches know: what it stages beyond what it
staged then is all that its engine stages beyond that. -/
structure WorksOn (d0 d : Dev) (n s : Nat) (y : SSlot) : Prop where
  slot : sslot d n s = y
  others : ∀ i j, (i, j) ≠ (n, s) → sslot d i j = sslot d0 i j
  staged : staged d n + slotStaged (sslot d0 n s) ≤ Machine.staged d0 n + slotStaged y
  frame : ∃ ses ms w t c b, d = { d0 with ses := ses, mdies := ms, watchQ := w, tiles := t, caches := c, dies := b }

section WorksOn

variable {d0 d : Dev} {n s : Nat} {y : SSlot}

theorem WorksOn.modSlot (h : WorksOn d0 d n s y) (f : SSlot → SSlot) : WorksOn d0 (modSlot d n s f) n s (f y) := by
  obtain ⟨slot, others, staged, ses, ms, w, t, c, b, frame⟩ := h
  have grows := staged_modSlot d n s f
  rw [slot] at grows
  obtain ⟨ses', only⟩ : ∃ ses', Machine.modSlot d n s f = { d with ses := ses' } := ⟨_, rfl⟩
  refine ⟨by rw [sslot_modSlot, slot], fun i j other => (sslot_modSlot_other _ _ other).trans (others i j other), by omega, ses', ms, w, t, c, b, by rw [only, frame]⟩

theorem WorksOn.trimWatches (h : WorksOn d0 d n s y) : WorksOn d0 (trimWatches d n s) n s y := by
  obtain ⟨slot, others, staged, ses, ms, w, t, c, b, frame⟩ := h
  obtain ⟨ms', w', trims⟩ := trimWatches_frame d n s
  refine ⟨by rw [sslot_trimWatches, slot], fun i j other => by rw [sslot_trimWatches, others i j other], by rw [staged_trimWatches]; exact staged, ses, ms', w', t, c, b, ?_⟩
  rw [trims, frame]

theorem WorksOn.storeWrite (h : WorksOn d0 d n s y) (sp u a : Nat) (bs : List Byte) : WorksOn d0 (storeWrite d sp u a bs) n s y := by
  obtain ⟨slot, others, staged, ses, ms, w, t, c, b, frame⟩ := h
  have writes : Machine.storeWrite d sp u a bs = { d with tiles := (Machine.storeWrite d sp u a bs).tiles, caches := (Machine.storeWrite d sp u a bs).caches, dies := (Machine.storeWrite d sp u a bs).dies } := setStore_frame ..
  generalize Machine.storeWrite d sp u a bs = e at *
  have same (i j : Nat) : sslot e i j = sslot d i j := by rw [writes]; rfl
  refine ⟨(same ..).trans slot, fun i j other => (same i j).trans (others i j other), ?_, ses, ms, w, e.tiles, e.caches, e.dies, ?_⟩
  · have eq : Machine.staged e n = Machine.staged d n := by rw [writes]; rfl
    omega
  · rw [writes, frame]

theorem WorksOn.calm (h : WorksOn d0 d n s y) (calm : Calm d0) : Calm d := by
  obtain ⟨-, -, -, ses, ms, w, t, c, b, frame⟩ := h
  rw [frame]
  exact calm.of_eq ⟨rfl, rfl⟩ rfl

theorem worksOn_served (d : Dev) (n s : Nat) : WorksOn d (served d n s) n s (sslot d n s) := by
  obtain ⟨ses, frame⟩ := served_frame d n s
  refine ⟨sslot_served .., fun i j _ => sslot_served .., ?_, ses, d.mdies, d.watchQ, d.tiles, d.caches, d.dies, frame⟩
  rw [staged, served, se_modSe]
  rfl

end WorksOn

end Sys2Proof.Machine

namespace Sys2Proof.Machine

/-! ### Reads of a COPY from a store (R168, R177) -/

/-- The repetition after c of its bytes have become reads, of which `ps` have not been written. -/
def readUpTo (r : Rep) (c : Nat) (ps : List Piece) : Rep := { r with reading := true, frozen := [], cursor := c, pieces := ps }

/-- The descriptor with that repetition as its only one. -/
def copying (a : Active) (r : Rep) (c : Nat) (ps : List Piece) (begun : Bool) : Active := { a with started := begun, reps := [readUpTo r c ps] }

/-- How far the next read goes. -/
def readLen (d : Dev) (n : Nat) (x : Desc) (c : Nat) : Nat := min (min (rowBytes x - c % rowBytes x) (stageRoom d n / 64 * 64)) 65536

/-- The next read of a COPY from a store. -/
def storePiece (d : Dev) (n : Nat) (x : Desc) (r : Rep) (c : Nat) : Piece :=
  let p := placeOf x r true
  let addr := (srcRow x r (c / rowBytes x) + (c % rowBytes x : Nat)).toNat
  { off := c, addr := addr, len := readLen d n x c, src := .store, issued := some (beatNow d)
    bytes := some (Mem.read (store d p.sp (unitOf p.sp p.eng)) addr (readLen d n x c)) }

/-- A COPY from a store: its source is one in every row. -/
structure StoreCopy (a : Active) (r : Rep) : Prop where
  kind : a.desc.kind = 1
  space : isStore (placeOf a.desc r true).sp = true
  base : 0 ≤ (placeOf a.desc r true).base
  pops : r.popsLeft = 0
  whole : r.stopRow = none
  writes : r.pushes = none

section StoreCopy

variable {d : Dev} {n s : Nat} {a : Active} {r : Rep} {c : Nat} {ps : List Piece} {b : Bool} (copy : StoreCopy a r)
include copy

theorem reader_copying : reader (copying a r c ps b) = if c < repBytes a.desc r then some (readUpTo r c ps) else none := by
  show (if (r.popsLeft = 0 && (!true || decide (c < repBytes a.desc r))) = true then _ else _) = _
  simp [copy.pops]

/-- Run-ahead bytes go as the first row is read from a store. -/
def clipped (d : Dev) (n s c : Nat) : Dev := if c = 0 then modSlot d n s (fun x => { x with ahead := [] }) else d

theorem nextRead_store (room : readLen d n a.desc c ≠ 0) : nextRead d n s (copying a r c ps b) (readUpTo r c ps)
    = (addPiece (clipped d n s c) n s r.num (storePiece d n a.desc r c), true) := by
  have goes (i : Nat) : stopsAt a.desc (readUpTo r c ps) i = false := by simp [stopsAt, copy.kind]
  have row (i : Nat) : tableRow a.desc (readUpTo r c ps) i = some i := by simp [tableRow, copy.kind]
  have src : rowsFrom d a.desc (readUpTo r c ps) = .store := if_pos copy.space
  have clips (k : Nat) (row : Int) (len : Nat) : modSlot d n s (clipAhead k .store row len) = modSlot d n s (fun x => { x with ahead := [] }) := rfl
  have some' : min (rowBytes a.desc - c % rowBytes a.desc) (stageRoom d n / 64 * 64) ≠ 0 := fun none' => room (by rw [readLen, none']; rfl)
  have desc : (copying a r c ps b).desc = a.desc := rfl
  have cursor : (readUpTo r c ps).cursor = c := rfl
  have num : (readUpTo r c ps).num = r.num := rfl
  simp only [nextRead, desc, cursor, num, goes, row, src, clips, some', Bool.false_eq_true, if_false]
  by_cases first : c = 0
  · rw [clipped]
    simp only [if_pos first]
    rfl
  · rw [clipped]
    simp only [if_neg first]
    rfl

theorem repBytes_rows : repBytes a.desc r = a.desc.rows * rowBytes a.desc := by
  rw [repBytes, rowsOut, copy.whole]
  rfl

end StoreCopy

/-- The stores of pairs and C-dies are as before. -/
def SameStores (d e : Dev) : Prop := e.tiles = d.tiles ∧ e.caches = d.caches ∧ e.dies = d.dies

theorem SameStores.refl (d : Dev) : SameStores d d := ⟨rfl, rfl, rfl⟩

theorem SameStores.trans {a b c : Dev} (first : SameStores a b) (second : SameStores b c) : SameStores a c :=
  ⟨second.1.trans first.1, second.2.1.trans first.2.1, second.2.2.trans first.2.2⟩

theorem SameStores.store {d e : Dev} (same : SameStores d e) (sp u : Nat) : store e sp u = store d sp u := by
  obtain ⟨tiles, caches, dies⟩ := same
  unfold Machine.store
  rw [tiles, caches, dies]

theorem sameStores_modSlot (d : Dev) (n s : Nat) (f : SSlot → SSlot) : SameStores d (modSlot d n s f) := ⟨rfl, rfl, rfl⟩

theorem sameStores_trimWatches (d : Dev) (n s : Nat) : SameStores d (trimWatches d n s) := by
  obtain ⟨m, w, frame⟩ := trimWatches_frame d n s
  rw [frame]
  exact ⟨rfl, rfl, rfl⟩

/-- The slot has read c bytes of its COPY since device `d0`, and has still to write `ps`. -/
structure CopyAt (d0 d : Dev) (n s : Nat) (a : Active) (r : Rep) (c : Nat) (ps : List Piece) : Prop where
  works : ∃ y b, WorksOn d0 d n s y ∧ y.act = some (copying a r c ps b) ∧ y.ahead.length ≤ (sslot d0 n s).ahead.length ∧ (b = true ∨ c = 0)
  unit : 64 ∣ c
  inside : c ≤ repBytes a.desc r

/-- The next read has joined the repetition. -/
def readJoined (d : Dev) (n s : Nat) (a : Active) (r : Rep) (c : Nat) : Dev := addPiece (clipped d n s c) n s r.num (storePiece d n a.desc r c)

section CopyAt

variable {d0 d : Dev} {n s : Nat} {a : Active} {r : Rep} {c : Nat} {ps : List Piece} (copy : StoreCopy a r)

theorem CopyAt.held (at' : CopyAt d0 d n s a r c ps) : ∃ b, (sslot d n s).act = some (copying a r c ps b) ∧ (b = true ∨ c = 0) := by
  obtain ⟨⟨y, b, works, act, -, begun⟩, -, -⟩ := at'
  exact ⟨b, by rw [works.slot, act], begun⟩

theorem sameStores_readJoined (d : Dev) (n s : Nat) (a : Active) (r : Rep) (c : Nat) : SameStores d (readJoined d n s a r c) := by
  have clips : SameStores d (clipped d n s c) := by
    unfold clipped
    split
    · exact sameStores_modSlot ..
    · exact .refl d
  exact (clips.trans (sameStores_modSlot ..)).trans (sameStores_modSlot ..)

theorem readLen_unit (d : Dev) (n : Nat) (x : Desc) {c : Nat} (unit : 64 ∣ c) : 64 ∣ readLen d n x c := by
  have row : 64 ∣ rowBytes x := Dvd.intro_left _ rfl
  have ofs : 64 ∣ c % rowBytes x := (Nat.dvd_mod_iff row).mpr unit
  have left : 64 ∣ rowBytes x - c % rowBytes x := Nat.dvd_sub row ofs
  have room : 64 ∣ stageRoom d n / 64 * 64 := Dvd.intro_left _ rfl
  unfold readLen
  omega

include copy

/-- A row is cut off at its end. -/
theorem readLen_inside (d : Dev) (n : Nat) (more : c < repBytes a.desc r) :
    c % rowBytes a.desc + readLen d n a.desc c ≤ rowBytes a.desc ∧ c / rowBytes a.desc < a.desc.rows ∧ c + readLen d n a.desc c ≤ repBytes a.desc r := by
  rw [repBytes_rows copy] at more ⊢
  have some' : 0 < rowBytes a.desc := Nat.pos_of_ne_zero fun none' => by simp [none'] at more
  have row : c / rowBytes a.desc < a.desc.rows := Nat.div_lt_of_lt_mul (by rwa [Nat.mul_comm])
  have ofs := Nat.mod_lt c some'
  have parts := Nat.div_add_mod c (rowBytes a.desc)
  have fits : c % rowBytes a.desc + readLen d n a.desc c ≤ rowBytes a.desc := by
    unfold readLen
    omega
  have below : rowBytes a.desc * (c / rowBytes a.desc) + rowBytes a.desc ≤ a.desc.rows * rowBytes a.desc := by
    rw [← Nat.mul_succ, Nat.mul_comm]
    exact Nat.mul_le_mul_right _ row
  exact ⟨fits, row, by omega⟩

theorem readLen_pos (d : Dev) (n : Nat) (more : c < repBytes a.desc r) (unit : 64 ∣ c) (room : 64 ≤ stageRoom d n) : 64 ≤ readLen d n a.desc c := by
  rw [repBytes_rows copy] at more
  have some' : 0 < rowBytes a.desc := Nat.pos_of_ne_zero fun none' => by simp [none'] at more
  have ofs := Nat.mod_lt c some'
  have least : 0 < readLen d n a.desc c := by
    unfold readLen
    omega
  exact Nat.le_of_dvd least (readLen_unit d n a.desc unit)

/-- With staging for it, one more read joins the repetition, and the slot goes on. -/
theorem CopyAt.reads (at' : CopyAt d0 d n s a r c ps) (more : c < repBytes a.desc r) (room : 64 ≤ stageRoom d n) (f : Nat) (ecc : Ecc) :
    readOn (f + 1) d n s ecc = readOn f (goOn (readJoined d n s a r c) n s) n s ecc
      ∧ CopyAt d0 (readJoined d n s a r c) n s a r (c + readLen d n a.desc c) (ps ++ [storePiece d n a.desc r c]) := by
  have inside := (readLen_inside copy d n more).2.2
  have unit := (Nat.dvd_add_iff_right at'.unit).mp (readLen_unit d n a.desc at'.unit)
  have positive := readLen_pos copy d n more at'.unit room
  obtain ⟨⟨y, b, works, act, ahead, begun⟩, -, -⟩ := at'
  have held : (sslot d n s).act = some (copying a r c ps b) := by rw [works.slot, act]
  refine ⟨?_, ?_, unit, inside⟩
  · have kind : (decide ((copying a r c ps b).desc.kind = 3)) = false := by simp [copying, copy.kind]
    have reading : (readUpTo r c ps).reading = true := rfl
    have next := nextRead_store (s := s) (ps := ps) (b := b) copy (by omega : readLen d n a.desc c ≠ 0)
    rw [readOn.eq_def]
    simp only [held, reader_copying copy, if_pos more, next, kind, reading, Bool.not_true, Bool.false_and, Bool.false_eq_true, if_false]
    rfl
  · obtain ⟨z, clips, act', ahead'⟩ : ∃ z, WorksOn d0 (clipped d n s c) n s z ∧ z.act = y.act ∧ z.ahead.length ≤ y.ahead.length := by
      unfold clipped
      split
      · exact ⟨_, works.modSlot _, rfl, Nat.zero_le _⟩
      · exact ⟨y, works, rfl, le_rfl⟩
    refine ⟨_, true, (clips.modSlot _).modSlot _, ?_, ahead'.trans ahead, .inl rfl⟩
    simp [act', act, copying, readUpTo, storePiece]

end CopyAt

end Sys2Proof.Machine

namespace Sys2Proof.Machine

/-- A slot whose every read takes it at least 64 bytes on reads all of its B bytes. -/
theorem readOn_all {n s B : Nat} {ecc : Ecc} {P : Dev → Nat → Prop}
    (step : ∀ d c f, P d c → c < B → ∃ e c', readOn (f + 1) d n s ecc = readOn f e n s ecc ∧ c + 64 ≤ c' ∧ P e c')
    (stop : ∀ d f, P d B → readOn f d n s ecc = d) (bound : ∀ d c, P d c → c ≤ B) :
    ∀ f d c, P d c → B ≤ c + 64 * f → P (readOn f d n s ecc) B := by
  intro f
  induction f with
  | zero =>
    intro d c holds enough
    obtain rfl : c = B := Nat.le_antisymm (bound d c holds) (by omega)
    rw [stop d 0 holds]
    exact holds
  | succ f ih =>
    intro d c holds enough
    obtain rfl | more := (bound d c holds).eq_or_lt
    · rw [stop d (f + 1) holds]
      exact holds
    · obtain ⟨e, c', goes, least, holds'⟩ := step d c f holds more
      rw [goes]
      exact ih e c' holds' (by omega)

section CopyBegins

variable {d : Dev} {n s : Nat} {a : Active} {r : Rep} (copy : StoreCopy a r) (held : (sslot d n s).act = some a) (one : a.reps = [r])
include held one

theorem repReads_begins (turn : nextSlot d n = some s) (pops : r.popsLeft = 0) (new : r.reading = false) (ecc : Ecc) :
    repReads d n s ecc = readOn (4 * a.desc.rows * a.desc.rowLen + 4) (served d n s) n s ecc := by
  have ready : readReady d n a = true := by simp [readReady, reader, one, pops, new]
  simp only [repReads, held, turn, ready]
  rfl

/-- Biscuits that fail their checks end the descriptor before a read. -/
theorem readOn_refused {c : Sc} (pops : r.popsLeft = 0) (new : r.reading = false) (refused : repCheck d a.kennel a.desc r = some c) (f : Nat) (ecc : Ecc) :
    readOn (f + 1) d n s ecc = endDesc d n s c := by
  have reads : reader a = some r := by simp [reader, one, pops, new]
  rw [readOn.eq_def]
  simp only [held, reads, new, beginReads, refused]
  rfl

include copy

/-- A repetition whose biscuits pass begins to read. -/
theorem readOn_begins (new : r.reading = false) (passes : repCheck d a.kennel a.desc r = none) (f : Nat) (ecc : Ecc) : readOn (f + 1) d n s ecc
    = readOn f (modRep (modSlot d n s (fun x => { x with aheadStop := false })) n s r.num (fun r => { r with reading := true, frozen := [] })) n s ecc := by
  have reads : reader a = some r := by simp [reader, one, copy.pops, new]
  rw [readOn.eq_def]
  simp [held, reads, new, beginReads, passes, readFrozen, copy.kind]

end CopyBegins

/-- No byte of the COPY has been read yet. -/
theorem copyAt_begun {d : Dev} {n s : Nat} {a : Active} {r : Rep} (held : (sslot d n s).act = some a) (one : a.reps = [r]) (cursor : r.cursor = 0) (pieces : r.pieces = []) :
    CopyAt d (modRep (modSlot (served d n s) n s (fun x => { x with aheadStop := false })) n s r.num (fun r => { r with reading := true, frozen := [] })) n s a r 0 [] := by
  refine ⟨⟨_, a.started, ((worksOn_served d n s).modSlot _).modSlot _, ?_, le_rfl, .inr rfl⟩, ⟨0, rfl⟩, Nat.zero_le _⟩
  simp [held, one, copying, readUpTo, cursor, pieces]

end Sys2Proof.Machine

namespace Sys2Proof.Machine

/-! ### Rows in order (R170) -/

theorem Mem.length_read (m : Mem) (a n : Nat) : (Mem.read m a n).length = n := by simp [Mem.read]

/-- Part of what has been read is what a read of that part gives. -/
theorem Mem.read_part (m : Mem) (a : Nat) {n o len : Nat} (inside : o + len ≤ n) : ((Mem.read m a n).drop o).take len = Mem.read m (a + o) len := by
  refine List.ext_getElem (by simp only [List.length_take, List.length_drop, Mem.length_read]; omega) fun i _ _ => ?_
  simp [Mem.read, Nat.add_assoc]

/-- Rows of one length stand one behind the other. -/
theorem take_rows {α : Type} {f : Nat → List α} {L n i o len : Nat} (rows : ∀ j, (f j).length = L) (row : i < n) (inside : o + len ≤ L) :
    ((List.range n).flatMap f).take (L * i + o + len) = ((List.range n).flatMap f).take (L * i + o) ++ ((f i).drop o).take len := by
  have before : ((List.range i).flatMap f).length = L * i := by
    simp only [List.length_flatMap, rows, List.map_const', List.sum_replicate, List.length_range, smul_eq_mul]
    exact Nat.mul_comm ..
  obtain ⟨l, split⟩ : ∃ l, (List.range n).flatMap f = (List.range i).flatMap f ++ (f i ++ l) := by
    obtain ⟨m, rfl⟩ := Nat.exists_eq_add_of_lt row
    refine ⟨((List.range m).map (fun k => i + 1 + k)).flatMap f, ?_⟩
    rw [show i + m + 1 = i + 1 + m by omega, List.range_add, List.flatMap_append, List.range_succ, List.flatMap_append]
    simp
  have row' := rows i
  rw [List.take_add, split, ← List.drop_drop, List.drop_left' before]
  rw [List.drop_append_of_le_length (l₁ := f i) (by omega), List.take_append_of_le_length (l₁ := (f i).drop o) (by rw [List.length_drop]; omega)]

/-- The bytes of a COPY's source, row behind row. -/
def sourceBytes (d : Dev) (x : Desc) (r : Rep) : List Byte := (List.range x.rows).flatMap (storeRow d x r)

section Source

variable {d0 d : Dev} {a : Active} {r : Rep} {c : Nat} (copy : StoreCopy a r)
include copy

theorem srcRow_toNat (i o : Nat) : (srcRow a.desc r i + (o : Nat)).toNat = (srcRow a.desc r i).toNat + o := by
  have base := copy.base
  have pitch : (0 : Int) ≤ i * a.desc.srcPitch * 64 := by positivity
  unfold srcRow
  omega

/-- A read takes the next bytes of the source. -/
theorem storePiece_bytes (same : SameStores d0 d) (n : Nat) (more : c < repBytes a.desc r) :
    (sourceBytes d0 a.desc r).take (c + readLen d n a.desc c) = (sourceBytes d0 a.desc r).take c ++ ((storePiece d n a.desc r c).bytes.getD []) := by
  obtain ⟨fits, row, -⟩ := readLen_inside copy d n more
  have part := take_rows (f := storeRow d0 a.desc r) (fun j => Mem.length_read ..) row fits
  rw [Nat.div_add_mod] at part
  rw [sourceBytes, part]
  refine congrArg _ ?_
  rw [storeRow, Mem.read_part _ _ fits]
  simp only [storePiece, Option.getD_some, srcRow_toNat copy, same.store]

end Source

/-! ### A COPY from a store to memory (R168) -/

/-- What has been read is staged, in order. -/
def StagedUpTo (d0 d : Dev) (n s : Nat) (a : Active) (r : Rep) (c : Nat) : Prop :=
  ∃ ps, CopyAt d0 d n s a r c ps ∧ SameStores d0 d ∧ (∀ p ∈ ps, p.bytes.isSome = true ∧ p.issued.isSome = true) ∧ (ps.map (·.len)).sum = c
    ∧ ps.flatMap (fun p => p.bytes.getD []) = (sourceBytes d0 a.desc r).take c

section CopyAt

variable {d0 d : Dev} {n s : Nat} {a : Active} {r : Rep} {c : Nat} {ps : List Piece}

theorem CopyAt.trimWatches (at' : CopyAt d0 d n s a r c ps) : CopyAt d0 (trimWatches d n s) n s a r c ps := by
  obtain ⟨⟨y, b, works, rest⟩, unit, inside⟩ := at'
  exact ⟨⟨y, b, works.trimWatches, rest⟩, unit, inside⟩

/-- The engine stages no more than at the beginning and what this slot has read since. -/
theorem CopyAt.staged (at' : CopyAt d0 d n s a r c ps) (held : (sslot d0 n s).act = some a) (one : a.reps = [r]) (pieces : r.pieces = []) :
    staged d n ≤ staged d0 n + (ps.map (·.len)).sum := by
  obtain ⟨⟨y, b, works, act, ahead, -⟩, -, -⟩ := at'
  have grows := works.staged
  have now : slotStaged y = y.ahead.length + (ps.map (·.len)).sum := by simp [slotStaged, act, copying, readUpTo]
  have then' : slotStaged (sslot d0 n s) = (sslot d0 n s).ahead.length := by simp [slotStaged, held, one, pieces]
  omega

variable (copy : StoreCopy a r)
include copy

theorem CopyAt.writer (at' : CopyAt d0 d n s a r c ps) : ∃ b, (sslot d n s).act = some (copying a r c ps b) ∧ writer (copying a r c ps b) = some (readUpTo r c ps) := by
  obtain ⟨b, held, -⟩ := at'.held
  exact ⟨b, held, by simp [Machine.writer, copying, readUpTo, copy.writes]⟩

/-- Bytes for memory wait until they are written at its M-die. -/
theorem CopyAt.goOn_memory (at' : CopyAt d0 d n s a r c ps) (memory : destMem a.desc r = true) : goOn d n s = Machine.trimWatches d n s := by
  obtain ⟨b, held, writes⟩ := at'.writer copy
  have kind : (copying a r c ps b).desc.kind ≠ 4 := by simp [copying, copy.kind]
  have dest : destMem (copying a r c ps b).desc (readUpTo r c ps) = true := memory
  have stays (f : Nat) : flush f d n s = d := by
    cases f with
    | zero => rfl
    | succ f =>
      rw [flush.eq_def]
      simp only [held, writes, if_neg kind, if_pos dest]
  simp only [goOn, stays]

theorem StagedUpTo.reads (at' : StagedUpTo d0 d n s a r c) (memory : destMem a.desc r = true) (held : (sslot d0 n s).act = some a) (one : a.reps = [r])
    (pieces : r.pieces = []) (room : repBytes a.desc r ≤ stageRoom d0 n) (more : c < repBytes a.desc r) (f : Nat) (ecc : Ecc) :
    ∃ e c', readOn (f + 1) d n s ecc = readOn f e n s ecc ∧ c + 64 ≤ c' ∧ StagedUpTo d0 e n s a r c' := by
  obtain ⟨ps, at', same, come, sum, bytes⟩ := at'
  have least : 64 ≤ stageRoom d n := by
    have grows := at'.staged held one pieces
    have unit := at'.unit
    have rows : repBytes a.desc r = a.desc.rows * (a.desc.rowLen * 64) := repBytes_rows copy
    rw [← Nat.mul_assoc] at rows
    unfold stageRoom at *
    omega
  obtain ⟨goes, at''⟩ := at'.reads copy more least f ecc
  rw [at''.goOn_memory copy memory] at goes
  have same' := (same.trans (sameStores_readJoined d n s a r c)).trans (sameStores_trimWatches _ n s)
  refine ⟨_, _, goes, Nat.add_le_add_left (readLen_pos copy d n more at'.unit least) c, _, at''.trimWatches, same', fun p inside => ?_, ?_, ?_⟩
  · obtain old | new := List.mem_append.mp inside
    · exact come p old
    · obtain rfl := List.mem_singleton.mp new
      exact ⟨rfl, rfl⟩
  · simp [sum, storePiece]
  · rw [storePiece_bytes copy same n more, List.flatMap_append, bytes]
    simp

end CopyAt

end Sys2Proof.Machine

namespace Sys2Proof.Machine

/-! ### A COPY from a store to another one (R170, R177) -/

/-- The destination of a COPY is another store than its source, and no row reaches into the next one. -/
structure StoreDest (a : Active) (r : Rep) : Prop where
  space : isStore (placeOf a.desc r false).sp = true
  apart : ((placeOf a.desc r false).sp, unitOf (placeOf a.desc r false).sp (placeOf a.desc r false).eng)
    ≠ ((placeOf a.desc r true).sp, unitOf (placeOf a.desc r true).sp (placeOf a.desc r true).eng)
  base : 0 ≤ (placeOf a.desc r false).base
  pitch : a.desc.rows ≤ 1 ∨ a.desc.rowLen ≤ a.desc.dstPitch

theorem space_of_isStore {sp : Nat} (is : isStore sp = true) : sp ∈ [1, 2, 3] := by
  simp only [isStore, Bool.and_eq_true, decide_eq_true_eq] at is
  simp only [List.mem_cons, List.not_mem_nil, or_false]
  omega

/-- The source's byte that byte j of the rows is a copy of. -/
def sourceByte (d : Dev) (x : Desc) (r : Rep) (j : Nat) : Byte :=
  let p := placeOf x r true
  Mem.byte (store d p.sp (unitOf p.sp p.eng)) ((srcRow x r (j / rowBytes x)).toNat + j % rowBytes x)

section StoreDest

variable {d0 d : Dev} {n s : Nat} {a : Active} {r : Rep} {c : Nat} (dest : StoreDest a r)
include dest

theorem dstRow_toNat (i o : Nat) : (dstRow a.desc r i + (o : Nat)).toNat = (dstRow a.desc r i).toNat + o := by
  have base := dest.base
  have pitch : (0 : Int) ≤ i * a.desc.dstPitch * 64 := by positivity
  unfold dstRow
  omega

/-- Bytes that come later in the rows lie behind in the destination. -/
theorem dstByte_lt {j : Nat} (order : j < c) (inside : c < a.desc.rows * rowBytes a.desc) : (dstByte a.desc r j).toNat < (dstByte a.desc r c).toNat := by
  have some' : 0 < rowBytes a.desc := Nat.pos_of_ne_zero fun none' => by simp [none'] at inside
  have base := dest.base
  have parts := Nat.div_add_mod j (rowBytes a.desc)
  have parts' := Nat.div_add_mod c (rowBytes a.desc)
  have ofs := Nat.mod_lt j some'
  have row : c / rowBytes a.desc < a.desc.rows := Nat.div_lt_of_lt_mul (by rwa [Nat.mul_comm])
  rw [dstByte, dstByte, dstRow_toNat dest, dstRow_toNat dest]
  obtain same | before := (Nat.div_le_div_right (c := rowBytes a.desc) order.le).eq_or_lt
  · rw [same] at parts ⊢
    omega
  · have reach : rowBytes a.desc ≤ a.desc.dstPitch * 64 := Nat.mul_le_mul_right 64 (dest.pitch.resolve_left (Nat.not_le.mpr (lt_of_le_of_lt (Nat.succ_le_of_lt (pos_of_gt before)) row)))
    have apart : (j / rowBytes a.desc + 1) * (a.desc.dstPitch * 64) ≤ c / rowBytes a.desc * (a.desc.dstPitch * 64) := Nat.mul_le_mul_right _ before
    have rows (i : Nat) : (dstRow a.desc r i).toNat = (placeOf a.desc r false).base.toNat + i * (a.desc.dstPitch * 64) := by
      unfold dstRow
      rw [Int.mul_assoc]
      have cast : ((i : Int) * ((a.desc.dstPitch : Int) * 64)) = ((i * (a.desc.dstPitch * 64) : Nat) : Int) := by push_cast; ring
      rw [cast]
      omega
    rw [rows, rows]
    rw [Nat.succ_mul] at apart
    omega

end StoreDest

/-- What has been read stands in the destination, and no other byte of a store has changed. -/
def StoredUpTo (d0 d : Dev) (n s : Nat) (a : Active) (r : Rep) (c : Nat) : Prop :=
  let q := placeOf a.desc r false
  CopyAt d0 d n s a r c [] ∧ (∀ j < c, Mem.byte (store d q.sp (unitOf q.sp q.eng)) (dstByte a.desc r j).toNat = sourceByte d0 a.desc r j)
    ∧ ∀ sp ∈ [1, 2, 3], ∀ u b, ¬ rowTouches a.desc r sp u b → Mem.byte (store d sp u) b = Mem.byte (store d0 sp u) b

/-- The bytes of the one read in hand are in the destination. -/
def pieceStored (d : Dev) (n s : Nat) (a : Active) (r : Rep) (off : Nat) (bs : List Byte) : Dev :=
  let q := placeOf a.desc r false
  modRep (storeWrite d q.sp (unitOf q.sp q.eng) (dstByte a.desc r off).toNat bs) n s r.num (fun r => { r with pieces := [] })

section CopyAt

variable {d0 d : Dev} {n s : Nat} {a : Active} {r : Rep} {c : Nat} {p : Piece} {bs : List Byte}

theorem CopyAt.pieceStored (at' : CopyAt d0 d n s a r c [p]) (off : Nat) (bs : List Byte) : CopyAt d0 (pieceStored d n s a r off bs) n s a r c [] := by
  obtain ⟨⟨y, b, works, act, ahead, begun⟩, unit, inside⟩ := at'
  refine ⟨⟨_, b, (works.storeWrite _ _ _ _).modSlot _, ?_, ahead, begun⟩, unit, inside⟩
  simp [act, copying, readUpTo]

variable (copy : StoreCopy a r) (dest : StoreDest a r)
include dest

theorem StoreDest.not_memory : ¬ destMem a.desc r = true := by
  have space := space_of_isStore dest.space
  simp only [List.mem_cons, List.not_mem_nil, or_false] at space
  simp only [destMem, Bool.and_eq_true, decide_eq_true_eq]
  omega

include copy

/-- With nothing read and not written, nothing is left to write. -/
theorem CopyAt.flush_none (at' : CopyAt d0 d n s a r c []) (f : Nat) : flush f d n s = d := by
  cases f with
  | zero => rfl
  | succ f =>
    obtain ⟨b, held, writes⟩ := at'.writer copy
    have kind : ¬ (copying a r c [] b).desc.kind = 4 := by simp [copying, copy.kind]
    have other : ¬ destMem (copying a r c [] b).desc (readUpTo r c []) = true := dest.not_memory
    rw [flush.eq_def]
    simp only [held, writes, if_neg kind, if_neg other]
    rfl

theorem CopyAt.flush_one (at' : CopyAt d0 d n s a r c [p]) (come : p.bytes = some bs) (f : Nat) : flush (f + 1) d n s = Machine.pieceStored d n s a r p.off bs := by
  obtain ⟨b, held, writes⟩ := at'.writer copy
  have kind : ¬ (copying a r c [p] b).desc.kind = 4 := by simp [copying, copy.kind]
  have other : ¬ destMem (copying a r c [p] b).desc (readUpTo r c [p]) = true := dest.not_memory
  have out : writeOut d n s (copying a r c [p] b) (readUpTo r c [p]) p.off bs = storeWrite d (placeOf a.desc r false).sp
      (unitOf (placeOf a.desc r false).sp (placeOf a.desc r false).eng) (dstByte a.desc r p.off).toNat bs := if_neg (by simp [copying, copy.kind])
  have goes : flush (f + 1) d n s = flush f (Machine.pieceStored d n s a r p.off bs) n s := by
    rw [flush.eq_def]
    simp only [held, writes, if_neg kind, if_neg other, show (readUpTo r c [p]).pieces = [p] from rfl, come, out]
    rfl
  rw [goes, (at'.pieceStored p.off bs).flush_none copy dest]

/-- Bytes for a store are written as soon as they have been read. -/
theorem CopyAt.goOn_store (at' : CopyAt d0 d n s a r c [p]) (come : p.bytes = some bs) :
    goOn d n s = Machine.trimWatches (Machine.pieceStored d n s a r p.off bs) n s := by
  rw [goOn, at'.flush_one copy dest come]

/-- The byte that a read takes as its k-th is the source's next but k. -/
theorem storePiece_byte {k : Nat} (within : c % rowBytes a.desc + k < rowBytes a.desc) :
    Mem.byte (store d0 (placeOf a.desc r true).sp (unitOf (placeOf a.desc r true).sp (placeOf a.desc r true).eng))
      ((srcRow a.desc r (c / rowBytes a.desc) + (c % rowBytes a.desc : Nat)).toNat + k) = sourceByte d0 a.desc r (c + k)
    ∧ (dstByte a.desc r (c + k)).toNat = (dstByte a.desc r c).toNat + k := by
  have some' : 0 < rowBytes a.desc := by omega
  have parts : c + k = rowBytes a.desc * (c / rowBytes a.desc) + (c % rowBytes a.desc + k) := by
    rw [← Nat.add_assoc, Nat.div_add_mod]
  have row : (c + k) / rowBytes a.desc = c / rowBytes a.desc := by rw [parts, Nat.mul_add_div some', Nat.div_eq_of_lt within, Nat.add_zero]
  have ofs : (c + k) % rowBytes a.desc = c % rowBytes a.desc + k := by rw [parts, Nat.mul_add_mod, Nat.mod_eq_of_lt within]
  constructor
  · rw [sourceByte, row, ofs, srcRow_toNat copy, Nat.add_assoc]
  · rw [dstByte, dstByte, row, ofs, dstRow_toNat dest, dstRow_toNat dest, Nat.add_assoc]

omit copy dest in
theorem store_pieceStored (d : Dev) (n s : Nat) (a : Active) (r : Rep) (off : Nat) (bs : List Byte) {sp u : Nat} (space : sp ∈ [1, 2, 3]) (own : isStore (placeOf a.desc r false).sp = true) :
    let q := placeOf a.desc r false
    store (Machine.trimWatches (Machine.pieceStored d n s a r off bs) n s) sp u
      = if sp = q.sp ∧ u = unitOf q.sp q.eng then Mem.write (store d q.sp (unitOf q.sp q.eng)) (dstByte a.desc r off).toNat bs else store d sp u := by
  intro q
  rw [(sameStores_trimWatches _ n s).store]
  exact ((sameStores_modSlot _ n s _).store sp u).trans (store_setStore d _ (space_of_isStore own) space _ _)

/-- Bytes of a row stand in its place in the destination. -/
theorem dstByte_touches {k len : Nat} (row : c / rowBytes a.desc < a.desc.rows) (fits : c % rowBytes a.desc + len ≤ rowBytes a.desc) (within : k < len) :
    rowTouches a.desc r (placeOf a.desc r false).sp (unitOf (placeOf a.desc r false).sp (placeOf a.desc r false).eng) ((dstByte a.desc r c).toNat + k) := by
  have rows : rowsOut a.desc r = a.desc.rows := by
    rw [rowsOut, copy.whole]
    rfl
  refine ⟨rfl, rfl, c / rowBytes a.desc, rows ▸ row, ?_, ?_⟩ <;> rw [dstByte, dstRow_toNat dest] <;> omega

/-- One more read of the source is at once in the destination. -/
theorem StoredUpTo.joins (at' : StoredUpTo d0 d n s a r c) (more : c < repBytes a.desc r)
    (next : CopyAt d0 (readJoined d n s a r c) n s a r (c + readLen d n a.desc c) [storePiece d n a.desc r c]) :
    StoredUpTo d0 (Machine.trimWatches (Machine.pieceStored (readJoined d n s a r c) n s a r c ((storePiece d n a.desc r c).bytes.getD [])) n s) n s a r (c + readLen d n a.desc c) := by
  obtain ⟨at', copied, kept⟩ := at'
  obtain ⟨fits, row, -⟩ := readLen_inside copy d n more
  have space := space_of_isStore dest.space
  have source (b : Nat) := kept _ (space_of_isStore copy.space) (unitOf (placeOf a.desc r true).sp (placeOf a.desc r true).eng) b
    fun ⟨same, unit, _⟩ => dest.apart (by rw [← unit, ← same])
  have bytes : (storePiece d n a.desc r c).bytes.getD [] = Mem.read (store d (placeOf a.desc r true).sp (unitOf (placeOf a.desc r true).sp (placeOf a.desc r true).eng))
    (srcRow a.desc r (c / rowBytes a.desc) + (c % rowBytes a.desc : Nat)).toNat (readLen d n a.desc c) := rfl
  rw [bytes]
  refine ⟨(next.pieceStored ..).trimWatches, fun j before => ?_, fun sp space' u b free => ?_⟩
  · rw [store_pieceStored _ n s a r c _ space dest.space, if_pos ⟨rfl, rfl⟩, (sameStores_readJoined d n s a r c).store]
    by_cases old : j < c
    · rw [Mem.byte_write_outside _ _ _ _ (.inl (dstByte_lt dest old (repBytes_rows copy ▸ more))), copied j old]
    · obtain ⟨k, rfl⟩ := Nat.exists_eq_add_of_le (Nat.not_lt.mp old)
      have within : k < readLen d n a.desc c := by omega
      obtain ⟨same, place⟩ := storePiece_byte (d0 := d0) copy dest (c := c) (k := k) (by omega)
      rw [place, Mem.byte_write_inside _ _ _ _ (by rw [Mem.length_read]; exact within), ← same, ← source]
      simp [Mem.read]
  · rw [store_pieceStored _ n s a r c _ space' dest.space, (sameStores_readJoined d n s a r c).store, (sameStores_readJoined d n s a r c).store]
    split
    next here =>
      obtain ⟨rfl, rfl⟩ := here
      rw [Mem.byte_write_outside, kept _ space' _ _ free]
      rw [Mem.length_read]
      by_contra inside
      obtain ⟨k, rfl⟩ := Nat.exists_eq_add_of_le (by omega : (dstByte a.desc r c).toNat ≤ b)
      exact free (dstByte_touches copy dest row fits (by omega : k < readLen d n a.desc c))
    next => exact kept sp space' u b free

theorem StoredUpTo.reads (at' : StoredUpTo d0 d n s a r c) (room : 64 ≤ stageRoom d0 n) (held : (sslot d0 n s).act = some a) (one : a.reps = [r])
    (pieces : r.pieces = []) (more : c < repBytes a.desc r) (f : Nat) (ecc : Ecc) :
    ∃ e c', readOn (f + 1) d n s ecc = readOn f e n s ecc ∧ c + 64 ≤ c' ∧ StoredUpTo d0 e n s a r c' := by
  have least : 64 ≤ stageRoom d n := by
    have grows := at'.1.staged held one pieces
    rw [List.map_nil, List.sum_nil] at grows
    unfold stageRoom at *
    omega
  obtain ⟨goes, next⟩ := at'.1.reads copy more least f ecc
  rw [next.goOn_store copy dest rfl] at goes
  exact ⟨_, _, goes, Nat.add_le_add_left (readLen_pos copy d n more at'.1.unit least) c, at'.joins copy dest more next⟩

end CopyAt

end Sys2Proof.Machine

namespace Sys2Proof.Machine

/-- Once every byte has been read, nothing is left to do. -/
theorem CopyAt.stops {d0 d : Dev} {n s : Nat} {a : Active} {r : Rep} {ps : List Piece} (copy : StoreCopy a r) (at' : CopyAt d0 d n s a r (repBytes a.desc r) ps)
    (f : Nat) (ecc : Ecc) : readOn f d n s ecc = d := by
  cases f with
  | zero => rfl
  | succ f =>
    obtain ⟨b, held, -⟩ := at'.held
    rw [readOn.eq_def]
    simp only [held, reader_copying copy, lt_irrefl, if_false]

section CopyRuns

variable {d : Dev} {n s : Nat} {a : Active} {r : Rep} (copy : StoreCopy a r) (held : (sslot d n s).act = some a) (one : a.reps = [r])
  (turn : nextSlot d n = some s) (new : r.reading = false) (passes : repCheck d a.kennel a.desc r = none) (cursor : r.cursor = 0) (pieces : r.pieces = [])
include copy held one turn new passes cursor pieces

/-- A COPY from a store reads all that a step keeps going. -/
theorem repReads_all {P : Dev → Nat → Prop} (ecc : Ecc)
    (step : ∀ e c f, P e c → c < repBytes a.desc r → ∃ e' c', readOn (f + 1) e n s ecc = readOn f e' n s ecc ∧ c + 64 ≤ c' ∧ P e' c')
    (at' : ∀ e c, P e c → ∃ ps, CopyAt d e n s a r c ps) (begin' : ∀ e, CopyAt d e n s a r 0 [] → SameStores d e → P e 0) :
    P (repReads d n s ecc) (repBytes a.desc r) := by
  obtain ⟨ses, frame⟩ := served_frame d n s
  have held' := (congrArg SSlot.act (sslot_served d n s n s)).trans held
  have same : SameStores d (served d n s) := by
    rw [frame]
    exact ⟨rfl, rfl, rfl⟩
  have passes' : repCheck (served d n s) a.kennel a.desc r = none := by
    rw [frame]
    exact passes
  rw [repReads_begins held one turn copy.pops new, readOn_begins copy held' one new passes']
  refine readOn_all step (fun e f holds => ?_) (fun e c holds => ?_) _ _ 0 (begin' _ (copyAt_begun held one cursor pieces) ?_) ?_
  · obtain ⟨ps, now⟩ := at' e _ holds
    exact now.stops copy f ecc
  · obtain ⟨ps, now⟩ := at' e c holds
    exact now.inside
  · exact (same.trans (sameStores_modSlot ..)).trans (sameStores_modSlot ..)
  · rw [repBytes_rows copy, rowBytes, ← Nat.mul_assoc, Nat.mul_assoc 4]
    omega

end CopyRuns

theorem length_sourceBytes (d : Dev) (x : Desc) (r : Rep) : (sourceBytes d x r).length = x.rows * rowBytes x := by
  simp [sourceBytes, List.length_flatMap, storeRow, Mem.length_read]

/-- The slot has read every byte: its repetition waits for its writes, or has none left. -/
theorem CopyAt.done {d0 d : Dev} {n s : Nat} {a : Active} {r : Rep} {ps : List Piece} (at' : CopyAt d0 d n s a r (repBytes a.desc r) ps) (some' : 0 < repBytes a.desc r) :
    (sslot d n s).act = some (copying a r (repBytes a.desc r) ps true) ∧ (∀ i j, (i, j) ≠ (n, s) → sslot d i j = sslot d0 i j)
      ∧ d = { d0 with ses := d.ses, mdies := d.mdies, watchQ := d.watchQ, tiles := d.tiles, caches := d.caches, dies := d.dies } := by
  obtain ⟨⟨y, b, works, act, -, begun⟩, -, -⟩ := at'
  obtain rfl : b = true := begun.resolve_right some'.ne'
  obtain ⟨ses, ms, w, t, c, b, frame⟩ := works.frame
  exact ⟨by rw [works.slot, act], works.others, by rw [frame]⟩

/-- What a row holds once each of its bytes has been copied. -/
theorem StoredUpTo.row {d0 d : Dev} {n s : Nat} {a : Active} {r : Rep} (copy : StoreCopy a r) (dest : StoreDest a r) (at' : StoredUpTo d0 d n s a r (repBytes a.desc r))
    {i : Nat} (row : i < a.desc.rows) : Mem.read (store d (placeOf a.desc r false).sp (unitOf (placeOf a.desc r false).sp (placeOf a.desc r false).eng))
      (dstRow a.desc r i).toNat (rowBytes a.desc) = storeRow d0 a.desc r i := by
  obtain ⟨-, copied, -⟩ := at'
  refine List.ext_getElem (by rw [storeRow, Mem.length_read, Mem.length_read]) fun k below _ => ?_
  rw [Mem.length_read] at below
  have some' : 0 < rowBytes a.desc := by omega
  have number : (rowBytes a.desc * i + k) / rowBytes a.desc = i := by rw [Nat.mul_add_div some', Nat.div_eq_of_lt below, Nat.add_zero]
  have ofs : (rowBytes a.desc * i + k) % rowBytes a.desc = k := by rw [Nat.mul_add_mod, Nat.mod_eq_of_lt below]
  have inside : rowBytes a.desc * i + k < repBytes a.desc r := by
    have rows : rowBytes a.desc * i + rowBytes a.desc ≤ a.desc.rows * rowBytes a.desc := by
      rw [← Nat.mul_succ, Nat.mul_comm]
      exact Nat.mul_le_mul_right _ row
    rw [repBytes_rows copy]
    omega
  have byte := copied _ inside
  rw [dstByte, number, ofs, dstRow_toNat dest, sourceByte, number, ofs] at byte
  simpa [Mem.read, storeRow] using byte

/-- R168, R170, R177, R178. -/
theorem repetitionReadsStage : Claim.RepetitionReadsStage := by
  intro n slot s a r ecc awake held turn one pops new
  refine ⟨fun c refused => ?_, fun passes kind space base cursor pieces pushes whole some' => ?_⟩
  · obtain ⟨ses, frame⟩ := served_frame s.d n.val slot.toNat
    have held' := (congrArg SSlot.act (sslot_served s.d n.val slot.toNat n.val slot.toNat)).trans held
    have refused' : repCheck (served s.d n.val slot.toNat) a.kennel a.desc r = some c := by
      rw [frame]
      exact refused
    refine ⟨_, run_settles awake ((repReads_begins held one turn pops new ecc).trans (readOn_refused held' one pops new refused' _ ecc)),
      endDesc_ends c awake.2 ⟨ses, frame⟩ ?_ held'⟩
    rw [served, se_modSe]
  · intro done
    have copy : StoreCopy a r := ⟨kind, space, base, pops, whole, pushes⟩
    have all {P : Dev → Nat → Prop} := repReads_all (P := P) copy held one turn new passes cursor pieces ecc
    refine ⟨fun memory room => ?_, ?_⟩
    · obtain ⟨ps, at', ⟨tiles, caches, dies⟩, come, -, bytes⟩ := all (P := fun e c => StagedUpTo s.d e n.val slot.toNat a r c)
        (fun e c f at' more => at'.reads copy memory held one pieces room more f ecc) (fun e c ⟨ps, at', _⟩ => ⟨ps, at'⟩)
        (fun e at' same => ⟨[], at', same, nofun, rfl, rfl⟩)
      obtain ⟨mine, others, frame⟩ := at'.done some'
      obtain ⟨e, effect⟩ : ∃ e, repReads s.d n.val slot.toNat ecc = e := ⟨_, rfl⟩
      rw [effect] at mine others frame tiles caches dies
      rw [tiles, caches, dies] at frame
      refine ⟨{ s with d := e }, ps, run_becomes awake effect (frame ▸ awake.2.of_eq ⟨rfl, rfl⟩ rfl), mine, come, ?_, others, frame⟩
      rw [bytes, List.take_of_length_le (by rw [length_sourceBytes, repBytes_rows copy])]
      rfl
    · intro q p space' apart base' room pitch
      have dest : StoreDest a r := ⟨space', apart, base', pitch⟩
      have stored := all (P := fun e c => StoredUpTo s.d e n.val slot.toNat a r c)
        (fun e c f at' more => at'.reads copy dest room held one pieces more f ecc) (fun e c at' => ⟨[], at'.1⟩)
        (fun e at' same => ⟨at', nofun, fun sp _ u b _ => by rw [same.store]⟩)
      obtain ⟨e, effect⟩ : ∃ e, repReads s.d n.val slot.toNat ecc = e := ⟨_, rfl⟩
      rw [effect] at stored
      obtain ⟨mine, others, frame⟩ := stored.1.done some'
      exact ⟨{ s with d := e }, run_becomes awake effect (frame ▸ awake.2.of_eq ⟨rfl, rfl⟩ rfl), mine, fun i row => stored.row copy dest row, stored.2.2, others, frame⟩

end Sys2Proof.Machine

namespace Sys2Proof.Proofs
open Sys2Proof.Machine

/-- Settles O14: a shadow moves up, a repetition asks for its pops, and a COPY from a store reads row after row by induction on the reads left. -/
theorem slotsPopAndStage : Obligations.SlotsPopAndStage := ⟨shadowMoves, repetitionPopsRequested, repetitionReadsStage⟩

end Sys2Proof.Proofs

namespace Sys2Proof.Machine

/-! ### Default ranges (R293) -/

/-- The default ranges follow one on the other. -/
theorem defaultRange_end (s n i : Nat) : (defaultRange s n i).1 + (defaultRange s n i).2 = (defaultRange s n (i + 1)).1 :=
  Nat.add_sub_cancel' (Nat.div_le_div_right (Nat.mul_le_mul_right s (Nat.le_succ i)))

/-- Default ranges start in the order of the ring positions. -/
theorem defaultRange_start_mono (s n : Nat) {i j : Nat} (h : i ≤ j) : (defaultRange s n i).1 ≤ (defaultRange s n j).1 :=
  Nat.div_le_div_right (Nat.mul_le_mul_right s h)

/-- A default range holds floor(S / N) segments or one more. -/
theorem defaultRange_length (s n i : Nat) (hn : 0 < n) : s / n ≤ (defaultRange s n i).2 ∧ (defaultRange s n i).2 ≤ s / n + 1 := by
  have hsum : (defaultRange s n i).2 = (i * s + s) / n - i * s / n := by simp [defaultRange, Nat.succ_mul]
  have hsplit := Nat.add_div (a := i * s) (b := s) hn
  rw [hsum, hsplit]
  generalize i * s / n = a, s / n = b
  split <;> omega

/-- A segment of the range of ring position i is in the range of no position before it. -/
theorem defaultRange_disjoint (s n : Nat) {i j g : Nat} (hj : j < i) (hg : (defaultRange s n i).1 ≤ g) :
    ¬ (g < (defaultRange s n j).1 + (defaultRange s n j).2) := by
  have hstart := defaultRange_start_mono s n (Nat.succ_le_of_lt hj)
  rw [defaultRange_end]
  exact Nat.not_lt.2 (Nat.le_trans hstart hg)

/-- Without ownership records the ranges are the default ones, by ring position. -/
theorem ownedRanges_default (t : Task) (h : ∀ z ∈ t.secs, z.kind ≠ 0x07) :
    ownedRanges t = t.roster.mapIdx (fun i m => (m, defaultRange t.segCount t.roster.length i)) := by
  have hnone : (t.secs.any (fun s => s.kind == 0x07)) = false := by simpa [List.any_eq_false] using h
  simp [ownedRanges, hnone]

/-- The owner of a segment of the default range of ring position i is the module at that position. -/
theorem ownerOf_default (t : Task) (i g : Nat) (h : ∀ z ∈ t.secs, z.kind ≠ 0x07) (hi : i < t.roster.length)
    (hlo : (defaultRange t.segCount t.roster.length i).1 ≤ g)
    (hhi : g < (defaultRange t.segCount t.roster.length i).1 + (defaultRange t.segCount t.roster.length i).2) :
    ownerOf t g = t.roster[i]? := by
  have hfind : (ownedRanges t).find? (fun z => z.2.1 ≤ g && g < z.2.1 + z.2.2)
      = some (t.roster[i], defaultRange t.segCount t.roster.length i) := by
    rw [ownedRanges_default t h, List.find?_eq_some_iff_getElem]
    refine ⟨by simp [hlo, hhi], i, by simpa using hi, by simp, fun j hj => ?_⟩
    have hout := defaultRange_disjoint t.segCount t.roster.length hj hlo
    simp only [List.getElem_mapIdx]
    simp [hout]
  rw [ownerOf, hfind]
  simp [hi]

/-- R293: the default ranges tile the segments. -/
theorem defaultRangesTile : Sys2Proof.Claim.DefaultRangesTile := by
  intro s n i hn hi r
  have hlast : n - 1 + 1 = n := Nat.sub_add_cancel hn
  have hall : (r (n - 1)).1 + (r (n - 1)).2 = s := by
    rw [defaultRange_end, hlast, defaultRange, Nat.mul_div_cancel_left s hn]
  obtain ⟨hmin, hmax⟩ := defaultRange_length s n i hn
  refine ⟨by simp [r, defaultRange], rfl, defaultRange_end s n i, hall, hmin, hmax, ?_⟩
  intro t g hsecs hlen hseg hlo hhi
  subst hlen hseg
  exact ownerOf_default t i g hsecs hi hlo hhi

end Sys2Proof.Machine

namespace Sys2Proof.Machine

/-! ### One bit of kennel memory (R219, R305) -/

/-- A bit of a byte is the one set, or the one that was there. -/
theorem getLsbD_setBitIn (b : Byte) {i j : Nat} (v : Bool) (hj : j < 8) : (setBitIn b i v).getLsbD j = if j = i then v else b.getLsbD j := by
  have single : (BitVec.ofNat 8 (2 ^ i)).getLsbD j = decide (j = i) := by
    rw [BitVec.getLsbD_ofNat, Nat.testBit_two_pow]
    simp [hj, eq_comm]
  cases v with
  | true =>
    rw [setBitIn, if_pos rfl, BitVec.getLsbD_or, single]
    by_cases here : j = i <;> simp [here]
  | false =>
    rw [setBitIn, if_neg Bool.false_ne_true, BitVec.getLsbD_and, BitVec.getLsbD_not, single]
    by_cases here : j = i <;> simp [here, hj]

theorem linesOf_byte (o : Nat) : linesOf o 1 = [o / 64] := by
  have one : ceilDiv (o % 64 + 1) 64 = 1 := by
    unfold ceilDiv
    omega
  simp [linesOf, one]

theorem cacheParts_byte (addr : Nat) : cacheParts addr 1 = [(addr / 256, addr, 1)] := by
  have one : ceilDiv (addr % 256 + 1) 256 = 1 := by
    unfold ceilDiv
    omega
  have low : max addr (256 * (addr / 256)) = addr := by omega
  have rest : min addr (256 * (addr / 256) + 255) + 1 - addr = 1 := by omega
  simp [cacheParts, one, low, rest]

theorem memReadAll_byte (d : Dev) (k addr : Nat) (ecc : Ecc) : memReadAll d k addr 1 ecc = memRead d k addr 1 ecc := by
  have inside : addr % pageBytes + (zeros 1).length ≤ pageBytes := by
    simp only [zeros, List.length_replicate, pageBytes]
    omega
  rw [memReadAll, cutPages_one (by simp [zeros]) inside]
  simp [zeros]

/-- What a near page holds at a byte that is not poisoned, where no line is cached and no write waits. -/
theorem peek_byte {d : Dev} {k addr : Nat} (near : (page d k (addr / pageBytes)).st = .near)
    (sound : addr % pageBytes / 64 ∉ (page d k (addr / pageBytes)).poison) (waits : d.waits = [])
    (uncached : cached d (page d k (addr / pageBytes)).home k (addr / 256) = none) : peek d k addr 1 = (.ok, [Mem.byte (kmem d k) addr]) := by
  simp [peek, cacheParts_byte, uncached, seeWaits, waits, tierBytes, near, linesOf_byte, sound, Mem.read]

/-- A read of a near page notes the access and changes the M-dies alone. -/
theorem accessed_near {d : Dev} {k addr : Nat} (near : (page d k (addr / pageBytes)).st = .near) (n : Nat) :
    ∃ ms, accessed true d k addr n = { touched d k addr with mdies := ms } := by
  have st : (page (touched d k addr) k (addr / pageBytes)).st = .near := by rw [page_touched]; exact near
  have counts : readCount (touched d k addr) k addr n = touched d k addr := by simp [readCount, st]
  rw [accessed, if_pos rfl, counts]
  exact (mdiesOnly_tcRead ..).1

/-- A write of sound lines of a near page changes the page's notes, the M-dies and the stream engines, and stores its bytes. -/
theorem applyWrite_sound {d : Dev} {k addr : Nat} {bs : List Byte}
    (sound : ∀ l ∈ linesOf (addr % pageBytes) bs.length, l ∉ (page d k (addr / pageBytes)).poison) :
    ∃ ms ps ses, applyWrite d k addr bs [] = { d with mdies := ms, pages := ps, ses := ses, mem := Tbl.set [] d.mem k (Mem.write (kmem d k) addr bs) } := by
  unfold applyWrite
  extract_lets key ls p merged bad e e'
  have none' : bad = [] := by
    have free : merged.filter (fun z => p.poison.contains z.1 || ([] : List Nat).contains z.2) = [] := by
      refine List.filter_eq_nil_iff.2 fun z inside => ?_
      have listed : z.1 ∈ ls := (List.mem_zipIdx' (List.mem_of_mem_filter inside)).2 ▸ List.getElem_mem _
      have out := sound z.1 listed
      simpa [p, key, page] using out
    simp only [bad, free, List.map_nil]
  obtain ⟨ps, pages⟩ : ∃ ps, e' = { d with pages := ps } := ⟨e'.pages, by simp only [e', e, none']; rfl⟩
  clear_value e'
  subst pages
  exact ⟨_, _, _, rfl⟩

end Sys2Proof.Machine

namespace Sys2Proof.Machine

/-! ### Freeze entries (R305, R306) -/

/-- Memory k of `e` is that of `d` with bit i of one byte set to `v`, and no other bit changed. -/
structure BitWritten (d e : Dev) (k addr i : Nat) (v : Bool) : Prop where
  set : (Mem.byte (kmem e k) addr).getLsbD i = v
  rest : ∀ b < 8, b ≠ i → (Mem.byte (kmem e k) addr).getLsbD b = (Mem.byte (kmem d k) addr).getLsbD b
  bytes : ∀ x, x ≠ addr → Mem.byte (kmem e k) x = Mem.byte (kmem d k) x
  kennels : ∀ j, j ≠ k → kmem e j = kmem d j
  frame : ∃ ms ps ss, e = { d with mem := e.mem, pages := ps, mdies := ms, ses := ss }

/-- Where the bit has its value already, memory is kept. -/
theorem BitWritten.kept {d e : Dev} {k addr i : Nat} {v : Bool} (has : (Mem.byte (kmem d k) addr).getLsbD i = v)
    (only : ∃ ms ps, e = { d with mdies := ms, pages := ps }) : BitWritten d e k addr i v := by
  obtain ⟨ms, ps, rfl⟩ := only
  exact ⟨has, fun _ _ _ => rfl, fun _ _ => rfl, fun _ _ => rfl, ms, ps, _, rfl⟩

theorem BitWritten.stored {d e : Dev} {k addr i : Nat} {v : Bool} (place : i < 8)
    (only : ∃ ms ps ss, e = { d with mdies := ms, pages := ps, ses := ss, mem := Tbl.set [] d.mem k (Mem.write (kmem d k) addr [setBitIn (Mem.byte (kmem d k) addr) i v]) }) :
    BitWritten d e k addr i v := by
  obtain ⟨ms, ps, ss, rfl⟩ := only
  have own : kmem { d with mdies := ms, pages := ps, ses := ss, mem := Tbl.set [] d.mem k (Mem.write (kmem d k) addr [setBitIn (Mem.byte (kmem d k) addr) i v]) } k
      = Mem.write (kmem d k) addr [setBitIn (Mem.byte (kmem d k) addr) i v] := Tbl.get_set_self ..
  have here := Mem.byte_write_inside (m := kmem d k) (a := addr) (bs := [setBitIn (Mem.byte (kmem d k) addr) i v]) 0 (by simp)
  refine ⟨?_, fun b hb other => ?_, fun x other => ?_, fun j other => Tbl.get_set_other _ _ _ _ _ other, ms, ps, ss, rfl⟩
  · rw [own]
    refine (congrArg (BitVec.getLsbD · i) here).trans ?_
    simp [getLsbD_setBitIn _ v place]
  · rw [own]
    refine (congrArg (BitVec.getLsbD · b) here).trans ?_
    simp [getLsbD_setBitIn _ v hb, other]
  · rw [own]
    refine Mem.byte_write_outside _ _ _ _ ?_
    simp only [List.length_cons, List.length_nil]
    omega

section WriteMemBit

variable {d e : Dev} {k addr i : Nat} {b : Byte} {v : Bool} (found : memReadAll d k addr 1 .clean = (e, .ok, [b]))
include found

theorem writeMemBit_same (same : bit b i = v) : writeMemBit d k addr i v = e := by simp [writeMemBit, found, same]

theorem writeMemBit_differs (differs : bit b i ≠ v) {x : Dev} (stores : memWriteAll e k addr [setBitIn b i v] .firmware .clean = (x, .done)) :
    writeMemBit d k addr i v = x := by simp [writeMemBit, found, differs, stores]

end WriteMemBit

/-- R305: a bit of a near page is written where it differs, and nothing else of memory changes. -/
theorem writeMemBit_near {d : Dev} {k addr i : Nat} (v : Bool) (place : i < 8) (reads : canRead d k addr = true) (writes : canWrite d k addr = true)
    (table : tableBad d k addr = false) (near : (page d k (addr / pageBytes)).st = .near)
    (sound : addr % pageBytes / 64 ∉ (page d k (addr / pageBytes)).poison) (waits : d.waits = [])
    (uncached : cached d (page d k (addr / pageBytes)).home k (addr / 256) = none) : BitWritten d (writeMemBit d k addr i v) k addr i v := by
  have finds := peek_byte near sound waits uncached
  have reading := memAccess_ok true 1 table reads (by simp [near]) (by simp [near]) finds
  obtain ⟨ms, ps, same, frame⟩ : ∃ ms ps, (Tbl.get {} ps (pageKey k (addr / pageBytes)) : Page) = { page d k (addr / pageBytes) with lastAccess := d.eclk }
      ∧ accessed true d k addr 1 = { d with mdies := ms, pages := ps } := by
    obtain ⟨ms, frame⟩ := accessed_near near 1
    exact ⟨ms, _, page_touched d k addr, frame⟩
  generalize accessed true d k addr 1 = e at *
  subst frame
  have page' : page { d with mdies := ms, pages := ps } k (addr / pageBytes) = { page d k (addr / pageBytes) with lastAccess := d.eclk } := same
  have table' : tableBad { d with mdies := ms, pages := ps } k addr = false := by
    rw [← table]
    simp only [tableBad, page']
    rfl
  have writes' : canWrite { d with mdies := ms, pages := ps } k addr = true := by
    rw [← writes]
    simp only [canWrite, mapped, page']
    rfl
  have near' : (page { d with mdies := ms, pages := ps } k (addr / pageBytes)).st = .near := by rw [page']; exact near
  have sound' : ∀ l ∈ linesOf (addr % pageBytes) [setBitIn (Mem.byte (kmem d k) addr) i v].length,
      l ∉ (page { d with mdies := ms, pages := ps } k (addr / pageBytes)).poison := by
    intro l inside
    have line : l = addr % pageBytes / 64 := by simpa [linesOf_byte] using inside
    rw [line, page']
    exact sound
  have inside : addr % pageBytes + [setBitIn (Mem.byte (kmem d k) addr) i v].length ≤ pageBytes := by
    simp only [List.length_cons, List.length_nil, pageBytes]
    omega
  have found := (memReadAll_byte d k addr .clean).trans reading
  by_cases has : bit (Mem.byte (kmem d k) addr) i = v
  · rw [writeMemBit_same found has]
    exact .kept has ⟨ms, ps, rfl⟩
  · have stores := (memWriteAll_one (by simp) inside _ k .firmware .clean).trans (memWrite_near _ .firmware table' writes' near')
    rw [writeMemBit_differs found has stores]
    obtain ⟨ms', ps', ss, frame⟩ := applyWrite_sound sound'
    exact .stored place ⟨ms', ps', ss, by rw [frame]; rfl⟩

/-- R305: an owned block that no block map holds has its bit in the freeze plane alone. -/
theorem setFreeze_plane {d : Dev} {k g coll j : Nat} {t : Task} {r : BitVec 128} (v : Bool) (held : task d k = some t) (place : blockPlace t g = some (r, coll, j))
    (noMap : mapsOf d t (recTree r) coll = []) (owned : ownerOf t (g / 2 ^ 19) = some (selfModule d)) :
    let z := planeBit (Config.planeAddr (t.data 0x09)) (firstOwned t (selfModule d) * 2 ^ 19) g
    setFreeze d k g v = writeMemBit d k z.1 z.2 v := by
  intro z
  have none' (f : Dev → Nat → Dev) : each d [] f = d := rfl
  simp only [setFreeze, held, place, noMap, none', owned, if_true, z]

theorem freezeStep_closed {d : Dev} {k step : Nat} {t : Task} (held : task d k = some t)
    (closed : ¬ (t.st.active = true ∧ t.inRound = false ∧ freezeWindow d k step = true) ∨ ∀ w ∈ freezeEntries t, nth w 0 ≠ step) : freezeStep d k step = d := by
  simp only [freezeStep, held]
  split
  next opened =>
    have none' : (freezeEntries t).filter (fun w => nth w 0 == step) = [] := by
      have free := closed.resolve_left (fun shut => shut (by simpa [and_assoc] using opened))
      simpa [List.filter_eq_nil_iff] using free
    simp [freezeWrite, held, none', each]
  next => rfl

theorem freezeStep_entry {d : Dev} {k step : Nat} {t : Task} {w : List DWord} (held : task d k = some t) (active : t.st.active = true) (out : t.inRound = false)
    (window : freezeWindow d k step = true) (entries : freezeEntries t = [w]) (due : nth w 0 = step) (one : nth w 2 = 1) :
    freezeStep d k step = setFreeze d k (nth w 1) (bit (nthW w 3) 0) := by
  have block : freezeBlocks w = [nth w 1] := by simp [freezeBlocks, one]
  simp [freezeStep, freezeWrite, held, active, out, window, entries, due, block, each]

/-- R305, R306. -/
theorem freezeApply : Sys2Proof.Claim.FreezeApply := by
  intro k step s t awake held opened
  refine ⟨fun closed => run_becomes awake (freezeStep_closed held closed) awake.2, ?_⟩
  intro w r coll j ⟨active, out, window⟩ entries due one place noMap owned z pg reads writes table near sound waits uncached
  have effect := (freezeStep_entry held active out window entries due one).trans (setFreeze_plane (bit (nthW w 3) 0) held place noMap owned)
  have low : z.2 < 8 := Nat.mod_lt _ (by decide)
  obtain ⟨set, rest, bytes, kennels, ms, ps, ss, frame⟩ := writeMemBit_near (bit (nthW w 3) 0) low reads writes table near sound waits uncached
  replace effect : freezeStep s.d k.toNat step.toNat = writeMemBit s.d k.toNat z.1 z.2 (bit (nthW w 3) 0) := effect
  generalize writeMemBit s.d k.toNat z.1 z.2 (bit (nthW w 3) 0) = e at *
  refine ⟨{ s with d := e }, run_becomes awake effect (awake.2.of_eq ⟨by rw [frame], by rw [frame]⟩ (by rw [frame])), set, rest, bytes, kennels, ?_⟩
  exact frame.trans (by rw [frame])

end Sys2Proof.Machine

namespace Sys2Proof.Machine

/-! ### What a read of memory keeps, whatever the codes find (R236, R240, R243) -/

/-- Kennels, the clock, power and what the roots have completed are the same. -/
structure Steady (d e : Dev) : Prop where
  kennels : e.kennels = d.kennels
  eclk : e.eclk = d.eclk
  power : e.power = d.power
  delivered : e.delivered = d.delivered

theorem Steady.trans {a b c : Dev} (first : Steady a b) (second : Steady b c) : Steady a c :=
  ⟨second.kennels.trans first.kennels, second.eclk.trans first.eclk, second.power.trans first.power, second.delivered.trans first.delivered⟩

/-- Tasks, queues and the module's own number are the same as well. -/
structure KeepsTasks (d e : Dev) : Prop extends Steady d e where
  tasks : e.tasks = d.tasks
  hqs : e.hqs = d.hqs
  epoch : e.epochRun = d.epochRun

theorem KeepsTasks.refl (d : Dev) : KeepsTasks d d := ⟨⟨rfl, rfl, rfl, rfl⟩, rfl, rfl, rfl⟩

theorem KeepsTasks.trans {a b c : Dev} (first : KeepsTasks a b) (second : KeepsTasks b c) : KeepsTasks a c :=
  ⟨first.toSteady.trans second.toSteady, second.tasks.trans first.tasks, second.hqs.trans first.hqs, second.epoch.trans first.epoch⟩

theorem KeepsTasks.each {α : Type} {f : Dev → α → Dev} (step : ∀ d x, KeepsTasks d (f d x)) (xs : List α) (d : Dev) : KeepsTasks d (each d xs f) := by
  induction xs generalizing d with
  | nil => exact .refl d
  | cons x r ih => exact (step d x).trans (ih _)

theorem KeepsTasks.task {d e : Dev} (keeps : KeepsTasks d e) (k : Nat) : task e k = task d k := by
  rw [Machine.task, keeps.tasks, Machine.task]

theorem HostOnly.keepsTasks {d e : Dev} (only : HostOnly d e) : KeepsTasks d e := by
  rw [← only]
  exact ⟨⟨rfl, rfl, rfl, rfl⟩, rfl, rfl, rfl⟩

theorem AccessOnly.keepsTasks {d e : Dev} (only : AccessOnly d e) : KeepsTasks d e := by
  obtain ⟨⟨ms, ps, rfl⟩, -⟩ := only
  exact ⟨⟨rfl, rfl, rfl, rfl⟩, rfl, rfl, rfl⟩

theorem UeOnly.keepsTasks {d e : Dev} (only : UeOnly d e) : KeepsTasks d e := by
  obtain ⟨ms, ps, rs, rfl⟩ := only
  exact ⟨⟨rfl, rfl, rfl, rfl⟩, rfl, rfl, rfl⟩

theorem keepsTasks_modMdie (d : Dev) (m : Nat) (f : MDie → MDie) : KeepsTasks d (modMdie d m f) := ⟨⟨rfl, rfl, rfl, rfl⟩, rfl, rfl, rfl⟩

theorem keepsTasks_modPage (d : Dev) (key : Nat) (f : Page → Page) : KeepsTasks d (modPage d key f) := ⟨⟨rfl, rfl, rfl, rfl⟩, rfl, rfl, rfl⟩

theorem keepsTasks_metaError (d : Dev) (key : Nat) : KeepsTasks d (metaError d key) := ⟨⟨rfl, rfl, rfl, rfl⟩, rfl, rfl, rfl⟩

theorem keepsTasks_watermark (fuel : Nat) (d : Dev) (m : Nat) : KeepsTasks d (watermark fuel d m) := by
  induction fuel generalizing d with
  | zero => exact .refl d
  | succ n ih =>
    unfold watermark
    simp only
    split
    · exact .refl d
    · split
      · exact (mdiesOnly_requestMig ..).access.keepsTasks.trans (ih _)
      · exact .refl d

theorem keepsTasks_watermarkCheck (d : Dev) (m : Nat) : KeepsTasks d (watermarkCheck d m) := by
  unfold watermarkCheck
  simp only
  split
  · exact (keepsTasks_modMdie ..).trans (keepsTasks_watermark ..)
  · exact keepsTasks_modMdie ..

theorem keepsTasks_takeFrame (d : Dev) (key m : Nat) : KeepsTasks d (takeFrame d key m) :=
  ((keepsTasks_modMdie ..).trans (keepsTasks_modPage ..)).trans (keepsTasks_watermarkCheck ..)

theorem keepsTasks_retire (d : Dev) (m key o : Nat) : KeepsTasks d (retire d m key o) := by
  unfold retire
  extract_lets p near ix b g c e
  have counts : KeepsTasks d b := keepsTasks_modMdie ..
  have moves : KeepsTasks b c := by
    simp only [c]
    split
    · split
      · exact (mdiesOnly_requestMig ..).access.keepsTasks
      · exact (keepsTasks_modMdie ..).trans (keepsTasks_takeFrame ..)
    · exact (keepsTasks_modMdie ..).trans (keepsTasks_modPage ..)
  have reads : KeepsTasks c { e with retireSeq := e.retireSeq + 1 } := ⟨⟨rfl, rfl, rfl, rfl⟩, rfl, rfl, rfl⟩
  exact ((counts.trans moves).trans reads).trans (HostOnly.raise ..).keepsTasks

theorem keepsTasks_correctedError (d : Dev) (m key o : Nat) : KeepsTasks d (correctedError d m key o) := by
  unfold correctedError
  extract_lets p gran ix recent b
  have counts : KeepsTasks d b := keepsTasks_modMdie ..
  clear_value b
  split
  · exact counts
  · exact counts.trans (keepsTasks_retire ..)

theorem keepsTasks_poisonedLines (d : Dev) (key : Nat) (f : Nat → Nat) (bad ls : List Nat) :
    KeepsTasks d (poisonLines (each d bad (fun d b => countUe d key (f b))) key ls) :=
  (KeepsTasks.each (fun _ _ => (ueOnly_countUe ..).keepsTasks) _ d).trans (ueOnly_poisonLines ..).keepsTasks

theorem keepsTasks_eccFinds (d : Dev) (k addr n : Nat) (ecc : Ecc) : KeepsTasks d (eccFinds d k addr n ecc).1 := by
  cases ecc with
  | cache ls =>
    refine KeepsTasks.each (fun d z => ?_) _ d
    split
    · exact ⟨⟨rfl, rfl, rfl, rfl⟩, rfl, rfl, rfl⟩
    · exact .refl d
  | hint t =>
    simp only [eccFinds]
    split
    · exact .refl d
    · exact ⟨⟨rfl, rfl, rfl, rfl⟩, rfl, rfl, rfl⟩
  | corrected ls => exact KeepsTasks.each (fun _ _ => keepsTasks_correctedError ..) _ d
  | ue ls => exact keepsTasks_poisonedLines ..
  | _ => exact .refl d

theorem keepsTasks_memAccess (own : Bool) (d : Dev) (k addr n : Nat) (ecc : Ecc) : KeepsTasks d (memAccess own d k addr n ecc).1 := by
  have touches : KeepsTasks d (touched d k addr) := keepsTasks_modPage ..
  have finds := touches.trans (keepsTasks_eccFinds (touched d k addr) k addr n ecc)
  unfold memAccess
  simp only [touched_eq]
  refine iteInduction (motive := fun r : Dev × MemClass × List Byte => KeepsTasks d r.1) (fun _ => keepsTasks_metaError ..) fun _ => ?_
  refine iteInduction (motive := fun r : Dev × MemClass × List Byte => KeepsTasks d r.1) (fun _ => .refl d) fun _ => ?_
  refine iteInduction (motive := fun r : Dev × MemClass × List Byte => KeepsTasks d r.1) (fun _ => touches) fun _ => ?_
  refine iteInduction (motive := fun r : Dev × MemClass × List Byte => KeepsTasks d r.1) (fun _ => touches.trans (keepsTasks_metaError ..)) fun _ => ?_
  refine iteInduction (motive := fun r : Dev × MemClass × List Byte => KeepsTasks d r.1) (fun _ => touches) fun _ => ?_
  refine iteInduction (motive := fun r : Dev × MemClass × List Byte => KeepsTasks d r.1) (fun _ => touches.trans ⟨⟨rfl, rfl, rfl, rfl⟩, rfl, rfl, rfl⟩) fun _ => ?_
  have counts (b : Dev) : KeepsTasks b (if own then readCount b k addr n else b) := by
    split
    · exact (accessOnly_readCount ..).keepsTasks
    · exact .refl _
  have reads := (finds.trans (counts _)).trans (mdiesOnly_tcRead _ k addr n).access.keepsTasks
  refine iteInduction (motive := fun r : Dev × MemClass × List Byte => KeepsTasks d r.1) (fun _ => reads) fun _ => ?_
  split
  · exact reads
  · exact reads.trans (keepsTasks_modMdie ..)
  · exact reads.trans (keepsTasks_poisonedLines ..)
  · exact reads.trans (keepsTasks_metaError ..)
  · exact reads

theorem keepsTasks_memReadAll (d : Dev) (k addr n : Nat) (ecc : Ecc) : KeepsTasks d (memReadAll d k addr n ecc).1 := by
  unfold memReadAll
  refine foldl_keeps (P := fun r : Dev × MemClass × List Byte => KeepsTasks d r.1) (fun r z keeps => ?_) _ (KeepsTasks.refl d)
  exact keeps.trans (keepsTasks_memAccess true r.1 k z.1.1 z.1.2.length (if z.2 = 0 then ecc else .clean))

end Sys2Proof.Machine

namespace Sys2Proof.Machine

/-! ### Update reports (R311, R353) -/

theorem modTask_held {d : Dev} {k : Nat} {t : Task} (held : task d k = some t) (f : Task → Task) : modTask d k f = setTask d k (some (f t)) := by
  simp [modTask, held]

theorem keepsTasks_setDState (d : Dev) (n : DState) (c : DWord) : KeepsTasks d (setDState d n c) :=
  KeepsTasks.trans (b := { d with dstate := n }) ⟨⟨rfl, rfl, rfl, rfl⟩, rfl, rfl, rfl⟩ (setDState_frame d n c).keepsTasks

theorem keepsTasks_followTasks (d : Dev) (c : DWord) : KeepsTasks d (followTasks d c) := by
  unfold followTasks
  simp only
  cases d.dstate with
  | ready => exact iteInduction (fun _ => keepsTasks_setDState ..) fun _ => .refl d
  | running => exact iteInduction (fun _ => keepsTasks_setDState ..) fun _ => iteInduction (fun _ => .refl d) fun _ => keepsTasks_setDState ..
  | recovering => exact iteInduction (fun _ => .refl d) fun _ => iteInduction (fun _ => keepsTasks_setDState ..) fun _ => keepsTasks_setDState ..
  | draining => exact iteInduction (fun _ => .refl d) fun _ => keepsTasks_setDState ..
  | _ => exact .refl d

/-- A move of a task sets its state, and its status as it ends. -/
theorem moveTask_moves {d : Dev} {k : Nat} {t : Task} (held : task d k = some t) (st : TaskState) (sc : Sc) (c : DWord) :
    KeepsTasks (setTask d k (some { t with st := st, endSt := if st = .ended then sc else t.endSt })) (moveTask d k st sc c) := by
  simp only [moveTask, held]
  exact (HostOnly.raise ..).keepsTasks.trans (keepsTasks_followTasks ..)

/-- A task that ends leaves its round and its requests. -/
def endedAs (t : Task) (c : Sc) : Task := { t with inRound := false, asking := none, batchReq := [], parity := none, st := .ended, endSt := c }

theorem endLocal_ok {d : Dev} {k : Nat} {t : Task} (held : task d k = some t) (active : t.st.active = true) :
    task (endLocal d k .ok 0) k = some (endedAs t .ok) ∧ (endLocal d k .ok 0).hqs = d.hqs := by
  have runs : runsTask d k = true := by simp [runsTask, held, active]
  have ends : endLocal d k .ok 0 = moveTask (setTask d k (some { t with inRound := false, asking := none, batchReq := [], parity := none })) k .ended .ok 0 := by
    simp [endLocal, runs, modTask_held held]
  have moves := moveTask_moves (task_setTask (d := d) (i := k) (some { t with inRound := false, asking := none, batchReq := [], parity := none })) .ended .ok 0
  rw [ends]
  exact ⟨(moves.task k).trans (task_setTask ..), moves.hqs⟩

/-- The task has noted the update of step n. -/
def lastUpdated (t : Task) (n : Nat) : Task := { t with lastUpd := some (max n (t.lastUpd.getD n)) }

/-- The task has noted the update of step n, and the end of a stall that it ends. -/
def noted (t : Task) (n : Nat) : Task :=
  { lastUpdated t n with stallFrom := match t.stallFrom with | some (a, b) => if a ≤ n then none else some (a, b) | none => none }

theorem noted_stalls_on {t : Task} {n : Nat} (goesOn : ∀ a b, t.stallFrom = some (a, b) → n < a) : noted t n = lastUpdated t n := by
  have kept : (lastUpdated t n).stallFrom = match t.stallFrom with | some (a, b) => if a ≤ n then none else some (a, b) | none => none := by
    cases stalled : t.stallFrom with
    | none => exact stalled
    | some z => exact stalled.trans (if_neg (Nat.not_le.2 (goesOn z.1 z.2 stalled))).symm
  rw [noted, ← kept]

theorem noted_stall_ends {t : Task} {n a b : Nat} (stalled : t.stallFrom = some (a, b)) (ends : a ≤ n) : noted t n = { lastUpdated t n with stallFrom := none } := by
  simp [noted, stalled, ends]

/-- Step n is the task's last, or the one that a stop names. -/
def lastStep (t : Task) (n : Nat) : Bool :=
  n ≥ t.stepLast || (t.st == .stopping && (match t.stopStep with | some x => decide (x ≤ n) | none => false))

theorem lastStep_iff (t : Task) (n : Nat) : lastStep t n = true ↔ t.stepLast ≤ n ∨ (t.st = .stopping ∧ ∃ x, t.stopStep = some x ∧ x ≤ n) := by
  cases named : t.stopStep with
  | none => simp [lastStep, named]
  | some x => simp [lastStep, named]

/-- A stall that the update of step n ends is over, and reported. -/
def stallEnds (d : Dev) (k n : Nat) (t : Task) : Dev :=
  match t.stallFrom with
  | some (a, b) => if a ≤ n then raise (modTask d k (fun t => { t with stallFrom := none })) (evTaskStall k (beatNow d - b) (roundClass t)) else d
  | none => d

theorem stallEnds_task {d : Dev} {k n : Nat} {t : Task} (held : task d k = some (lastUpdated t n)) :
    task (stallEnds d k n (lastUpdated t n)) k = some (noted t n) ∧ (stallEnds d k n (lastUpdated t n)).hqs = d.hqs
      ∧ (stallEnds d k n (lastUpdated t n)).epochRun = d.epochRun := by
  have same : (lastUpdated t n).stallFrom = t.stallFrom := rfl
  cases stalled : t.stallFrom with
  | none =>
    rw [stallEnds, same, stalled, noted_stalls_on (by simp [stalled])]
    exact ⟨held, rfl, rfl⟩
  | some z =>
    by_cases ends : z.1 ≤ n
    · simp only [stallEnds, same, stalled, if_pos ends, modTask_held held]
      have tells := HostOnly.keepsTasks (HostOnly.raise (setTask d k (some { lastUpdated t n with stallFrom := none }))
        (evTaskStall k (beatNow d - z.2) (roundClass (lastUpdated t n))))
      rw [noted_stall_ends stalled ends]
      exact ⟨(tells.task k).trans (task_setTask ..), tells.hqs, tells.epoch⟩
    · have stays : stallEnds d k n (lastUpdated t n) = d := by simp only [stallEnds, same, stalled, if_neg ends]
      have goesOn : ∀ a b, t.stallFrom = some (a, b) → n < a := by
        intro a b named
        obtain rfl := Option.some.inj (stalled.symm.trans named)
        exact Nat.not_le.1 ends
      rw [stays, noted_stalls_on goesOn]
      exact ⟨held, rfl, rfl⟩

/-- The module's commit of step n begins where its group has one. -/
def commitAt (d : Dev) (k n : Nat) (t : Task) : Dev :=
  match t.myGroup d with
  | some g => if isCommitStep t g n then runCommit d k n else d
  | none => d

theorem commitAt_none {d : Dev} {k n : Nat} {t : Task} (noCommit : ∀ g, t.myGroup d = some g → isCommitStep t g n = false) : commitAt d k n t = d := by
  unfold commitAt
  split
  next g mine => simp [noCommit g mine]
  next => rfl

theorem updateDone_eq {d : Dev} {k n : Nat} {t : Task} (held : task d k = some t) : updateDone d k n
    = (let e := commitAt (stallEnds (setTask d k (some (lastUpdated t n))) k n (lastUpdated t n)) k n (lastUpdated t n)
       if lastStep t n then endLocal e k .ok 0 else e) := by
  unfold updateDone
  rw [modTask_held held]
  simp only [task_setTask]
  rfl

/-- An update is noted; no commit begins at a step that is none, and the task ends at its last step. -/
theorem updateDone_notes {d : Dev} {k n : Nat} {t : Task} (held : task d k = some t) (noCommit : ∀ g, t.myGroup d = some g → isCommitStep t g n = false) :
    ∃ e, task e k = some (noted t n) ∧ e.hqs = d.hqs ∧ updateDone d k n = if lastStep t n then endLocal e k .ok 0 else e := by
  obtain ⟨mine, same, epoch⟩ := stallEnds_task (task_setTask (d := d) (i := k) (some (lastUpdated t n)))
  have whole := updateDone_eq (n := n) held
  generalize stallEnds (setTask d k (some (lastUpdated t n))) k n (lastUpdated t n) = e at *
  have group : (lastUpdated t n).myGroup e = t.myGroup d := by
    simp only [Task.myGroup, selfModule, epoch]
    rfl
  rw [commitAt_none (t := lastUpdated t n) fun g its => noCommit g (group ▸ its)] at whole
  exact ⟨e, mine, same, whole⟩

theorem updateDone_task {d : Dev} {k n : Nat} {t : Task} (held : task d k = some t) (active : t.st.active = true)
    (noCommit : ∀ g, t.myGroup d = some g → isCommitStep t g n = false) :
    task (updateDone d k n) k = some (if lastStep t n then endedAs (noted t n) .ok else noted t n) ∧ (updateDone d k n).hqs = d.hqs := by
  obtain ⟨e, mine, same, done⟩ := updateDone_notes held noCommit
  rw [done]
  split
  · obtain ⟨ends, keeps⟩ := endLocal_ok mine active
    exact ⟨ends, keeps.trans same⟩
  · exact ⟨mine, same⟩

theorem keepsTasks_reportBytes (d : Dev) (k : Nat) (b : DWord) (ecc : Ecc) : KeepsTasks d (reportBytes d k b ecc).1 := by
  have reads := keepsTasks_memReadAll d k (bAddr b * 64) 64 ecc
  unfold reportBytes
  extract_lets a
  refine iteInduction (motive := fun r : Dev × Option (List Byte) => KeepsTasks d r.1) (fun _ => ?_) fun _ =>
    iteInduction (motive := fun r : Dev × Option (List Byte) => KeepsTasks d r.1) (fun _ => .refl d) fun _ => .refl d
  split
  next whole => exact (congrArg (KeepsTasks d ·.1) whole).mp reads
  next whole => exact (congrArg (KeepsTasks d ·.1) whole).mp reads

/-- A report that is read may name poison and skipped steps, which are raised, and its update is noted. -/
theorem takeReport_reads {d d1 : Dev} {k : Nat} {b : DWord} {ecc : Ecc} {bs : List Byte} (reads : reportBytes d k b ecc = (d1, some bs)) :
    ∃ e, KeepsTasks d e ∧ takeReport d k b ecc = updateDone e k (leNat (bs.take 8)) := by
  have keeps := keepsTasks_reportBytes d k b ecc
  rw [reads] at keeps
  simp only [takeReport, reads]
  refine ⟨_, ?_, rfl⟩
  have tells (d : Dev) (p : Prop) [Decidable p] (e : Ev) : KeepsTasks d (if p then raise d e else d) :=
    iteInduction (fun _ => (HostOnly.raise d e).keepsTasks) fun _ => .refl d
  exact (keeps.trans (tells ..)).trans (tells ..)

section Report

variable {d : Dev} {k q : Nat} {t : Task} (held : task d k = some t) (ecc : Ecc)
include held

theorem takesReports_iff : takesReports d k = true ↔ t.st = .running ∨ t.st = .stopping := by simp [takesReports, held]

theorem updateReport_idle (idle : ¬ ((t.st = .running ∨ t.st = .stopping) ∧ q = t.fwQueue ∧ popsOutstanding d (· == .fw) < 16)) : updateReport d k q ecc = d := by
  have quiet : (!takesReports d k || q ≠ t.fwQueue || popsOutstanding d (· == .fw) ≥ 16) = true := by
    by_contra busy
    refine idle ?_
    rw [← takesReports_iff held]
    simpa [and_assoc] using busy
  simp only [updateReport, held, quiet, if_true]

variable (takes : (t.st = .running ∨ t.st = .stopping) ∧ q = t.fwQueue ∧ popsOutstanding d (· == .fw) < 16)
include takes

theorem report_due : (!takesReports d k || q ≠ t.fwQueue || popsOutstanding d (· == .fw) ≥ 16) = false := by
  obtain ⟨runs, own, room⟩ := takes
  simp [(takesReports_iff held).2 runs, own, room]

theorem updateReport_denied (denies : hqAllows (hq d q) k = false) : updateReport d k q ecc = hqDeny d q := by
  simp only [updateReport, held, report_due held takes, denies, Bool.false_eq_true, if_false, Bool.not_false, if_true]

variable (allows : hqAllows (hq d q) k = true)
include allows

theorem updateReport_waits (empty : (hq d q).items = []) : updateReport d k q ecc = modHq d q (fun x => { x with waiters := x.waiters ++ [⟨.fw, k, d.eclk⟩] }) := by
  simp only [updateReport, held, report_due held takes, allows, empty, qPop_waits, Bool.false_eq_true, if_false, Bool.not_true]

theorem updateReport_pops {b : DWord} {r : List DWord} (items : (hq d q).items = b :: r) :
    updateReport d k q ecc = takeReport (modHq d q (fun x => { x with items := r, popCnt := inc x.popCnt })) k b ecc := by
  simp only [updateReport, held, report_due held takes, allows, items, Bool.false_eq_true, if_false, Bool.not_true]

end Report

theorem updateReports : Sys2Proof.Claim.UpdateReports := by
  intro k q s t ecc awake held takes
  refine ⟨fun idle => run_becomes awake (updateReport_idle held ecc idle) awake.2, fun takes denies => ?_, fun takes allows => ⟨fun empty => ?_, ?_⟩⟩
  · exact run_becomes awake (updateReport_denied held ecc takes denies) (awake.2.of_eq ⟨rfl, rfl⟩ rfl)
  · exact run_becomes awake (updateReport_waits held ecc takes allows empty) (awake.2.of_eq ⟨rfl, rfl⟩ rfl)
  · intro b r items popped
    have pops : updateReport s.d k.toNat q.toNat ecc = takeReport popped k.toNat b ecc := updateReport_pops held ecc takes allows items
    refine ⟨fun d1 fails => run_settles awake (pops.trans ?_), ?_⟩
    · simp only [takeReport, fails]
    · intro d1 bs reads n noCommit
      have started : task popped k.toNat = some t := held
      have active : t.st.active = true := by
        rcases takes.1 with runs | stops
        · rw [runs]; rfl
        · rw [stops]; rfl
      obtain ⟨e, keeps, notes⟩ := takeReport_reads reads
      have mine : task e k.toNat = some t := (keeps.task _).trans started
      obtain ⟨ends, same⟩ := updateDone_task (n := n) mine active fun g its => noCommit g (by
        rw [← its]
        simp only [Task.myGroup, selfModule, keeps.epoch]
        rfl)
      refine ⟨updateDone e k.toNat n, _, run_settles awake (pops.trans notes), same.trans keeps.hqs, ends, ?_, ?_, fun last => ?_, fun before stop => ?_⟩
      · split <;> rfl
      · split <;> rfl
      · rw [if_pos ((lastStep_iff t n).2 last)]
        exact ⟨rfl, rfl⟩
      · have goesOn : ¬ lastStep t n = true := by
          rw [lastStep_iff]
          rintro (late | ⟨stopping, x, named, due⟩)
          · omega
          · exact absurd (stop stopping x named) (Nat.not_lt.2 due)
        rw [if_neg goesOn]
        rfl

end Sys2Proof.Machine

namespace Sys2Proof.Proofs

open Sys2Proof.Machine

/-- Settles O29: a report is popped, read and noted, a freeze entry reaches one bit of the plane, and the default ranges telescope. -/
theorem updatesAndFreezes : Obligations.UpdatesAndFreezes := ⟨updateReports, freezeApply, defaultRangesTile⟩

end Sys2Proof.Proofs

namespace Sys2Proof.Machine

/-! ### Commands that move the device state (R352, R454) -/

/-- A device state entered from `b`, with what the hosts are told, and the reply to mailbox m. -/
theorem finish_moved {b e : Dev} {st : DState} (moved : HostOnly { b with dstate := st } e) (m : Nat) : (finish e m .ok 0 0 0).dstate = st
    ∧ finish e m .ok 0 0 0 = { hostOf b (finish e m .ok 0 0 0) with dstate := st, begun := b.begun.filter (· != m) } := by
  have tells := finish_frame e m .ok 0 0 0
  generalize finish e m .ok 0 0 0 = u at *
  have whole : u = { hostOf b u with dstate := st, begun := b.begun.filter (· != m) } := by
    conv_lhs => rw [← tells, ← moved]
  exact ⟨by rw [whole], whole⟩

/-- A move from one state to another, as one, to the last. -/
theorem HostOnly.moves {b e : Dev} {st st' : DState} (moved : HostOnly { b with dstate := st } e) (c : DWord) :
    HostOnly { b with dstate := st' } (setDState e st' c) := by
  refine HostOnly.trans ?_ (setDState_frame e st' c)
  unfold HostOnly at *
  rw [← moved]

/-- READY has been reached, and the fused security version with it has risen to the image's, unless it was reached before. -/
def atReady (d : Dev) : Dev := { d with
  reachedReady := true
  fuses := if d.reachedReady then d.fuses else { d.fuses with svn := max d.fuses.svn (if d.runningB.isSome then slotSvn (runningSlot d) else 0) } }

theorem reachReady_eq (d : Dev) : reachReady d = atReady d := by
  unfold reachReady atReady
  cases reached : d.reachedReady with
  | true => simp [← reached]
  | false => rfl

theorem HostOnly.atReady {a b : Dev} (only : HostOnly a b) : HostOnly (atReady a) (atReady b) := by
  unfold HostOnly at *
  rw [← only]
  rfl

section StateCommand

variable {s : State} {m : MbxId} {code : Nat} {x : Mbx} {r : Req} {row : Cmd} {cmd : Scp} {b e : Dev} {st : DState}

/-- A served command whose effect is a move of the device state from `b`. -/
theorem served_moves (served : Served s m code x r) (listed : cmdOf code x.version = some row) (own : row.target = false) (allowed : s.d.dstate ∈ row.states)
    (field : cmd.field s.d ⟨m.toNat, x.kennel, x, r⟩ = none) (late : cmd.late s.d ⟨m.toNat, x.kennel, x, r⟩ = none)
    (act : cmd.act s.d ⟨m.toNat, x.kennel, x, r⟩ = { d := e }) (moved : HostOnly { b with dstate := st } e) (calm : Calm b) (same : b.begun = s.d.begun) :
    ∃ t, run (fun d => scp d m.toNat code true cmd) s = .next t ∧ t.d.dstate = st
      ∧ t.d = { hostOf b t.d with dstate := st, begun := s.d.begun.filter (· != m.toNat) } := by
  have quiet : Calm e := Calm.host (d := { b with dstate := st }) (calm.of_eq ⟨rfl, rfl⟩ rfl) moved
  obtain ⟨state, whole⟩ := finish_moved moved m.toNat
  exact ⟨_, served_answers served listed own allowed rfl field late act quiet, state, same ▸ whole⟩

end StateCommand

/-- R352, R454, R391. -/
theorem deviceStatesMove : Sys2Proof.Claim.DeviceStatesMove := by
  intro m s x r moves
  refine ⟨fun served state => ?_, fun served state idle => ?_, fun served state => ?_, fun served state clear => ?_⟩
  · have act : devReadyCmd.act s.d ⟨m.toNat, x.kennel, x, r⟩ = { d := atReady (setDState s.d .ready cmdCause) } := by
      rw [← reachReady_eq]
      rfl
    exact served_moves (b := atReady s.d) served rfl rfl (by simp [state]) rfl rfl act (setDState_frame s.d .ready cmdCause).atReady
      (served.1.2.of_eq ⟨rfl, rfl⟩ rfl) rfl
  · have none' : check (anyTask s.d (fun _ => true)) .state = none := check_none (by rw [anyTask, idle]; rfl)
    exact served_moves (cmd := devConfigCmd) (b := s.d) served rfl rfl (by simp [state]) rfl none' rfl (setDState_frame s.d .config cmdCause) served.1.2 rfl
  · have allowed : s.d.dstate ∈ stNew := state
    refine served_moves (cmd := devDrainCmd) (b := { s.d with drainToConfig := bit r.p0 0 }) served rfl rfl allowed rfl rfl rfl ?_ (served.1.2.of_eq ⟨rfl, rfl⟩ rfl) rfl
    have drains := setDState_frame { s.d with drainToConfig := bit r.p0 0 } .draining cmdCause
    generalize setDState { s.d with drainToConfig := bit r.p0 0 } .draining cmdCause = e at *
    have follows : followTasks e 0 = if anyTask s.d (fun t => t.st.active) then e else setDState e (if bit r.p0 0 then .config else .ready) 0 := by
      rw [← drains]
      rfl
    rw [follows]
    split
    · exact drains
    · exact drains.moves 0
  · have none' : check (limitHeld s.d) .state = none := check_none (by simpa [limitHeld, List.any_eq_false] using clear)
    exact served_moves (cmd := devResumeCmd) (b := { s.d with power := { s.d.power with selfRefresh := false } }) served rfl rfl (by simp [state]) rfl none' rfl
      (setDState_frame _ .config cmdCause) (served.1.2.of_eq ⟨rfl, rfl⟩ rfl) rfl

end Sys2Proof.Machine

namespace Sys2Proof.Machine

/-! ### Which mailboxes a reply and a signal touch (R344, R368, R430) -/

/-- No mailbox but m differs, and m is attached as before. -/
structure OnlyMbx (m : Nat) (d e : Dev) : Prop where
  others : ∀ j, j ≠ m → mbx e j = mbx d j
  attached : (mbx e m).isSome = (mbx d m).isSome

theorem OnlyMbx.of_eq {m : Nat} {d e : Dev} (same : e.mbx = d.mbx) : OnlyMbx m d e :=
  ⟨fun _ _ => by rw [mbx, same, mbx], by rw [mbx, same, mbx]⟩

theorem OnlyMbx.trans {m : Nat} {a b c : Dev} (first : OnlyMbx m a b) (second : OnlyMbx m b c) : OnlyMbx m a c :=
  ⟨fun j other => (second.others j other).trans (first.others j other), second.attached.trans first.attached⟩

theorem onlyMbx_setMbx {d : Dev} {m : Nat} {x : Mbx} (held : mbx d m = some x) (y : Mbx) : OnlyMbx m d (setMbx d m (some y)) :=
  ⟨fun j other => mbx_setMbx_other d m j (some y) other, by rw [mbx_setMbx, held]; rfl⟩

theorem onlyMbx_modMbx (d : Dev) (m : Nat) (f : Mbx → Mbx) : OnlyMbx m d (modMbx d m f) := by
  unfold modMbx
  split
  next x held => exact onlyMbx_setMbx held _
  next => exact .of_eq rfl

theorem sendMsix_mbx (d : Dev) (p n v : Nat) : (sendMsix d p n v).mbx = d.mbx := by
  unfold sendMsix
  exact iteInduction (motive := fun e : Dev => e.mbx = d.mbx) (fun _ => rfl) fun _ => iteInduction (motive := fun e : Dev => e.mbx = d.mbx) (fun _ => rfl) fun _ => rfl

theorem onlyMbx_signalCq (d : Dev) (m : Nat) (x : Mbx) : OnlyMbx m d (signalCq d m x) := by
  unfold signalCq
  split
  · exact .of_eq (sendMsix_mbx ..)
  · exact onlyMbx_modMbx ..

theorem onlyMbx_reply (d : Dev) (m : Nat) (c : Sc) (a b e : DWord) : OnlyMbx m d (reply d m c a b e) := by
  unfold reply
  split
  next => exact .of_eq rfl
  next x held =>
    split
    next => exact .of_eq rfl
    next r _ =>
      have emits : OnlyMbx m d (emit d (.reply m (x.cqCount % 2 ^ x.cqLog) (replyEntry d x r c a b e))) := .of_eq rfl
      have stillHeld : mbx (emit d (.reply m (x.cqCount % 2 ^ x.cqLog) (replyEntry d x r c a b e))) m = some x := held
      exact (emits.trans (onlyMbx_setMbx stillHeld _)).trans (onlyMbx_signalCq ..)

theorem onlyMbx_finish (d : Dev) (m : Nat) (c : Sc) (a b e : DWord) : OnlyMbx m d (finish d m c a b e) := by
  have ends : OnlyMbx m d { d with begun := d.begun.filter (· != m) } := .of_eq rfl
  exact (ends.trans (onlyMbx_reply _ m c a b e)).trans (onlyMbx_modMbx ..)

theorem updFn_mbx (d : Dev) (p n : Nat) (wrote : Bool) (g : Fn → Fn) : (updFn d p n wrote g).mbx = d.mbx := by
  unfold updFn
  simp only
  split
  · exact sendMsix_mbx ..
  · rfl

theorem setDevChange_mbx (d : Dev) : (setDevChange d).mbx = d.mbx :=
  foldl_keeps (P := fun e : Dev => e.mbx = d.mbx) (fun _ _ same => (updFn_mbx ..).trans same) _ rfl

/-! ### Commands that act after their reply (R350, R470) -/

/-- A command without checks whose turn it is replies, and then acts. -/
theorem afterReply_acts {d : Dev} {m code : Nat} {x : Mbx} {r : Req} {row : Cmd} (turn : inTurn d m code = some (x, r)) (listed : cmdOf code x.version = some row)
    (own : row.target = false) (always : row.states = []) (f : Dev → Dev) : afterReply d m code f = f (finish d m .ok 0 0 0) := by
  have target : targetBad code x r = false := by simp [targetBad, listed, own]
  have state : stateOk d x r = true := by simp [stateOk, inTurn_cmd turn, listed, always]
  have passes : scpCheck d code true nopCmd ⟨m, actsOn code x r, x, r⟩ = none := by simp [scpCheck, firstSome, check, target, state, nopCmd]
  simp only [afterReply, turn, passes]

theorem inTurn_mbx {d : Dev} {m code : Nat} {x : Mbx} {r : Req} (turn : inTurn d m code = some (x, r)) : mbx d m = some x := by
  unfold inTurn at turn
  grind

/-- The mailbox m is no more. -/
def detached (d : Dev) (m : Nat) : Dev := { setMbx d m none with
  begun := d.begun.filter (· != m), mbxFreed := Tbl.set 0 d.mbxFreed m (d.eclk + 1)
  sessions := d.sessions.filter (fun q => q.2 != m), handshakes := d.handshakes.filter (fun q => q.2 != m) }

theorem dropMbx_detached {d : Dev} {m : Nat} (attached : (mbx d m).isSome = true) (cause : Nat) : dropMbx d m cause false = detached d m := by
  obtain ⟨x, held⟩ := Option.isSome_iff_exists.1 attached
  have held' : mbx { d with begun := d.begun.filter (· != m) } m = some x := held
  simp only [dropMbx, detach, held', Bool.false_eq_true, if_false]
  rfl

/-- Every unit at its reset value, the mailboxes free and no attach in progress. -/
def resetTo (d : Dev) : Dev :=
  { resetUnits d with mbxFreed := freeAll d, hports := d.hports, fns := Tbl.mapAll {} d.fns (fun _ f => { f with attaching := none }) }

theorem resetModule_frame (d : Dev) : ∃ o fs, resetModule d = { resetTo d with out := o, fns := fs } := by
  have tells := HostOnly.setDevChange (resetTo d)
  have mailboxes := setDevChange_mbx (resetTo d)
  have whole : resetModule d = setDevChange (resetTo d) := rfl
  rw [whole]
  generalize setDevChange (resetTo d) = e at *
  refine ⟨e.out, e.fns, ?_⟩
  conv_lhs => rw [← tells, mailboxes]

/-- A reply keeps the fuses, the image slots, the epochs and the retirement list. -/
theorem finish_keeps (d : Dev) (m : Nat) : (finish d m .ok 0 0 0).fuses = d.fuses
    ∧ ((finish d m .ok 0 0 0).slotA = d.slotA ∧ (finish d m .ok 0 0 0).slotB = d.slotB)
    ∧ ((finish d m .ok 0 0 0).epochRun = d.epochRun ∧ (finish d m .ok 0 0 0).epochPrev = d.epochPrev) ∧ (finish d m .ok 0 0 0).retireSeq = d.retireSeq := by
  rw [← finish_frame d m .ok 0 0 0]
  exact ⟨rfl, ⟨rfl, rfl⟩, ⟨rfl, rfl⟩, rfl⟩

/-- R350, R470. -/
theorem detachAndReset : Sys2Proof.Claim.DetachAndReset := by
  intro m s x r
  refine ⟨fun ⟨awake, turn⟩ => ?_, fun ⟨awake, turn⟩ => ?_⟩
  · have only := onlyMbx_finish s.d m.toNat .ok 0 0 0
    have tells := finish_frame s.d m.toNat .ok 0 0 0
    have acts := afterReply_acts turn rfl rfl rfl (fun d => dropMbx d m.toNat 0 false)
    generalize finish s.d m.toNat .ok 0 0 0 = e at *
    have attached : (mbx e m.toNat).isSome = true := by rw [only.attached, inTurn_mbx turn]; rfl
    have effect : mbxDetachCmd s.d m.toNat = detached e m.toNat := acts.trans (dropMbx_detached attached 0)
    refine ⟨{ s with d := detached e m.toNat }, run_becomes awake effect (awake.2.of_eq ⟨?_, ?_⟩ ?_), mbx_setMbx e m.toNat none, ?_, fun z inside => ?_, rfl, fun j other => ?_, ?_⟩
    · rw [← tells]; rfl
    · rw [← tells]; rfl
    · rw [← tells]; rfl
    · refine (Tbl.get_set_self 0 e.mbxFreed m.toNat (e.eclk + 1)).trans ?_
      rw [← tells]
    · exact bne_iff_ne.1 (List.mem_filter.1 inside).2
    · exact (mbx_setMbx_other e m.toNat j none other).trans (only.others j other)
    · simp only [detached, setMbx]
      rw [← tells]
  · obtain ⟨fuses, slots, epochs, retires⟩ := finish_keeps s.d m.toNat
    have effect : devResetCmd s.d m.toNat = resetModule (finish s.d m.toNat .ok 0 0 0) := afterReply_acts turn rfl rfl rfl resetModule
    generalize finish s.d m.toNat .ok 0 0 0 = e at *
    obtain ⟨o, fs, tells⟩ := resetModule_frame e
    have whole : run (fun d => devResetCmd d m.toNat) s = becomes s { resetTo e with out := o, fns := fs } := by
      refine run_becomes awake (effect.trans tells) ⟨⟨rfl, rfl⟩, rfl, rfl⟩
    exact ⟨_, whole, rfl, rfl, rfl, rfl, rfl, rfl, rfl, rfl, rfl, rfl, rfl, rfl, rfl, rfl, fuses, slots.1, slots.2, epochs.1, epochs.2, retires⟩

end Sys2Proof.Machine

namespace Sys2Proof.Machine

/-! ### What a write of memory keeps (R219, R220, R226) -/

theorem keepsTasks_report (d : Dev) (r : Report) : KeepsTasks d (report d r) := ⟨⟨rfl, rfl, rfl, rfl⟩, rfl, rfl, rfl⟩

theorem keepsTasks_applyWrite (d : Dev) (k addr : Nat) (bs : List Byte) (ues : List Nat) : KeepsTasks d (applyWrite d k addr bs ues) := by
  obtain ⟨⟨ms, ps, rs, ss, frame⟩, -⟩ := applyWrite_writes d k addr bs ues
  rw [frame]
  exact ⟨⟨rfl, rfl, rfl, rfl⟩, rfl, rfl, rfl⟩

theorem keepsTasks_memPlanCheck (d : Dev) (k : Nat) : KeepsTasks d (memPlanCheck d k) := by
  unfold memPlanCheck
  extract_lets used far q plan high m b c
  have marks : KeepsTasks d b := ⟨⟨rfl, rfl, rfl, rfl⟩, rfl, rfl, rfl⟩
  have tells : KeepsTasks d c := marks.trans (iteInduction (motive := KeepsTasks b) (fun _ => keepsTasks_report ..) fun _ => .refl b)
  exact tells.trans (iteInduction (motive := KeepsTasks c) (fun _ => keepsTasks_report ..) fun _ => .refl c)

theorem keepsTasks_requestMig (d : Dev) (m key prio : Nat) (up : Bool) : KeepsTasks d (requestMig d m key prio up) := (mdiesOnly_requestMig ..).access.keepsTasks

theorem keepsTasks_askFrame (d : Dev) (m k : Nat) : KeepsTasks d (askFrame d m k) := by
  unfold askFrame
  simp only
  split
  · exact keepsTasks_requestMig ..
  · exact .refl d

theorem keepsTasks_askFrames (d : Dev) (m : Nat) : KeepsTasks d (askFrames d m) :=
  KeepsTasks.each (fun d _ => iteInduction (motive := KeepsTasks d) (fun _ => .refl d) fun _ => keepsTasks_askFrame ..) _ d

theorem keepsTasks_waitWrite (d : Dev) (k addr : Nat) (bs : List Byte) (w : Writer) : KeepsTasks d (waitWrite d k addr bs w) :=
  ⟨⟨rfl, rfl, rfl, rfl⟩, rfl, rfl, rfl⟩

theorem keepsTasks_memWrite (d : Dev) (k addr : Nat) (bs : List Byte) (w : Writer) (ecc : Ecc) : KeepsTasks d (memWrite d k addr bs w ecc).1 := by
  unfold memWrite
  extract_lets key p m ues ce e f
  have corrects (d : Dev) : KeepsTasks d (ce d) := by
    simp only [ce]
    split
    · exact KeepsTasks.each (fun _ _ => keepsTasks_correctedError ..) _ d
    · exact .refl d
  have merges (d : Dev) : KeepsTasks d (applyWrite (ce d) k addr bs ues) := (corrects d).trans (keepsTasks_applyWrite ..)
  have stays : KeepsTasks d e := keepsTasks_modMdie ..
  have frames : KeepsTasks d f := (keepsTasks_takeFrame ..).trans (keepsTasks_modPage ..)
  clear_value ce e f
  refine iteInduction (motive := fun r : Dev × Wrote => KeepsTasks d r.1) (fun _ => keepsTasks_metaError ..) fun _ => ?_
  refine iteInduction (motive := fun r : Dev × Wrote => KeepsTasks d r.1) (fun _ => .refl d) fun _ => ?_
  refine iteInduction (motive := fun r : Dev × Wrote => KeepsTasks d r.1) (fun _ => .refl d) fun _ => ?_
  refine iteInduction (motive := fun r : Dev × Wrote => KeepsTasks d r.1) (fun _ => keepsTasks_metaError ..) fun _ => ?_
  cases p.st with
  | near => exact merges d
  | demoting =>
    dsimp only
    exact ((stays.trans (keepsTasks_modPage ..)).trans (merges _)).trans (keepsTasks_watermarkCheck ..)
  | zero =>
    dsimp only
    refine iteInduction (motive := fun r : Dev × Wrote => KeepsTasks d r.1) (fun _ => ?_) fun _ => (keepsTasks_waitWrite ..).trans (keepsTasks_askFrames ..)
    exact (frames.trans (keepsTasks_applyWrite ..)).trans (keepsTasks_memPlanCheck ..)
  | far => exact ((keepsTasks_requestMig ..).trans (keepsTasks_waitWrite ..)).trans (keepsTasks_askFrames ..)
  | _ => exact keepsTasks_waitWrite ..

theorem keepsTasks_memWriteAll (d : Dev) (k addr : Nat) (bs : List Byte) (w : Writer) (ecc : Ecc) : KeepsTasks d (memWriteAll d k addr bs w ecc).1 := by
  unfold memWriteAll
  refine foldl_keeps (P := fun r : Dev × Wrote => KeepsTasks d r.1) (fun r z keeps => ?_) _ (KeepsTasks.refl d)
  exact keeps.trans (keepsTasks_memWrite r.1 k z.1 z.2 w ecc)

end Sys2Proof.Machine

namespace Sys2Proof.Machine

/-! ### What stopping a kennel's traffic keeps (R110, R166, R205, R288) -/

/-- Kennels, the clock, power, deliveries and tasks are the same. -/
structure Rests (d e : Dev) : Prop extends Steady d e where
  tasks : e.tasks = d.tasks

theorem Rests.refl (d : Dev) : Rests d d := ⟨⟨rfl, rfl, rfl, rfl⟩, rfl⟩

theorem Rests.trans {a b c : Dev} (first : Rests a b) (second : Rests b c) : Rests a c :=
  ⟨first.toSteady.trans second.toSteady, second.tasks.trans first.tasks⟩

theorem Rests.each {α : Type} {f : Dev → α → Dev} (step : ∀ d x, Rests d (f d x)) (xs : List α) (d : Dev) : Rests d (each d xs f) := by
  induction xs generalizing d with
  | nil => exact .refl d
  | cons x r ih => exact (step d x).trans (ih _)

theorem KeepsTasks.rests {d e : Dev} (keeps : KeepsTasks d e) : Rests d e := ⟨keeps.toSteady, keeps.tasks⟩

theorem rests_storeWrite (d : Dev) (sp u a : Nat) (bs : List Byte) : Rests d (storeWrite d sp u a bs) := by
  rw [storeWrite, setStore_frame]
  exact ⟨⟨rfl, rfl, rfl, rfl⟩, rfl⟩

theorem rests_sendFlit (d : Dev) (p : Nat) (f : Flit) : Rests d (sendFlit d p f) := by
  obtain ⟨ps, frame⟩ := sendFlit_frame d p f
  rw [frame]
  exact ⟨⟨rfl, rfl, rfl, rfl⟩, rfl⟩

theorem rests_writeOut (d : Dev) (n s : Nat) (a : Active) (r : Rep) (off : Nat) (bs : List Byte) : Rests d (writeOut d n s a r off bs) := by
  unfold writeOut
  split
  · unfold mcastWrite
    extract_lets x l at' e fs
    have windows : Rests d e := Rests.each (fun _ _ => rests_storeWrite ..) _ d
    exact iteInduction (motive := Rests d) (fun _ => windows) fun _ => windows.trans (Rests.each (fun _ _ => Rests.each (fun _ _ => rests_sendFlit ..) _ _) _ e)
  · exact rests_storeWrite ..

/-- A row under way is finished, into memory or into a store. -/
theorem rests_finishRow (d : Dev) (n s : Nat) : Rests d (finishRow d n s) := by
  unfold finishRow
  split
  · exact .refl d
  · split
    · exact .refl d
    · extract_lets off bs
      refine iteInduction (motive := Rests d) (fun _ => .refl d) fun _ => iteInduction (motive := Rests d) (fun _ => ?_) fun _ => rests_writeOut ..
      split
      · exact (keepsTasks_memWriteAll ..).rests
      · exact .refl d

/-- Where no stream is in the middle of a row, none is finished. -/
theorem finishRow_whole {d : Dev} (whole : RowsWhole d) (n s : Nat) : finishRow d n s = d := by
  unfold finishRow
  cases held : (sslot d n s).act with
  | none => rfl
  | some a =>
    cases writes : writer a with
    | none => simp [writes]
    | some r =>
      have due := whole n s a r held writes
      cases pieces : r.pieces with
      | nil => simp only [pieces] at due; simp [writes, pieces, due]
      | cons p ps => simp only [pieces] at due; simp [writes, pieces, due]

/-- Units, queues, links and what the hosts are told may differ, and no slot holds another descriptor than before. -/
structure Stops (d e : Dev) : Prop where
  frame : { d with
    out := e.out, fns := e.fns, mbx := e.mbx, ports := e.ports, trees := e.trees, adders := e.adders, reads := e.reads, hqs := e.hqs, popReqs := e.popReqs
    pushReqs := e.pushReqs, arrivals := e.arrivals, ses := e.ses, takeUps := e.takeUps, waits := e.waits, watchQ := e.watchQ, mdies := e.mdies, pairs := e.pairs } = e
  acts : ∀ n i a, (sslot e n i).act = some a → (sslot d n i).act = some a

theorem Stops.refl (d : Dev) : Stops d d := ⟨rfl, fun _ _ _ held => held⟩

theorem Stops.trans {a b c : Dev} (first : Stops a b) (second : Stops b c) : Stops a c := by
  refine ⟨?_, fun n i x held => first.acts n i x (second.acts n i x held)⟩
  rw [← second.frame, ← first.frame]

theorem Stops.each {α : Type} {f : Dev → α → Dev} (step : ∀ d x, Stops d (f d x)) (xs : List α) (d : Dev) : Stops d (each d xs f) := by
  induction xs generalizing d with
  | nil => exact .refl d
  | cons x r ih => exact (step d x).trans (ih _)

theorem Stops.rests {d e : Dev} (stops : Stops d e) : Rests d e := by
  rw [← stops.frame]
  exact ⟨⟨rfl, rfl, rfl, rfl⟩, rfl⟩

theorem Stops.rowsWhole {d e : Dev} (stops : Stops d e) (whole : RowsWhole d) : RowsWhole e :=
  fun n i a r held writes => whole n i a r (stops.acts n i a held) writes

theorem HostOnly.stops {d e : Dev} (only : HostOnly d e) : Stops d e := by
  rw [← only]
  exact ⟨rfl, fun _ _ _ held => held⟩

theorem stops_modPort (d : Dev) (p : Nat) (f : Port → Port) : Stops d (modPort d p f) := ⟨rfl, fun _ _ _ held => held⟩

theorem stops_modPair (d : Dev) (e : Nat) (f : Pair → Pair) : Stops d (modPair d e f) := ⟨rfl, fun _ _ _ held => held⟩

theorem stops_dropUnits (d : Dev) (p : UnitId → Bool) : Stops d (dropUnits d p) := ⟨rfl, fun _ _ _ held => held⟩

theorem stops_modTree (d : Dev) (t : Nat) (f : Tree → Tree) : Stops d (modTree d t f) := ⟨rfl, fun _ _ _ held => held⟩

theorem stops_setAdder (d : Dev) (p : Nat) (es : List AEntry) : Stops d (setAdder d p es) := ⟨rfl, fun _ _ _ held => held⟩

theorem stops_seqStop (d : Dev) (e : Nat) : Stops d (seqStop d e) := by
  unfold seqStop
  extract_lets q now m b
  have runsOut : Stops d b := stops_modPair ..
  exact (runsOut.trans (stops_modPair ..)).trans (stops_dropUnits ..)

theorem stops_veStop (d : Dev) (e : Nat) : Stops d (veStop d e) := by
  have closes : Stops d (modVe d e (fun x => { x with run := false, pushing := false })) := stops_modPair ..
  unfold veStop
  generalize modVe d e (fun x => { x with run := false, pushing := false }) = b at *
  exact closes.trans ⟨rfl, fun _ _ _ held => held⟩

theorem stops_disableTree (d : Dev) (t : Nat) : Stops d (disableTree d t) := by
  unfold disableTree clearTree
  extract_lets tr b c
  have frees : Stops d b := Stops.each (fun _ _ => stops_modPort ..) _ d
  have clears : Stops b c := stops_setAdder ..
  exact ((frees.trans clears).trans (stops_modTree ..)).trans (stops_modTree ..)

theorem stops_closeTrees (d : Dev) (k : Nat) : Stops d (closeTrees d k) := Stops.each (fun _ _ => stops_disableTree ..) _ d

theorem stops_purgeFlits (d : Dev) (k : Nat) : Stops d (purgeFlits d k) := Stops.each (fun _ _ => stops_modPort ..) _ d

/-- A slot has emptied: its reads and requests are gone, and the writes that wait for it are firmware's. -/
def slotEmptied (d : Dev) (n s : Nat) : Dev :=
  let d := cancelReads d n s (fun _ => true)
  let d := { d with waits := d.waits.map (fun w => if w.by' = Writer.stream n s then { w with by' := .firmware } else w) }
  trimWatches (modSlot (dropUnits d (· == UnitId.se n s)) n s (fun x => { x with act := none, shd := none, ahead := [], aheadStop := false })) n s

theorem stops_slotEmptied (d : Dev) (n s : Nat) : Stops d (slotEmptied d n s) := by
  unfold slotEmptied
  extract_lets b c
  have gone : Stops d (dropUnits c (· == UnitId.se n s)) := ⟨rfl, fun _ _ _ held => held⟩
  generalize dropUnits c (· == UnitId.se n s) = u at *
  refine gone.trans ?_
  obtain ⟨ms, wq, frame⟩ := trimWatches_frame (modSlot u n s (fun x => { x with act := none, shd := none, ahead := [], aheadStop := false })) n s
  refine ⟨by rw [frame]; rfl, fun i j a held => ?_⟩
  rw [sslot_trimWatches] at held
  by_cases here : (i, j) = (n, s)
  · obtain ⟨rfl, rfl⟩ := Prod.mk.inj here
    rw [sslot_modSlot] at held
    cases held
  · rw [sslot_modSlot_other _ _ here] at held
    exact held

/-- The sequencer and the VE of a pair have stopped. -/
def pairStopped (d : Dev) (e : Nat) : Dev :=
  let d := if (pair d e).seq.run then seqStop d e else d
  if (pair d e).ve.run then veStop d e else d

theorem stops_pairStopped (d : Dev) (e : Nat) : Stops d (pairStopped d e) := by
  unfold pairStopped
  extract_lets b
  have sequencer : Stops d b := iteInduction (motive := Stops d) (fun _ => stops_seqStop ..) fun _ => .refl d
  exact sequencer.trans (iteInduction (motive := Stops b) (fun _ => stops_veStop ..) fun _ => .refl b)

end Sys2Proof.Machine

namespace Sys2Proof.Machine

/-- The slots of a kennel that hold a descriptor. -/
def slotsHeld (d : Dev) (k : Nat) : List (Nat × Nat) := d.ses.flatMap (fun z => (z.2.slots.filter (fun q => slotHeld k q.2)).map (fun q => (z.1, q.1)))

theorem stopStreams_eq (d : Dev) (k : Nat) : stopStreams d k = each d (slotsHeld d k) (fun d z => slotEmptied (finishRow d z.1 z.2) z.1 z.2) := rfl

theorem rests_stopStreams (d : Dev) (k : Nat) : Rests d (stopStreams d k) := by
  rw [stopStreams_eq]
  exact Rests.each (fun _ _ => (rests_finishRow ..).trans (stops_slotEmptied ..).rests) _ d

theorem stops_stopStreams {d : Dev} (whole : RowsWhole d) (k : Nat) : Stops d (stopStreams d k) := by
  rw [stopStreams_eq]
  refine foldl_keeps (P := Stops d) (fun e z stops => ?_) _ (Stops.refl d)
  rw [finishRow_whole (stops.rowsWhole whole)]
  exact stops.trans (stops_slotEmptied ..)

/-- The pairs of a kennel have stopped. -/
def pairsStopped (d : Dev) (k : Nat) : Dev := each d ((List.range 48).filter (fun e => pairKennel d e == k)) pairStopped

/-- Around the stop of its streams, the units of a kennel stop. -/
theorem stopUnits_streams (d : Dev) (k : Nat) : Stops (stopStreams (pairsStopped d k) k) (stopUnits d k) := by
  unfold stopUnits
  extract_lets b c zl heads e
  have same : c = stopStreams (pairsStopped d k) k := rfl
  rw [← same]
  clear_value c
  have requests : Stops c e := ⟨rfl, fun _ _ _ held => held⟩
  have takes (d : Dev) (p : Nat) : Stops d (setTakeUps d p ((takeUps d p).filter (fun t => t.kennel != k))) := ⟨rfl, fun _ _ _ held => held⟩
  exact requests.trans (Stops.each takes _ e)

/-- Around the stop of a kennel's streams, its units, trees and flits stop. -/
theorem stopTraffic_streams (d : Dev) (k : Nat) : Stops d (pairsStopped d k) ∧ Stops (stopStreams (pairsStopped d k) k) (stopTraffic d k) := by
  refine ⟨Stops.each stops_pairStopped _ d, ?_⟩
  have units := stopUnits_streams d k
  unfold stopTraffic
  generalize stopUnits d k = u at *
  generalize stopStreams (pairsStopped d k) k = b at *
  extract_lets c
  have erases (d : Dev) (i : Nat) : Stops d { d with reads := Tbl.erase d.reads i } := ⟨rfl, fun _ _ _ held => held⟩
  have reads : Stops c (each c (unsentReads c k) (fun d i => { d with reads := Tbl.erase d.reads i })) := Stops.each erases _ c
  exact ((units.trans (stops_closeTrees ..)).trans reads).trans (stops_purgeFlits ..)

theorem rests_stopTraffic (d : Dev) (k : Nat) : Rests d (stopTraffic d k) := by
  obtain ⟨before, after⟩ := stopTraffic_streams d k
  exact (before.rests.trans (rests_stopStreams _ k)).trans after.rests

theorem stops_stopTraffic {d : Dev} (whole : RowsWhole d) (k : Nat) : Stops d (stopTraffic d k) := by
  obtain ⟨before, after⟩ := stopTraffic_streams d k
  exact (before.trans (stops_stopStreams (before.rowsWhole whole) k)).trans after

/-! ### Tasks that end with `SC_ABORTED` (R353, R354) -/

theorem Stops.dstate {d e : Dev} (stops : Stops d e) : e.dstate = d.dstate := by rw [← stops.frame]

theorem Stops.withTasks {d e : Dev} (stops : Stops d e) (ts : Tbl (Option Task)) : Stops { d with tasks := ts } { e with tasks := ts } := by
  refine ⟨?_, fun n i a held => stops.acts n i a held⟩
  conv_rhs => rw [← stops.frame]

theorem steady_setTask (d : Dev) (k : Nat) (t : Option Task) : Steady d (setTask d k t) := ⟨rfl, rfl, rfl, rfl⟩

theorem followTasks_safe {d : Dev} (safe : d.dstate = .safe) (c : DWord) : followTasks d c = d := by simp [followTasks, safe]

theorem Stops.setTask {d e : Dev} (stops : Stops d e) (k : Nat) (t : Option Task) : Stops { d with tasks := Tbl.set none d.tasks k t } (setTask e k t) := by
  have ends := stops.withTasks (Tbl.set none d.tasks k t)
  rw [Machine.setTask, stops.rests.tasks]
  exact ends

/-- In SAFE the device state follows no task. -/
theorem moveTask_safe {d : Dev} {k : Nat} (safe : d.dstate = .safe) (u : Task) (st : TaskState) (sc : Sc) (c : DWord) :
    moveTask (setTask d k (some u)) k st sc c
      = raise (setTask d k (some { u with st := st, endSt := if st = .ended then sc else u.endSt })) (evTaskState k u.st.code st.code sc (stepInProgress u)) := by
  have once (v : Option Task) : setTask (setTask d k (some u)) k v = setTask d k v := by simp only [setTask, Tbl.set_set]
  have moves : moveTask (setTask d k (some u)) k st sc c = followTasks (raise (setTask (setTask d k (some u)) k
      (some { u with st := st, endSt := if st = .ended then sc else u.endSt })) (evTaskState k u.st.code st.code sc (stepInProgress u))) c := by
    simp only [moveTask, task_setTask]
  rw [moves, once]
  generalize (some { u with st := st, endSt := if st = .ended then sc else u.endSt } : Option Task) = v
  have still : (setTask d k v).dstate = .safe := safe
  exact followTasks_safe ((HostOnly.raise (setTask d k v) _).keeps.1.1.trans still) c

theorem endLocal_idle {d : Dev} {k : Nat} (idle : runsTask d k = false) (sc : Sc) (c : DWord) : endLocal d k sc c = d := by simp [endLocal, idle]

theorem runsTask_iff (d : Dev) (k : Nat) : runsTask d k = true ↔ ∃ t, task d k = some t ∧ t.st.active = true := by
  unfold runsTask
  cases task d k <;> simp

section EndLocal

variable {d : Dev} {k : Nat} {t : Task} (held : task d k = some t) (active : t.st.active = true) (c : DWord)
include held active

/-- A task that runs and ends for another reason than `SC_OK` has its traffic stopped before. -/
theorem endLocal_stops : endLocal d k .aborted c
    = moveTask (setTask (stopTraffic d k) k (some { t with inRound := false, asking := none, batchReq := [], parity := none })) k .ended .aborted c := by
  have runs : runsTask d k = true := (runsTask_iff d k).2 ⟨t, held, active⟩
  have mine : task (stopTraffic d k) k = some t := by rw [task, (rests_stopTraffic d k).tasks]; exact held
  simp [endLocal, runs, modTask_held mine]

theorem endLocal_aborts : Steady d (endLocal d k .aborted c) ∧ (endLocal d k .aborted c).tasks = Tbl.set none d.tasks k (some (endedAs t .aborted)) := by
  have stops := rests_stopTraffic d k
  rw [endLocal_stops held active c]
  generalize stopTraffic d k = b at *
  have moves := moveTask_moves (task_setTask (d := b) (i := k) (some { t with inRound := false, asking := none, batchReq := [], parity := none })) .ended .aborted c
  have once (u v : Option Task) : (setTask (setTask b k u) k v).tasks = Tbl.set none d.tasks k v := by simp only [setTask, Tbl.set_set, stops.tasks]
  exact ⟨((stops.toSteady.trans (steady_setTask ..)).trans (steady_setTask ..)).trans moves.toSteady, moves.tasks.trans (once _ _)⟩

/-- In SAFE, where no row is under way, the end of a task changes units, links and what the hosts are told beside it. -/
theorem endLocal_aborts_whole (safe : d.dstate = .safe) (whole : RowsWhole d) :
    Stops { d with tasks := Tbl.set none d.tasks k (some (endedAs t .aborted)) } (endLocal d k .aborted c) := by
  have stops := stops_stopTraffic whole k
  have moves := moveTask_safe (k := k) (stops.dstate.trans safe) { t with inRound := false, asking := none, batchReq := [], parity := none } .ended .aborted c
  have ends := stops.setTask k (some (endedAs t .aborted))
  rw [endLocal_stops held active c, moves]
  exact ends.trans (HostOnly.raise ..).stops

end EndLocal

end Sys2Proof.Machine

namespace Sys2Proof.Machine

/-! ### What is left to do once no task runs (R284, R394, R401) -/

theorem Tbl.mem_set {α : Type} [DecidableEq α] {d v : α} {t : Tbl α} {k : Nat} {p : Nat × α} (inside : p ∈ Tbl.set d t k v) : p ∈ t ∨ p = (k, v) := by
  unfold Tbl.set at inside
  split at inside
  · exact .inl (List.mem_of_mem_filter inside)
  · rw [Tbl.insert_place, List.mem_append, List.mem_cons] at inside
    have rest (old : p ∈ Tbl.erase t k) : p ∈ t := List.mem_of_mem_filter old
    rw [← Tbl.below_above (Tbl.erase t k) k, List.mem_append] at rest
    tauto

theorem Tbl.mem_of_get {α : Type} {d v : α} {t : Tbl α} {k : Nat} (reads : Tbl.get d t k = v) (listed : v ≠ d) : (k, v) ∈ t := by
  rw [Tbl.get_find] at reads
  cases found : t.find? (·.1 == k) with
  | none => simp [found, listed.symm] at reads
  | some p =>
    simp only [found, Option.map_some, Option.getD_some] at reads
    have number : p.1 = k := by simpa using List.find?_some found
    rw [← reads, ← number]
    exact List.mem_of_find?_eq_some found

/-- No task commits, and none is in a round whose QUIET is still to be sent. -/
def Quiet (d : Dev) : Prop := ∀ z ∈ d.tasks, ∀ t, z.2 = some t → t.parity = none ∧ (t.inRound = true → t.quietSent = true)

theorem anyTask_false {d : Dev} {p : Task → Bool} (none' : anyTask d p = false) {z : Nat × Option Task} (inside : z ∈ d.tasks) {t : Task} (holds : z.2 = some t) : p t = false := by
  have all := List.any_eq_false.1 none' z inside
  simpa [holds] using all

theorem Calm.quiet {d : Dev} (calm : Calm d) : Quiet d := by
  intro z inside t holds
  have quiet := anyTask_false calm.2.1 inside holds
  have commits := anyTask_false calm.2.2 inside holds
  simp only [Bool.and_eq_false_iff, Bool.not_eq_false'] at quiet
  refine ⟨by simpa using commits, fun round => quiet.resolve_left (by simp [round])⟩

theorem Quiet.of_tasks {d e : Dev} (quiet : Quiet d) (same : e.tasks = d.tasks) : Quiet e := fun z inside => quiet z (same ▸ inside)

/-- No task runs, none is left to go on with, and the roots have completed nothing. -/
structure NoneRuns (d : Dev) : Prop where
  idle : ∀ k, runsTask d k = false
  quiet : Quiet d
  delivered : d.delivered = []

theorem NoneRuns.rests {d e : Dev} (none' : NoneRuns d) (rests : Rests d e) : NoneRuns e :=
  ⟨fun k => (runsTask_tasks rests.tasks k).trans (none'.idle k), none'.quiet.of_tasks rests.tasks, rests.delivered.trans none'.delivered⟩

theorem stops_sendBarks (d : Dev) (gone : Bool) : Stops d (sendBarks d gone) := by
  unfold sendBarks
  exact iteInduction (motive := Stops d) (fun _ => .refl d) fun _ => Stops.each (fun _ _ => stops_modPort ..) _ d

/-- The device has entered a failed state, and no task has ended yet. -/
def failing (d : Dev) (st : DState) (c : DWord) : Dev :=
  let d := sendBarks (setDState d st c) true
  { d with power := { d.power with selfRefresh := d.power.selfRefresh || st = .safe } }

theorem enterFailed_eq (d : Dev) (st : DState) (c : DWord) :
    enterFailed d st c = each (failing d st c) (taskKeys (failing d st c) (fun t => t.st.active)) (fun d k => endLocal d k .aborted c) := rfl

/-- Firmware notes how much memory a kennel uses. -/
theorem rests_onMemUse (d : Dev) (k : Nat) (high : Bool) (bytes : Nat) : Rests d (onMemUse d k high bytes) := by
  unfold onMemUse
  extract_lets bs
  refine Rests.trans ?_ (HostOnly.raise ..).keepsTasks.rests
  split
  · exact iteInduction (motive := Rests d) (fun _ => (keepsTasks_memWriteAll ..).rests) fun _ => .refl d
  · exact .refl d

section NoneRuns

variable {d : Dev} (none' : NoneRuns d)
include none'

theorem NoneRuns.inactive {k : Nat} {t : Task} (held : task d k = some t) : t.st.active = false := by
  have idle := none'.idle k
  simpa [runsTask, held] using idle

theorem onFault_idle (k : Nat) (kind : FaultKind) (nbr : Option Nat) : onFault d k kind nbr = d := by
  unfold onFault
  cases held : task d k with
  | none => rfl
  | some t =>
    have inactive := none'.inactive held
    cases st : t.st with
    | starting | running | stopping | recovering =>
      rw [st] at inactive
      cases inactive
    | _ => simp only [st]

/-- Firmware goes over tasks of which none runs. -/
theorem each_idle {f : Dev → Nat → Dev} (idle : ∀ e, NoneRuns e → ∀ k, f e k = e) (ks : List Nat) : each d ks f = d :=
  foldl_keeps (P := fun e => e = d) (fun e k same => by rw [same]; exact idle d none' k) ks rfl

theorem endTask_idle (k : Nat) (sc : Sc) : endTask d k sc = d := by
  unfold endTask
  cases held : task d k with
  | none => rfl
  | some t => simp [none'.inactive held]

theorem enterFailed_idle {st : DState} (other : st ≠ .safe) (c : DWord) : Rests d (enterFailed d st c) := by
  have enters : Rests d (sendBarks (setDState d st c) true) := (keepsTasks_setDState d st c).rests.trans (stops_sendBarks ..).rests
  have powers : Rests (sendBarks (setDState d st c) true) (failing d st c) := ⟨⟨rfl, rfl, by simp [failing, other], rfl⟩, rfl⟩
  rw [enterFailed_eq, each_idle (none'.rests (enters.trans powers)) fun e idle k => endLocal_idle (idle.idle k) .aborted c]
  exact enters.trans powers

theorem enterFaulted_idle (c : DWord) : Rests d (enterFaulted d c) := by
  have fails := enterFailed_idle none' (st := .faulted) (by decide) c
  unfold enterFaulted
  cases d.dstate with
  | off | faulted => exact .refl d
  | boot => exact fails.trans ⟨⟨rfl, rfl, rfl, rfl⟩, rfl⟩
  | _ => exact fails

theorem onReport_idle (r : Report) : Rests d (onReport d r) := by
  cases r with
  | fault k kind =>
    rw [onReport, onFault_idle none']
    exact .refl d
  | neighbour m =>
    rw [onReport, onNeighbour, each_idle none' fun e idle k => onFault_idle idle k .moduleLost (some m)]
    exact .refl d
  | ending k sc =>
    rw [onReport, endTask_idle none']
    exact .refl d
  | memFatal c => exact enterFaulted_idle none' _
  | memUse k high n => exact rests_onMemUse ..

theorem onReports_idle (fuel : Nat) : Rests d (onReports fuel d) := by
  induction fuel generalizing d with
  | zero => exact ⟨⟨rfl, rfl, rfl, rfl⟩, rfl⟩
  | succ f ih =>
    unfold onReports
    split
    · exact .refl d
    · have taken : Rests d { d with reports := [] } := ⟨⟨rfl, rfl, rfl, rfl⟩, rfl⟩
      have acts : Rests d (each { d with reports := [] } d.reports onReport) :=
        foldl_keeps (P := Rests d) (fun e r rests => rests.trans (onReport_idle (none'.rests rests) r)) _ taken
      exact acts.trans (ih (none'.rests acts))

theorem sendQuiet_idle (k : Nat) : sendQuiet d k = d := by
  unfold sendQuiet
  cases held : task d k with
  | none => rfl
  | some t =>
    have quiet := (none'.quiet (k, some t) (Tbl.mem_of_get held (by simp)) t rfl).2
    cases round : t.inRound with
    | false => simp [round]
    | true => simp [round, quiet round]

theorem parityKeys_idle : taskKeys d (fun t => t.parity.isSome) = [] := by
  simp only [taskKeys, List.map_eq_nil_iff, List.filter_eq_nil_iff]
  intro z inside
  cases holds : z.2 with
  | none => simp
  | some t => simp [(none'.quiet z inside t holds).1]

theorem undelivered : { d with delivered := [] } = d := by
  conv_lhs => rw [← none'.delivered]

/-- Where no task runs, what follows a command changes no task, kennel or power. -/
theorem settle_idle : Rests d (settle d) := by
  have whole := undelivered none'
  have results : parityResults d = d := by rw [parityResults, none'.delivered, whole]; rfl
  have roots : deliverRoots d = d := by rw [deliverRoots, none'.delivered, whole]; rfl
  have steps : each d (taskKeys d (fun t => t.parity.isSome)) parityStep = d := by rw [parityKeys_idle none']; rfl
  unfold settle
  split
  · exact .refl d
  · have acts := onReports_idle none' 4
    simp only [results, steps, roots]
    rw [each_idle (none'.rests acts) fun e idle k => sendQuiet_idle idle k]
    exact acts

end NoneRuns

end Sys2Proof.Machine

namespace Sys2Proof.Machine

/-! ### SAFE ends every task (R329, R352, R354, R450) -/

/-- The tasks of the kennels `ks` have ended with `SC_ABORTED`. -/
def aborted (d : Dev) (ks : List Nat) (c : DWord) : Dev := each d ks (fun d k => endLocal d k .aborted c)

theorem EndedWith.idle {d : Dev} {k : Nat} {c : Sc} (ended : EndedWith d k c) : runsTask d k = false := by
  obtain ⟨t, held, st, -⟩ := ended
  simp [runsTask, held, st, TaskState.active]

theorem EndedWith.of_task {d e : Dev} {k : Nat} {c : Sc} (ended : EndedWith d k c) (same : task e k = task d k) : EndedWith e k c := by
  obtain ⟨t, held, ends⟩ := ended
  exact ⟨t, same.trans held, ends⟩

section EndOne

variable (d : Dev) (k : Nat) (c : DWord)

theorem steady_endLocal : Steady d (endLocal d k .aborted c) := by
  cases runs : runsTask d k with
  | false => rw [endLocal_idle runs]; exact ⟨rfl, rfl, rfl, rfl⟩
  | true =>
    obtain ⟨t, held, active⟩ := (runsTask_iff d k).1 runs
    exact (endLocal_aborts held active c).1

theorem endLocal_ends {d : Dev} {k : Nat} (runs : runsTask d k = true) : EndedWith (endLocal d k .aborted c) k .aborted := by
  obtain ⟨t, held, active⟩ := (runsTask_iff d k).1 runs
  refine ⟨endedAs t .aborted, ?_, rfl, rfl⟩
  rw [task, (endLocal_aborts held active c).2, Tbl.get_set_self]

theorem endLocal_other {j : Nat} (other : j ≠ k) : task (endLocal d k .aborted c) j = task d j := by
  cases runs : runsTask d k with
  | false => rw [endLocal_idle runs]
  | true =>
    obtain ⟨t, held, active⟩ := (runsTask_iff d k).1 runs
    rw [task, (endLocal_aborts held active c).2, Tbl.get_set_other _ _ _ _ _ other, task]

theorem endLocal_stays {d : Dev} {j : Nat} (idle : runsTask d j = false) : task (endLocal d k .aborted c) j = task d j := by
  by_cases here : j = k
  · subst here
    rw [endLocal_idle idle]
  · exact endLocal_other d k c here

theorem quiet_endLocal {d : Dev} (quiet : Quiet d) : Quiet (endLocal d k .aborted c) := by
  cases runs : runsTask d k with
  | false => rw [endLocal_idle runs]; exact quiet
  | true =>
    obtain ⟨t, held, active⟩ := (runsTask_iff d k).1 runs
    intro z inside u holds
    rw [(endLocal_aborts held active c).2] at inside
    rcases Tbl.mem_set inside with old | new
    · exact quiet z old u holds
    · rw [new] at holds
      cases holds
      exact ⟨rfl, fun round => absurd round Bool.false_ne_true⟩

end EndOne

section Aborted

variable (ks : List Nat) (c : DWord)

theorem steady_aborted (d : Dev) : Steady d (aborted d ks c) :=
  foldl_keeps (P := Steady d) (fun e k steady => steady.trans (steady_endLocal e k c)) ks ⟨rfl, rfl, rfl, rfl⟩

theorem quiet_aborted {d : Dev} (quiet : Quiet d) : Quiet (aborted d ks c) := foldl_keeps (P := Quiet) (fun _ k quiet => quiet_endLocal k c quiet) ks quiet

/-- A kennel without a running task keeps what it has. -/
theorem aborted_stays {d : Dev} {j : Nat} (idle : runsTask d j = false) : task (aborted d ks c) j = task d j := by
  refine foldl_keeps (P := fun e => task e j = task d j) (fun e k same => ?_) ks rfl
  have still : runsTask e j = false := by rw [runsTask, same]; exact idle
  exact (endLocal_stays k c still).trans same

/-- A task that runs ends in its turn. -/
theorem aborted_ends {d : Dev} {j : Nat} (runs : runsTask d j = true) (listed : j ∈ ks) : EndedWith (aborted d ks c) j .aborted := by
  induction ks generalizing d with
  | nil => cases listed
  | cons k r ih =>
    have first : aborted d (k :: r) c = aborted (endLocal d k .aborted c) r c := rfl
    rw [first]
    by_cases here : j = k
    · subst here
      have ended := endLocal_ends c runs
      exact ended.of_task (aborted_stays r c ended.idle)
    · have same := endLocal_other d k c here
      refine ih ?_ ((List.mem_cons.1 listed).resolve_left here)
      rw [runsTask, same]
      exact runs

/-- In SAFE, where no row is under way, the ends of tasks change units, links and what the hosts are told beside them. -/
theorem aborted_whole {d : Dev} (safe : d.dstate = .safe) (whole : RowsWhole d) : ∃ ts, Stops { d with tasks := ts } (aborted d ks c) := by
  refine foldl_keeps (P := fun e => ∃ ts, Stops { d with tasks := ts } e) (fun e k stops => ?_) ks ⟨d.tasks, Stops.refl d⟩
  obtain ⟨ts, stops⟩ := stops
  cases runs : runsTask e k with
  | false => exact ⟨ts, by rw [endLocal_idle runs]; exact stops⟩
  | true =>
    obtain ⟨t, held, active⟩ := (runsTask_iff e k).1 runs
    have ends := endLocal_aborts_whole held active c (stops.dstate.trans safe) (stops.rowsWhole whole)
    exact ⟨_, (stops.withTasks _).trans ends⟩

end Aborted

theorem mem_taskKeys {d : Dev} {k : Nat} (runs : runsTask d k = true) : k ∈ taskKeys d (fun t => t.st.active) := by
  obtain ⟨t, held, active⟩ := (runsTask_iff d k).1 runs
  refine List.mem_map.2 ⟨(k, some t), List.mem_filter.2 ⟨Tbl.mem_of_get held (by simp), active⟩, rfl⟩

theorem Stops.withPower {d e : Dev} (stops : Stops d e) (p : Power) : Stops { d with power := p } { e with power := p } := by
  refine ⟨?_, fun n i a held => stops.acts n i a held⟩
  conv_rhs => rw [← stops.frame]

/-- As SAFE is entered, the device tells the hosts and its neighbours, and both tiers enter self-refresh. -/
theorem failing_safe (d : Dev) (c : DWord) : ∃ p : Power, p.selfRefresh = true ∧ Stops { d with dstate := .safe, power := p } (failing d .safe c) := by
  have enters := (setDState_frame d .safe c).stops.trans (stops_sendBarks (setDState d .safe c) true)
  exact ⟨(failing d .safe c).power, by simp [failing], enters.withPower _⟩

theorem quietDue_false {d : Dev} (quiet : Quiet d) : quietDue d = false := by
  refine List.any_eq_false.2 fun z inside => ?_
  cases holds : z.2 with
  | none => simp
  | some t =>
    have sent := (quiet z inside t holds).2
    cases round : t.inRound with
    | false => simp [round]
    | true => simp [round, sent round]

theorem parityDue_false {d : Dev} (quiet : Quiet d) : parityDue d = false := by
  refine List.any_eq_false.2 fun z inside => ?_
  cases holds : z.2 with
  | none => simp
  | some t => simp [(quiet z inside t holds).1]

/-- Where nothing is reported either, nothing follows. -/
theorem NoneRuns.calm {d : Dev} (none' : NoneRuns d) (told : d.reports = []) : Calm d :=
  ⟨⟨told, none'.delivered⟩, quietDue_false none'.quiet, parityDue_false none'.quiet⟩

/-- The effect of a served command of a mailbox's own kennel whose checks pass, before what follows it. -/
theorem served_acts {s : State} {m : MbxId} {code : Nat} {x : Mbx} {r : Req} {row : Cmd} {cmd : Scp} {e : Dev}
    (served : Served s m code x r) (listed : cmdOf code x.version = some row) (own : row.target = false) (allowed : s.d.dstate ∈ row.states)
    (field : cmd.field s.d ⟨m.toNat, x.kennel, x, r⟩ = none) (late : cmd.late s.d ⟨m.toNat, x.kennel, x, r⟩ = none)
    (act : cmd.act s.d ⟨m.toNat, x.kennel, x, r⟩ = { d := e }) : scp s.d m.toNat code true cmd = finish e m.toNat .ok 0 0 0 := by
  obtain ⟨-, turn⟩ := served
  have acts : actsOn code x r = x.kennel := by simp [actsOn, listed, own]
  have target : targetBad code x r = false := by simp [targetBad, listed, own]
  have state : stateOk s.d x r = true := by simp [stateOk, inTurn_cmd turn, listed, allowed]
  have passes : scpCheck s.d code true cmd ⟨m.toNat, x.kennel, x, r⟩ = none := by simp [scpCheck, firstSome, check, target, field, state, late]
  simp only [scp, turn, acts, passes, act]

/-- The device has entered SAFE, and every task that ran has ended. -/
def madeSafe (d : Dev) (c : DWord) : Dev := aborted (failing d .safe c) (taskKeys (failing d .safe c) (fun t => t.st.active)) c

theorem enterSafe_eq {d : Dev} (state : d.dstate ∈ stWide) (c : DWord) : enterSafe d c = madeSafe d c := by
  have fails : enterFailed d .safe c = madeSafe d c := rfl
  simp only [stWide, List.mem_cons, List.not_mem_nil, or_false] at state
  rcases state with state | state | state | state | state <;> simp only [enterSafe, state, fails]

section MadeSafe

variable (d : Dev) (c : DWord)

theorem madeSafe_steady : (madeSafe d c).power.selfRefresh = true ∧ (madeSafe d c).kennels = d.kennels ∧ (madeSafe d c).eclk = d.eclk
    ∧ (madeSafe d c).delivered = d.delivered := by
  obtain ⟨p, refreshes, fails⟩ := failing_safe d c
  have starts := fails.rests
  have ends := steady_aborted (taskKeys (failing d .safe c) (fun t => t.st.active)) c (failing d .safe c)
  have power : (madeSafe d c).power = p := ends.power.trans starts.power
  exact ⟨by rw [power, refreshes], ends.kennels.trans starts.kennels, ends.eclk.trans starts.eclk, ends.delivered.trans starts.delivered⟩

theorem madeSafe_ends {d : Dev} {k : Nat} (runs : runsTask d k = true) : EndedWith (madeSafe d c) k .aborted := by
  obtain ⟨p, -, fails⟩ := failing_safe d c
  have still : runsTask (failing d .safe c) k = true := (runsTask_tasks fails.rests.tasks k).trans runs
  exact aborted_ends _ c still (mem_taskKeys still)

theorem madeSafe_noneRuns {d : Dev} (calm : Calm d) : NoneRuns (madeSafe d c) := by
  obtain ⟨p, -, fails⟩ := failing_safe d c
  have same (k : Nat) : runsTask (failing d .safe c) k = runsTask d k := runsTask_tasks fails.rests.tasks k
  have quiet : Quiet (failing d .safe c) := calm.quiet.of_tasks fails.rests.tasks
  refine ⟨fun k => ?_, quiet_aborted _ c quiet, (madeSafe_steady d c).2.2.2.trans calm.1.2⟩
  cases runs : runsTask d k with
  | true => exact (madeSafe_ends c runs).idle
  | false =>
    have stays := aborted_stays (taskKeys (failing d .safe c) (fun t => t.st.active)) c ((same k).trans runs)
    rw [runsTask, madeSafe, stays]
    exact (same k).trans runs

theorem madeSafe_whole {d : Dev} (whole : RowsWhole d) : (madeSafe d c).dstate = .safe ∧ (madeSafe d c).mem = d.mem ∧ (madeSafe d c).pages = d.pages
    ∧ (madeSafe d c).tiles = d.tiles ∧ (madeSafe d c).reports = d.reports := by
  obtain ⟨p, -, fails⟩ := failing_safe d c
  have safe : (failing d .safe c).dstate = .safe := fails.dstate
  obtain ⟨ts, ends⟩ := aborted_whole (taskKeys (failing d .safe c) (fun t => t.st.active)) c safe (fails.rowsWhole whole)
  have frame := (fails.withTasks ts).trans ends
  rw [madeSafe, ← frame.frame]
  exact ⟨rfl, rfl, rfl, rfl, rfl⟩

end MadeSafe

/-- R329, R352, R354, R450. -/
theorem safeEndsTasks : Sys2Proof.Claim.SafeEndsTasks := by
  intro m s x r served state
  have allowed : s.d.dstate ∈ stWide := state
  have act : devSafeCmd.act s.d ⟨m.toNat, x.kennel, x, r⟩ = { d := madeSafe s.d cmdCause } := by
    rw [← enterSafe_eq allowed]
    rfl
  have effect := served_acts (cmd := devSafeCmd) served rfl rfl allowed rfl rfl act
  obtain ⟨refreshes, kennels, eclk, -⟩ := madeSafe_steady s.d cmdCause
  have ends (k : Nat) := madeSafe_ends (d := s.d) (k := k) cmdCause
  have none' := madeSafe_noneRuns cmdCause served.1.2
  have whole (rows : RowsWhole s.d) := madeSafe_whole cmdCause rows
  generalize madeSafe s.d cmdCause = e at *
  have tells := finish_frame e m.toNat .ok 0 0 0
  have rests : Rests e (finish e m.toNat .ok 0 0 0) := by
    rw [← tells]
    exact ⟨⟨rfl, rfl, rfl, rfl⟩, rfl⟩
  have keeps : (finish e m.toNat .ok 0 0 0).dstate = e.dstate ∧ (finish e m.toNat .ok 0 0 0).mem = e.mem ∧ (finish e m.toNat .ok 0 0 0).pages = e.pages
      ∧ (finish e m.toNat .ok 0 0 0).tiles = e.tiles ∧ (finish e m.toNat .ok 0 0 0).reports = e.reports := by
    rw [← tells]
    exact ⟨rfl, rfl, rfl, rfl, rfl⟩
  generalize finish e m.toNat .ok 0 0 0 = f at *
  have follows := rests.trans (settle_idle (none'.rests rests))
  refine ⟨_, run_settles served.1 effect, ?_, follows.kennels.trans kennels, follows.eclk.trans eclk, fun k u held active => ?_, fun rows => ?_⟩
  · exact (congrArg Power.selfRefresh follows.power).trans refreshes
  · refine (ends k ((runsTask_iff s.d k).2 ⟨u, held, active⟩)).of_task ?_
    exact congrArg (Tbl.get none · k) follows.tasks
  · obtain ⟨safe, mem, pages, tiles, told⟩ := whole rows
    obtain ⟨dstate', mem', pages', tiles', told'⟩ := keeps
    have calm := (none'.rests rests).calm ((told'.trans told).trans served.1.2.1.1)
    rw [settle_calm f calm]
    exact ⟨dstate'.trans safe, mem'.trans mem, pages'.trans pages, tiles'.trans tiles⟩

end Sys2Proof.Machine

namespace Sys2Proof.Proofs

open Sys2Proof.Machine

/-- Settles O38: each command is one move of the device state, and SAFE ends the tasks one after another, which no report revives. -/
theorem deviceStates : Obligations.DeviceStates := ⟨deviceStatesMove, safeEndsTasks, detachAndReset⟩

end Sys2Proof.Proofs

namespace Sys2Proof.Machine

/-! ### Planes of a block (R229) -/

/-- The bytes of the number that bytes spell are those bytes. -/
theorem leBytes_leNat (bs : List Byte) : leBytes bs.length (leNat bs) = bs := by
  induction bs with
  | nil => rfl
  | cons b r ih =>
    have low : (b.toNat + 256 * leNat r) / 256 = leNat r := by have := b.isLt; omega
    have here : BitVec.ofNat 8 (b.toNat + 256 * leNat r) = b := by
      apply BitVec.eq_of_toNat_eq
      have := b.isLt
      rw [BitVec.toNat_ofNat]
      omega
    rw [List.length_cons, leNat, leBytes, low, here, ih]

/-- The elements of a block are its pieces of `w` bytes, as numbers. -/
theorem elems_pieces {w : Nat} (some' : 0 < w) {n fuel : Nat} (enough : n ≤ fuel) {bs : List Byte} (whole : bs.length = w * n) :
    elems fuel w bs = (List.range n).map (fun e => leNat ((bs.drop (w * e)).take w)) := by
  induction fuel generalizing n bs with
  | zero =>
    obtain rfl : n = 0 := by omega
    rfl
  | succ f ih =>
    cases n with
    | zero =>
      obtain rfl : bs = [] := List.eq_nil_of_length_eq_zero (by simpa using whole)
      rfl
    | succ n =>
      have left : (bs.drop w).length = w * n := by rw [List.length_drop, whole, Nat.mul_succ, Nat.add_sub_cancel]
      have more : bs.isEmpty = false := by
        cases bs with
        | nil => rw [List.length_nil, Nat.mul_succ] at whole; omega
        | cons _ _ => rfl
      simp only [elems, more, Bool.false_eq_true, if_false, ih (by omega) left, List.range_succ_eq_map, List.map_cons, List.map_map, Nat.mul_zero, List.drop_zero]
      refine congrArg _ (List.map_congr_left fun e _ => ?_)
      rw [Function.comp, List.drop_drop, Nat.mul_succ, Nat.add_comm w]

/-- The pieces of a block, one behind the other, are the block. -/
theorem pieces_flatMap {w : Nat} {n : Nat} {bs : List Byte} (whole : bs.length = w * n) :
    (List.range n).flatMap (fun e => (bs.drop (w * e)).take w) = bs := by
  induction n generalizing bs with
  | zero => simpa using (List.eq_nil_of_length_eq_zero (by simpa using whole)).symm
  | succ n ih =>
    have left : (bs.drop w).length = w * n := by rw [List.length_drop, whole, Nat.mul_succ, Nat.add_sub_cancel]
    have rest := ih left
    simp only [List.drop_drop] at rest
    simp only [List.range_succ_eq_map, List.flatMap_cons, List.flatMap_map, Nat.mul_zero, List.drop_zero, Nat.mul_succ, Nat.add_comm (w * _) w, rest, List.take_append_drop]

/-- The top bit of an element goes below the others. -/
theorem rol_eq {k v : Nat} : rol (k + 1) v = v % 2 ^ k * 2 + v / 2 ^ k := by
  rw [rol, Nat.add_sub_cancel, Nat.pow_succ, Nat.mul_mod_mul_right]

/-- Rotating right undoes rotating left (R229). -/
theorem ror_rol {k v : Nat} (fits : v < 2 ^ (k + 1)) : ror (k + 1) (rol (k + 1) v) = v := by
  have top : v / 2 ^ k < 2 := Nat.div_lt_of_lt_mul (by rwa [← Nat.pow_succ])
  have whole := Nat.mod_add_div v (2 ^ k)
  rw [rol_eq, ror, Nat.add_sub_cancel]
  generalize v / 2 ^ k = t at *
  rw [show (v % 2 ^ k * 2 + t) / 2 = v % 2 ^ k by omega, show (v % 2 ^ k * 2 + t) % 2 = t by omega, Nat.mul_comm t]
  exact whole

theorem rol_lt {k v : Nat} (fits : v < 2 ^ (k + 1)) : rol (k + 1) v < 2 ^ (k + 1) := by
  have top : v / 2 ^ k < 2 := Nat.div_lt_of_lt_mul (by rwa [← Nat.pow_succ])
  have rest := Nat.mod_lt v (Nat.two_pow_pos k)
  rw [rol_eq, Nat.pow_succ]
  omega

/-- The digits of a number put together again. -/
theorem foldl_digits (w r : Nat) : (List.range w).foldl (fun a j => a + r / 256 ^ j % 256 * 256 ^ j) 0 = r % 256 ^ w := by
  induction w with
  | zero => simp [Nat.mod_one]
  | succ w ih => rw [List.range_succ, List.foldl_append, ih, List.foldl_cons, List.foldl_nil, Nat.pow_succ, Nat.mod_mul, Nat.mul_comm]

/-- Element e of a block, rotated. -/
def rotated (w : Nat) (bs : List Byte) (e : Nat) : Nat := rol (8 * w) (leNat ((bs.drop (w * e)).take w))

/-- Byte w - 1 - i of each rotated element. -/
def plane (w n : Nat) (bs : List Byte) (i : Nat) : List Byte := (List.range n).map (fun e => BitVec.ofNat 8 (rotated w bs e / 256 ^ (w - 1 - i)))

/-- The image of a block is its planes, the highest byte first (R229). -/
theorem planeImage_plane {et n : Nat} {bs : List Byte} (some' : 0 < etBytes et) (enough : n ≤ 2048) (whole : bs.length = etBytes et * n) {i : Nat}
    (inside : i < etBytes et) : ((planeImage et bs).drop (n * i)).take n = plane (etBytes et) n bs i := by
  have order : (List.range (etBytes et)).reverse = (List.range (etBytes et)).map (fun i => etBytes et - 1 - i) := by
    rw [List.range_eq_range', List.reverse_range']
    simp [List.range_eq_range']
  have image : planeImage et bs = (List.range (etBytes et)).flatMap (plane (etBytes et) n bs) := by
    simp only [planeImage, order, List.flatMap_map, elems_pieces some' enough whole, List.map_map]
    rfl
  have rows : ∀ j, (plane (etBytes et) n bs j).length = n := fun _ => by simp [plane]
  have row := take_rows rows inside (o := 0) (len := n) (by omega)
  rw [← image, Nat.add_zero, List.take_add] at row
  rw [List.append_cancel_left row, List.drop_zero, List.take_of_length_le (rows i).le]

/-- The inverse of the planes is the block (R229). -/
theorem planeInverse_planeImage {et k n : Nat} {bs : List Byte} (width : 8 * etBytes et = k + 1) (enough : n ≤ 2048) (page : etBytes et * n = 4096)
    (whole : bs.length = 4096) : planeInverse et (planeImage et bs) = bs := by
  have some' : 0 < etBytes et := by omega
  have count : 4096 / etBytes et = n := Nat.div_eq_of_eq_mul_right some' page.symm
  conv_rhs => rw [← pieces_flatMap (whole.trans page.symm)]
  unfold planeInverse
  simp only [count]
  refine List.flatMap_congr fun e here => ?_
  set piece := (bs.drop (etBytes et * e)).take (etBytes et) with named
  have len : piece.length = etBytes et := by
    have room := Nat.mul_le_mul_left (etBytes et) (List.mem_range.1 here)
    rw [Nat.mul_succ, page] at room
    rw [named, List.length_take, List.length_drop, whole]
    omega
  have fits : leNat piece < 2 ^ (k + 1) := by
    rw [← width, Nat.pow_mul, ← len]
    exact leNat_lt piece
  have digits : ∀ a, ∀ j ∈ List.range (etBytes et), a + ((((List.range (etBytes et)).map (fun i => ((planeImage et bs).drop (n * i)).take n)).getD
      (etBytes et - 1 - j) []).getD e 0).toNat * 256 ^ j = a + rotated (etBytes et) bs e / 256 ^ j % 256 * 256 ^ j := by
    intro a j low
    have inside : etBytes et - 1 - j < etBytes et := by omega
    have place : etBytes et - 1 - (etBytes et - 1 - j) = j := by have := List.mem_range.1 low; omega
    have column : e < n := List.mem_range.1 here
    simp [inside, planeImage_plane some' enough (whole.trans page.symm) inside, plane, column, place]
  have number : rotated (etBytes et) bs e % 256 ^ etBytes et = rol (k + 1) (leNat piece) := by
    have small := rol_lt fits
    rw [rotated, ← named, width]
    refine Nat.mod_eq_of_lt ?_
    rwa [show 256 = 2 ^ 8 from rfl, ← Nat.pow_mul, width]
  rw [List.foldl_ext _ _ _ digits, foldl_digits, number, width, ror_rol fits]
  conv_lhs => rw [← len]
  exact leBytes_leNat piece

/-! ### A block of a page image (R227, R228, R230, R231) -/

/-- The fields of a block's map entry are those that it was put together from (Table 7-7). -/
theorem blockMap_fields {f et s : Nat} (format : f < 4) (typed : et < 4) (sectors : s < 128) :
    let m := blockMap f et s false
    fld m 15 14 = f ∧ fld m 13 12 = et ∧ fld m 10 7 = 0 ∧ fld m 6 0 = s ∧ bit m 11 = false := by
  have map : blockMap f et s false = put 16 14 f ||| put 16 12 et ||| put 16 0 s := by simp [blockMap, putB]
  have poison : bit (blockMap f et s false) 11 = (fld (blockMap f et s false) 11 11).testBit 0 := bit_of_fld _ (by decide) (by decide)
  simp only [map, fld_or] at poison ⊢
  simp (disch := omega) only [fld_put_self, fld_put_below, fld_put_above, Nat.or_zero, Nat.zero_or, true_and] at poison ⊢
  exact poison.trans (Nat.zero_testBit 0)

/-- The map entries that an encoder writes do not contradict themselves (R228). -/
theorem blockBad_map {f et s : Nat} (format : f < 4) (typed : et < 4) (sectors : s < 128)
    (sound : f = 0 ∧ s = 0 ∨ f = 1 ∧ s = 64 ∨ f = 2 ∧ 1 ≤ s ∧ s ≤ 63 ∨ f = 3 ∧ 1 ≤ s ∧ s ≤ 63 ∧ et ≠ 0) : blockBad (blockMap f et s false) = false := by
  obtain ⟨formats, types, zero, counts, poison⟩ := blockMap_fields format typed sectors
  simp only [blockBad, formats, types, zero, counts, poison]
  rcases sound with ⟨rfl, rfl⟩ | ⟨rfl, rfl⟩ | ⟨rfl, low, high⟩ | ⟨rfl, low, high, some'⟩
  · rfl
  · rfl
  · simp; omega
  · simp; omega

section Decoded

variable {et : Nat} (typed : et < 4)
include typed

theorem decodeBlock_zero (bytes : List Byte) : decodeBlock { map := blockMap 0 et 0 false, bytes := bytes } = (.ok, zeros 4096) := by
  obtain ⟨format, -, -, -, poison⟩ := blockMap_fields (f := 0) (s := 0) (by decide) typed (by decide)
  simp [decodeBlock, blockBad_map (by decide) typed (by decide) (.inl ⟨rfl, rfl⟩), format, poison]

theorem decodeBlock_raw {bytes : List Byte} (whole : bytes.length = 4096) : decodeBlock { map := blockMap 1 et 64 false, bytes := bytes } = (.ok, bytes) := by
  obtain ⟨format, -, -, -, poison⟩ := blockMap_fields (f := 1) (s := 64) (by decide) typed (by decide)
  have front : (bytes ++ zeros 4096).take 4096 = bytes := List.take_left' whole
  simp [decodeBlock, blockBad_map (by decide) typed (by decide) (.inr (.inl ⟨rfl, rfl⟩)), format, poison, front]

/-- A coded block is what its tokens spell, with its planes undone. -/
theorem decodeBlock_coded {s : Nat} (low : 1 ≤ s) (high : s ≤ 63) {bytes src : List Byte} (spells : gbcDecode 4097 bytes [] 0 = some src) :
    decodeBlock { map := blockMap (if et = 0 then 2 else 3) et s false, bytes := bytes } = (.ok, if et = 0 then src else planeInverse et src) := by
  by_cases plain : et = 0
  · obtain ⟨format, -, -, -, poison⟩ := blockMap_fields (f := 2) (s := s) (by decide) typed (by omega)
    have sound := blockBad_map (f := 2) (s := s) (by decide) typed (by omega) (.inr (.inr (.inl ⟨rfl, low, high⟩)))
    simp [plain, decodeBlock, plain ▸ sound, plain ▸ format, plain ▸ poison, spells]
  · obtain ⟨format, types, -, -, poison⟩ := blockMap_fields (f := 3) (s := s) (by decide) typed (by omega)
    have sound := blockBad_map (f := 3) (s := s) (by decide) typed (by omega) (.inr (.inr (.inr ⟨rfl, low, high, plain⟩)))
    simp [plain, decodeBlock, sound, format, types, poison, spells]

end Decoded

/-- The planes of a block undo to the block, whatever the type of its elements. -/
theorem planes_undo {et : Nat} (typed : et < 4) (some' : et ≠ 0) {bs : List Byte} (whole : bs.length = 4096) : planeInverse et (planeImage et bs) = bs := by
  have types : et = 1 ∨ et = 2 ∨ et = 3 := by omega
  rcases types with rfl | rfl | rfl
  · exact planeInverse_planeImage (k := 31) (n := 1024) rfl (by decide) rfl whole
  · exact planeInverse_planeImage (k := 15) (n := 2048) rfl (by decide) rfl whole
  · exact planeInverse_planeImage (k := 15) (n := 2048) rfl (by decide) rfl whole

end Sys2Proof.Machine

namespace Sys2Proof.Proofs

open Sys2Proof.Machine

/-- Settles O58: a ZERO block and a RAW block by their map entries, a coded one because the encoder uses only a stream that decodes back, and its planes undo. -/
theorem blocksRoundTrip : Obligations.BlocksRoundTrip := by
  intro et bs typed whole
  unfold encodeBlock
  extract_lets src coded s padded
  split
  next blank =>
    have empty : bs = zeros 4096 := List.eq_replicate_iff.2 ⟨whole, by simpa using blank⟩
    rw [decodeBlock_zero typed, empty]
  next =>
    split
    next spells =>
      simp only [Bool.and_eq_true, decide_eq_true_eq, beq_iff_eq] at spells
      obtain ⟨⟨low, high⟩, decodes⟩ := spells
      rw [decodeBlock_coded typed low high decodes]
      by_cases plain : et = 0
      · simp [src, plain]
      · simp [src, plain, planes_undo typed plain whole]
    next => exact decodeBlock_raw typed whole

end Sys2Proof.Proofs

namespace Sys2Proof.Machine

/-! ### Rows under way and slots that are staged again (R199, R205) -/

/-- The writing repetition of a descriptor is at the beginning of a row. -/
def RowWhole (a : Active) : Prop :=
  ∀ r, writer a = some r → a.desc.kind = 4 ∨ (match r.pieces with | p :: _ => p.off | [] => r.cursor) % rowBytes a.desc = 0

theorem rowsWhole_iff (d : Dev) : RowsWhole d ↔ ∀ n i a, (sslot d n i).act = some a → RowWhole a :=
  ⟨fun whole n i a held r => whole n i a r held, fun whole n i a r held => whole n i a held r⟩

theorem rowWhole_rewatched {a : Active} (whole : RowWhole a) {g : Piece → Piece} (places : ∀ p, (g p).off = p.off) : RowWhole (rewatched a g) := by
  intro r writes
  rw [writer_rewatched] at writes
  obtain ⟨q, old, rfl⟩ := Option.map_eq_some_iff.1 writes
  have due := whole q old
  change a.desc.kind = 4 ∨ _ % rowBytes a.desc = 0
  cases pieces : q.pieces with
  | nil => simpa [pieces] using due
  | cons p ps => simpa [pieces, places] using due

/-- The slot of a descriptor is at the beginning of a row. -/
def SlotWhole (x : SSlot) : Prop := ∀ a, x.act = some a → RowWhole a

theorem slotWhole_restage {x : SSlot} (whole : SlotWhole x) (now k b : Nat) (fresh : Nat → Nat → List Byte) : SlotWhole (restage now k b fresh x).1 := by
  intro a held
  have act : (restage now k b fresh x).1.act = x.act.map (fun a => rewatched a (fun p => if stale k b a p then { p with bytes := none, again := true, issued := some now } else p)) := by
    unfold restage
    simp only
    split <;> rfl
  rw [act] at held
  obtain ⟨c, old, rfl⟩ := Option.map_eq_some_iff.1 held
  exact rowWhole_rewatched (whole c old) fun p => by split <;> rfl

/-- A write discards staged bytes, and leaves each slot at its place in its row. -/
theorem rowsWhole_invalidate {d : Dev} (whole : RowsWhole d) (k addr len : Nat) : RowsWhole (invalidate d k addr len) := by
  rw [rowsWhole_iff] at whole ⊢
  intro n i
  change SlotWhole (Tbl.get {} (Tbl.get {} (invalidate d k addr len).ses n : Se).slots i)
  unfold invalidate
  simp only
  rw [Tbl.get_mapAll]
  split
  · refine foldl_keeps (P := fun e : Se => ∀ i, SlotWhole (Tbl.get {} e.slots i)) (fun e s all => ?_) _ (b := Tbl.get {} d.ses n) (fun i => whole n i) i
    refine foldl_keeps (P := fun e : Se => ∀ i, SlotWhole (Tbl.get {} e.slots i)) (fun e b all i => ?_) _ all
    rw [Tbl.get_set]
    split
    · exact slotWhole_restage (all s) _ _ _ _
    · exact all i
  · intro a held
    cases held

/-! ### What the effects on one kennel keep of the others (R211, R379) -/

/-- No task has a commit under way. -/
def NoCommits (d : Dev) : Prop := ∀ z ∈ d.tasks, ∀ t, z.2 = some t → t.parity = none

theorem Quiet.noCommits {d : Dev} (quiet : Quiet d) : NoCommits d := fun z inside t holds => (quiet z inside t holds).1

/-- The memory of every kennel but k is the same, no row and no commit has begun, nothing has been delivered, and what a memory use reports is that of kennel k. -/
structure Within (k : Nat) (d e : Dev) : Prop where
  memory : ∀ j, j ≠ k → kmem e j = kmem d j
  rows : RowsWhole d → RowsWhole e
  commits : NoCommits d → NoCommits e
  delivered : e.delivered = d.delivered
  told : ∀ j h b, .memUse j h b ∈ e.reports → j = k ∨ .memUse j h b ∈ d.reports

section Within

variable {k : Nat}

theorem Within.refl (d : Dev) : Within k d d := ⟨fun _ _ => rfl, id, id, rfl, fun _ _ _ => .inr⟩

theorem Within.trans {a b c : Dev} (first : Within k a b) (second : Within k b c) : Within k a c :=
  ⟨fun j other => (second.memory j other).trans (first.memory j other), fun rows => second.rows (first.rows rows), fun none' => second.commits (first.commits none'),
    second.delivered.trans first.delivered, fun j h b inside => (second.told j h b inside).elim .inl (first.told j h b)⟩

theorem Within.each {α : Type} {f : Dev → α → Dev} (step : ∀ d x, Within k d (f d x)) (xs : List α) (d : Dev) : Within k d (each d xs f) :=
  foldl_keeps (P := Within k d) (fun e x within => within.trans (step e x)) xs (.refl d)

/-- A change of other fields than memory, slots, tasks, deliveries and reports. -/
theorem Within.of_same {d e : Dev} (memory : e.mem = d.mem) (ses : e.ses = d.ses) (tasks : e.tasks = d.tasks) (delivered : e.delivered = d.delivered)
    (reports : e.reports = d.reports) : Within k d e := by
  have slots (n i : Nat) : sslot e n i = sslot d n i := by rw [sslot, se, ses, sslot, se]
  refine ⟨fun j _ => by rw [kmem, memory, kmem], fun rows n i a r held => rows n i a r (slots n i ▸ held), fun none' z inside => none' z (tasks ▸ inside), delivered,
    fun j h b inside => .inr (reports ▸ inside)⟩

theorem Stops.within {d e : Dev} (stops : Stops d e) : Within k d e := by
  have frame := stops.frame
  refine ⟨fun j _ => by rw [← frame]; rfl, stops.rowsWhole, fun none' z inside => none' z (stops.rests.tasks ▸ inside), stops.rests.delivered, fun j h b inside => .inr ?_⟩
  rw [← frame] at inside
  exact inside

theorem HostOnly.within {d e : Dev} (only : HostOnly d e) : Within k d e := only.stops.within

theorem AccessOnly.within {d e : Dev} (only : AccessOnly d e) : Within k d e := by
  obtain ⟨⟨ms, ps, rfl⟩, -⟩ := only
  exact .of_same rfl rfl rfl rfl rfl

theorem within_modMdie (d : Dev) (m : Nat) (f : MDie → MDie) : Within k d (modMdie d m f) := .of_same rfl rfl rfl rfl rfl

theorem within_modPage (d : Dev) (key : Nat) (f : Page → Page) : Within k d (modPage d key f) := .of_same rfl rfl rfl rfl rfl

/-- A report of anything but memory use. -/
theorem within_report (d : Dev) {r : Report} (other : ∀ j h b, r ≠ .memUse j h b) : Within k d (report d r) := by
  refine ⟨fun _ _ => rfl, id, id, rfl, fun j h b inside => .inr ?_⟩
  rcases List.mem_append.1 inside with old | new
  · exact old
  · exact absurd (List.mem_singleton.1 new).symm (other j h b)

theorem within_metaError (d : Dev) (key : Nat) : Within k d (metaError d key) := (within_modPage ..).trans (within_report _ (by simp))

theorem within_invalidate (d : Dev) (j addr n : Nat) : Within k d (invalidate d j addr n) :=
  ⟨fun _ _ => rfl, fun rows => rowsWhole_invalidate rows j addr n, id, rfl, fun _ _ _ => .inr⟩

theorem mdiesOnly_watermark (fuel : Nat) (d : Dev) (m : Nat) : MdiesOnly d (watermark fuel d m) := by
  induction fuel generalizing d with
  | zero => exact .refl d
  | succ n ih =>
    unfold watermark
    simp only
    split
    · exact .refl d
    · split
      · exact (mdiesOnly_requestMig ..).trans (ih _)
      · exact .refl d

theorem mdiesOnly_watermarkCheck (d : Dev) (m : Nat) : MdiesOnly d (watermarkCheck d m) := by
  unfold watermarkCheck
  extract_lets free e
  have drains : MdiesOnly d e := mdiesOnly_modMdie _ _ fun _ => rfl
  exact iteInduction (fun _ => drains.trans (mdiesOnly_watermark ..)) fun _ => drains

theorem accessOnly_takeFrame (d : Dev) (key m : Nat) : AccessOnly d (takeFrame d key m) := by
  have takes : MdiesOnly d (modMdie d m (fun x => { x with frames := x.frames ++ [pickFrame (mdie d m)], turn := (x.turn + 1) % 3 })) := mdiesOnly_modMdie _ _ fun _ => rfl
  exact (takes.access.trans (accessOnly_modPage ..)).trans (mdiesOnly_watermarkCheck ..).access

theorem mdiesOnly_askFrame (d : Dev) (m k : Nat) : MdiesOnly d (askFrame d m k) := by
  unfold askFrame
  simp only
  split
  · exact mdiesOnly_requestMig ..
  · exact .refl d

theorem mdiesOnly_askFrames (d : Dev) (m : Nat) : MdiesOnly d (askFrames d m) :=
  MdiesOnly.each (fun d _ => iteInduction (motive := MdiesOnly d) (fun _ => .refl d) fun _ => mdiesOnly_askFrame ..) _ d

theorem within_countUe (d : Dev) (key o : Nat) : Within k d (countUe d key o) := by
  unfold countUe
  extract_lets p c e
  have counts : Within k d e := within_modMdie ..
  exact iteInduction (fun _ => counts.trans (within_report _ (by simp))) fun _ => counts

theorem within_poisonLines (d : Dev) (key : Nat) (ls : List Nat) : Within k d (poisonLines d key ls) := within_modPage ..

theorem within_poisonedLines (d : Dev) (key : Nat) (f : Nat → Nat) (bad ls : List Nat) :
    Within k d (poisonLines (each d bad (fun d b => countUe d key (f b))) key ls) :=
  (Within.each (fun _ _ => within_countUe ..) _ d).trans (within_poisonLines ..)

theorem within_retire (d : Dev) (m key o : Nat) : Within k d (retire d m key o) := by
  unfold retire
  extract_lets p near ix b g c e
  have counts : Within k d b := within_modMdie ..
  have moves : Within k b c := by
    refine iteInduction (fun _ => iteInduction (fun _ => (mdiesOnly_requestMig ..).access.within) fun _ => ?_) fun _ => ?_
    · exact (within_modMdie ..).trans (accessOnly_takeFrame ..).within
    · exact (within_modMdie ..).trans (within_modPage ..)
  have reads : Within k c e := within_invalidate ..
  have counted : Within k e { e with retireSeq := e.retireSeq + 1 } := .of_same rfl rfl rfl rfl rfl
  exact (((counts.trans moves).trans reads).trans counted).trans (HostOnly.raise ..).within

theorem within_correctedError (d : Dev) (m key o : Nat) : Within k d (correctedError d m key o) := by
  unfold correctedError
  extract_lets p gran ix recent b
  have counts : Within k d b := within_modMdie ..
  exact iteInduction (fun _ => counts) fun _ => counts.trans (within_retire ..)

theorem within_eccFinds (d : Dev) (j addr n : Nat) (ecc : Ecc) : Within k d (eccFinds d j addr n ecc).1 := by
  cases ecc with
  | cache ls =>
    refine Within.each (fun d z => ?_) _ d
    split
    · exact .of_same rfl rfl rfl rfl rfl
    · exact .refl d
  | hint t =>
    simp only [eccFinds]
    split
    · exact .refl d
    · exact .of_same rfl rfl rfl rfl rfl
  | corrected ls => exact Within.each (fun _ _ => within_correctedError ..) _ d
  | ue ls => exact within_poisonedLines ..
  | _ => exact .refl d

/-- A read of whatever kennel changes no memory. -/
theorem within_memAccess (own : Bool) (d : Dev) (j addr n : Nat) (ecc : Ecc) : Within k d (memAccess own d j addr n ecc).1 := by
  have touches : Within k d (touched d j addr) := within_modPage ..
  have finds := touches.trans (within_eccFinds (touched d j addr) j addr n ecc)
  have counts (b : Dev) : Within k b (if own then readCount b j addr n else b) := iteInduction (fun _ => (accessOnly_readCount ..).within) fun _ => .refl b
  have reads := (finds.trans (counts _)).trans (mdiesOnly_tcRead _ j addr n).access.within
  unfold memAccess
  simp only [touched_eq]
  refine iteInduction (motive := fun r : Dev × MemClass × List Byte => Within k d r.1) (fun _ => within_metaError ..) fun _ => ?_
  refine iteInduction (motive := fun r : Dev × MemClass × List Byte => Within k d r.1) (fun _ => .refl d) fun _ => ?_
  refine iteInduction (motive := fun r : Dev × MemClass × List Byte => Within k d r.1) (fun _ => touches) fun _ => ?_
  refine iteInduction (motive := fun r : Dev × MemClass × List Byte => Within k d r.1) (fun _ => touches.trans (within_metaError ..)) fun _ => ?_
  refine iteInduction (motive := fun r : Dev × MemClass × List Byte => Within k d r.1) (fun _ => touches) fun _ => ?_
  refine iteInduction (motive := fun r : Dev × MemClass × List Byte => Within k d r.1) (fun _ => touches.trans (within_report _ (by simp))) fun _ => ?_
  refine iteInduction (motive := fun r : Dev × MemClass × List Byte => Within k d r.1) (fun _ => reads) fun _ => ?_
  split
  · exact reads
  · exact reads.trans (within_modMdie ..)
  · exact reads.trans (within_poisonedLines ..)
  · exact reads.trans (within_metaError ..)
  · exact reads

theorem within_memReadAll (d : Dev) (j addr n : Nat) (ecc : Ecc) : Within k d (memReadAll d j addr n ecc).1 :=
  foldl_keeps (P := fun r : Dev × MemClass × List Byte => Within k d r.1) (fun r z within => within.trans (within_memAccess true r.1 j z.1.1 z.1.2.length _)) _ (Within.refl d)

/-! ### Writes of a kennel's own memory -/

theorem within_setKmem (d : Dev) (m : Mem) : Within k d (setKmem d k m) :=
  ⟨fun _ other => Tbl.get_set_other _ _ _ _ _ other, id, id, rfl, fun _ _ _ => .inr⟩

theorem within_applyWrite (d : Dev) (addr : Nat) (bs : List Byte) (ues : List Nat) : Within k d (applyWrite d k addr bs ues) := by
  unfold applyWrite
  extract_lets key ls p merged bad e f
  have counts : Within k d e := within_poisonedLines d key (64 * ·) bad bad
  have lines : Within k e f := within_modPage ..
  have stores : Within k f (setKmem f k (Mem.write (kmem f k) addr bs)) := within_setKmem ..
  exact (((counts.trans lines).trans stores).trans (within_modMdie ..)).trans (within_invalidate ..)

theorem within_memPlanCheck (d : Dev) : Within k d (memPlanCheck d k) := by
  have tells (b : Dev) (h : Bool) (n : Nat) : Within k b (report b (.memUse k h n)) := by
    refine ⟨fun _ _ => rfl, id, id, rfl, fun j h b inside => ?_⟩
    rcases List.mem_append.1 inside with old | new
    · exact .inr old
    · cases List.mem_singleton.1 new
      exact .inl rfl
  unfold memPlanCheck
  extract_lets used far q plan high m b c
  have marks : Within k d b := .of_same rfl rfl rfl rfl rfl
  have footprint : Within k b c := iteInduction (fun _ => tells ..) fun _ => .refl b
  exact (marks.trans footprint).trans (iteInduction (fun _ => tells ..) fun _ => .refl c)

theorem within_waitWrite (d : Dev) (j addr : Nat) (bs : List Byte) (w : Writer) : Within k d (waitWrite d j addr bs w) := .of_same rfl rfl rfl rfl rfl

theorem within_memWrite (d : Dev) (addr : Nat) (bs : List Byte) (w : Writer) (ecc : Ecc) : Within k d (memWrite d k addr bs w ecc).1 := by
  unfold memWrite
  extract_lets key p m ues ce e f
  have corrects (d : Dev) : Within k d (ce d) := by
    simp only [ce]
    split
    · exact Within.each (fun _ _ => within_correctedError ..) _ d
    · exact .refl d
  have merges (d : Dev) : Within k d (applyWrite (ce d) k addr bs ues) := (corrects d).trans (within_applyWrite ..)
  have stays : Within k d e := within_modMdie ..
  have frames : Within k d f := (accessOnly_takeFrame ..).within.trans (within_modPage ..)
  clear_value ce e f
  refine iteInduction (motive := fun r : Dev × Wrote => Within k d r.1) (fun _ => within_metaError ..) fun _ => ?_
  refine iteInduction (motive := fun r : Dev × Wrote => Within k d r.1) (fun _ => .refl d) fun _ => ?_
  refine iteInduction (motive := fun r : Dev × Wrote => Within k d r.1) (fun _ => .refl d) fun _ => ?_
  refine iteInduction (motive := fun r : Dev × Wrote => Within k d r.1) (fun _ => within_metaError ..) fun _ => ?_
  cases p.st with
  | near => exact merges d
  | demoting =>
    dsimp only
    exact ((stays.trans (within_modPage ..)).trans (merges _)).trans (mdiesOnly_watermarkCheck ..).access.within
  | zero =>
    dsimp only
    refine iteInduction (motive := fun r : Dev × Wrote => Within k d r.1) (fun _ => ?_) fun _ => (within_waitWrite ..).trans (mdiesOnly_askFrames ..).access.within
    exact (frames.trans (within_applyWrite ..)).trans (within_memPlanCheck ..)
  | far => exact ((mdiesOnly_requestMig ..).access.within.trans (within_waitWrite ..)).trans (mdiesOnly_askFrames ..).access.within
  | _ => exact within_waitWrite ..

theorem within_memWriteAll (d : Dev) (addr : Nat) (bs : List Byte) (w : Writer) (ecc : Ecc) : Within k d (memWriteAll d k addr bs w ecc).1 :=
  foldl_keeps (P := fun r : Dev × Wrote => Within k d r.1) (fun r z within => within.trans (within_memWrite r.1 z.1 z.2 w ecc)) _ (Within.refl d)

end Within

end Sys2Proof.Machine

namespace Sys2Proof.Machine

/-! ### What firmware does at once, with no commit and no row under way (R354, R394, R400) -/

section Within

variable {k : Nat}

theorem within_setTask (d : Dev) (j : Nat) {t : Option Task} (none' : NoCommits d → ∀ u, t = some u → u.parity = none) : Within k d (setTask d j t) := by
  refine ⟨fun _ _ => rfl, id, fun commits z inside u holds => ?_, rfl, fun _ _ _ => .inr⟩
  rcases Tbl.mem_set inside with old | new
  · exact commits z old u holds
  · rw [new] at holds
    exact none' commits u holds

theorem NoCommits.task {d : Dev} (none' : NoCommits d) {j : Nat} {t : Task} (held : task d j = some t) : t.parity = none :=
  none' (j, some t) (Tbl.mem_of_get held (by simp)) t rfl

theorem within_modTask (d : Dev) (j : Nat) {f : Task → Task} (keeps : ∀ t, t.parity = none → (f t).parity = none) : Within k d (modTask d j f) := by
  unfold modTask
  split
  next t held =>
    refine within_setTask d j fun none' u named => ?_
    cases named
    exact keeps t (none'.task held)
  next => exact .refl d

theorem within_setDState (d : Dev) (n : DState) (c : DWord) : Within k d (setDState d n c) :=
  Within.trans (b := { d with dstate := n }) (.of_same rfl rfl rfl rfl rfl) (setDState_frame d n c).within

theorem within_followTasks (d : Dev) (c : DWord) : Within k d (followTasks d c) := by
  unfold followTasks
  simp only
  cases d.dstate with
  | ready => exact iteInduction (fun _ => within_setDState ..) fun _ => .refl d
  | running => exact iteInduction (fun _ => within_setDState ..) fun _ => iteInduction (fun _ => .refl d) fun _ => within_setDState ..
  | recovering => exact iteInduction (fun _ => .refl d) fun _ => iteInduction (fun _ => within_setDState ..) fun _ => within_setDState ..
  | draining => exact iteInduction (fun _ => .refl d) fun _ => within_setDState ..
  | _ => exact .refl d

theorem within_moveTask (d : Dev) (j : Nat) (st : TaskState) (sc : Sc) (c : DWord) : Within k d (moveTask d j st sc c) := by
  unfold moveTask
  split
  next => exact .refl d
  next t held =>
    have moves : Within k d (setTask d j (some { t with st := st, endSt := if st = .ended then sc else t.endSt })) := by
      refine within_setTask d j fun none' u named => ?_
      cases named
      exact (none'.task held : t.parity = none)
    exact (moves.trans (HostOnly.raise ..).within).trans (within_followTasks ..)

theorem within_sendFlit (d : Dev) (p : Nat) (f : Flit) : Within k d (sendFlit d p f) := by
  obtain ⟨ps, frame⟩ := sendFlit_frame d p f
  rw [frame]
  exact .of_same rfl rfl rfl rfl rfl

theorem within_flood (d : Dev) (j code md round arg : Nat) : Within k d (flood d j code md round arg) :=
  Within.trans (b := noteRcv d (rcvTsf j code md round arg)) (.of_same rfl rfl rfl rfl rfl) (Within.each (fun _ _ => within_sendFlit ..) _ _)

theorem within_flushQueues (d : Dev) (j : Nat) : Within k d (flushQueues d j) :=
  Within.each (f := qFlush) (fun _ _ => .of_same rfl rfl rfl rfl rfl) _ d

theorem within_sendQuiet (d : Dev) (j : Nat) : Within k d (sendQuiet d j) := by
  unfold sendQuiet
  split
  · exact .refl d
  · refine iteInduction (fun _ => .trans (within_modTask d j ?_) (within_flood ..)) fun _ => .refl d
    exact fun _ => id

theorem within_onMemUse (d : Dev) (high : Bool) (bytes : Nat) : Within k d (onMemUse d k high bytes) := by
  unfold onMemUse
  extract_lets bs
  refine Within.trans ?_ (HostOnly.raise ..).within
  split
  · exact iteInduction (fun _ => within_memWriteAll ..) fun _ => .refl d
  · exact .refl d

end Within

/-- From `d0` on, no memory of another kennel than k has changed, and what is still to be done at once will change none: no row and no commit is under way,
nothing has been delivered, and only memory use of kennel k is reported. -/
structure Confined (k : Nat) (d0 d : Dev) : Prop where
  memory : ∀ j, j ≠ k → kmem d j = kmem d0 j
  rows : RowsWhole d
  commits : NoCommits d
  delivered : d.delivered = []
  told : ∀ j h b, .memUse j h b ∈ d.reports → j = k

theorem confined_calm {k : Nat} {d : Dev} (calm : Calm d) (rows : RowsWhole d) : Confined k d d :=
  ⟨fun _ _ => rfl, rows, calm.quiet.noCommits, calm.1.2, fun j h b inside => by rw [calm.1.1] at inside; cases inside⟩

section Confined

variable {k : Nat} {d0 d : Dev} (confined : Confined k d0 d)
include confined

theorem Confined.within {e : Dev} (within : Within k d e) : Confined k d0 e :=
  ⟨fun j other => (within.memory j other).trans (confined.memory j other), within.rows confined.rows, within.commits confined.commits,
    within.delivered.trans confined.delivered, fun j h b inside => (within.told j h b inside).elim id (confined.told j h b)⟩

omit confined in
theorem Confined.each {α : Type} {f : Dev → α → Dev} (step : ∀ d x, Confined k d0 d → Confined k d0 (f d x)) (xs : List α) {d : Dev} (confined : Confined k d0 d) :
    Confined k d0 (each d xs f) := foldl_keeps (P := Confined k d0) step xs confined

theorem Confined.stopTraffic (j : Nat) : Confined k d0 (stopTraffic d j) := confined.within (stops_stopTraffic confined.rows j).within

theorem Confined.endLocal (j : Nat) (sc : Sc) (c : DWord) : Confined k d0 (endLocal d j sc c) := by
  unfold Machine.endLocal
  split
  · exact confined
  · extract_lets e
    have stops : Confined k d0 e := iteInduction (fun _ => confined) fun _ => confined.stopTraffic j
    exact (stops.within (within_modTask e j fun _ _ => rfl)).within (within_moveTask ..)

theorem Confined.endTask (j : Nat) (sc : Sc) : Confined k d0 (endTask d j sc) := by
  unfold Machine.endTask
  split
  · exact confined
  · exact iteInduction (fun _ => (confined.endLocal j sc 0).within (within_flood ..)) fun _ => confined

theorem Confined.startRound (j : Nat) (rd : Round) (own : Bool) (nbr : Option Nat) : Confined k d0 (startRound d j rd own nbr) := by
  unfold Machine.startRound
  extract_lets me b c e was f g
  have aborts : Within k d b := iteInduction (fun _ => within_flood ..) fun _ => .refl d
  have names : Within k b c := by
    simp only [c]
    split
    · exact within_flood ..
    · exact .refl b
  have stops : Confined k d0 e := ((confined.within aborts).within names).stopTraffic j
  have enters : Within k e f := within_modTask e j fun _ _ => rfl
  have moves : Within k f g := iteInduction (fun _ => .refl f) fun _ => within_moveTask ..
  exact stops.within ((enters.trans moves).trans (within_flushQueues ..))

theorem Confined.onFault (j : Nat) (kind : FaultKind) (nbr : Option Nat) : Confined k d0 (onFault d j kind nbr) := by
  unfold Machine.onFault
  split
  · exact confined
  next t _ =>
    extract_lets rd
    cases t.st with
    | starting => exact confined.endTask ..
    | running | stopping => exact iteInduction (fun _ => confined.startRound ..) fun _ => confined.endTask ..
    | recovering =>
      refine iteInduction (fun _ => confined.startRound ..) fun _ => ?_
      split
      · refine confined.within (.trans (within_modTask d j ?_) (within_flood ..))
        exact fun _ => id
      · exact confined
    | _ => exact confined

theorem Confined.enterFailed (st : DState) (c : DWord) : Confined k d0 (enterFailed d st c) := by
  rw [enterFailed_eq]
  have enters := (within_setDState (k := k) d st c).trans (stops_sendBarks (setDState d st c) true).within
  have powers : Within k (sendBarks (setDState d st c) true) (failing d st c) := .of_same rfl rfl rfl rfl rfl
  exact Confined.each (fun _ j confined => confined.endLocal j .aborted c) _ (confined.within (enters.trans powers))

theorem Confined.enterFaulted (c : DWord) : Confined k d0 (enterFaulted d c) := by
  have fails := confined.enterFailed .faulted c
  unfold Machine.enterFaulted
  cases d.dstate with
  | off | faulted => exact confined
  | boot => exact fails.within (.of_same rfl rfl rfl rfl rfl)
  | _ => exact fails

/-- What a report asks for, where one of memory use is of kennel k. -/
theorem Confined.onReport {r : Report} (own : ∀ j h b, r = .memUse j h b → j = k) : Confined k d0 (onReport d r) := by
  cases r with
  | fault j kind => exact confined.onFault j kind none
  | neighbour m => exact Confined.each (fun _ j confined => confined.onFault j .moduleLost (some m)) _ confined
  | ending j sc => exact confined.endTask j sc
  | memFatal c => exact confined.enterFaulted _
  | memUse j high n =>
    obtain rfl := own j high n rfl
    exact confined.within (within_onMemUse ..)

theorem Confined.onReports (fuel : Nat) : Confined k d0 (onReports fuel d) := by
  have taken {d : Dev} (confined : Confined k d0 d) : Confined k d0 { d with reports := [] } :=
    ⟨confined.memory, confined.rows, confined.commits, confined.delivered, fun _ _ _ inside => by cases inside⟩
  induction fuel generalizing d with
  | zero => exact taken confined
  | succ f ih =>
    unfold Machine.onReports
    split
    · exact confined
    · refine ih ?_
      have acts (rs : List Report) (own : ∀ r ∈ rs, ∀ j h b, r = .memUse j h b → j = k) {e : Dev} (confined : Confined k d0 e) : Confined k d0 (Machine.each e rs Machine.onReport) := by
        induction rs generalizing e with
        | nil => exact confined
        | cons r rs ih => exact ih (fun q later => own q (.tail r later)) (confined.onReport (own r (.head rs)))
      exact acts d.reports (fun r inside j h b named => confined.told j h b (named ▸ inside)) (taken confined)

/-- What follows a command at once keeps to the memory of kennel k. -/
theorem Confined.settle : Confined k d0 (settle d) := by
  have undelivered : { d with delivered := [] } = d := by conv_lhs => rw [← confined.delivered]
  have results : parityResults d = d := by rw [parityResults, confined.delivered, undelivered]; rfl
  have roots : deliverRoots d = d := by rw [deliverRoots, confined.delivered, undelivered]; rfl
  have steps : taskKeys d (fun t => t.parity.isSome) = [] := by
    simp only [taskKeys, List.map_eq_nil_iff, List.filter_eq_nil_iff]
    intro z inside
    cases holds : z.2 with
    | none => simp
    | some t => simp [confined.commits z inside t holds]
  have idle : Machine.each d [] parityStep = d := rfl
  unfold Machine.settle
  split
  · exact confined
  · simp only [results, steps, idle, roots]
    exact (confined.onReports 4).within (Within.each (fun _ _ => within_sendQuiet ..) _ _)

end Confined

end Sys2Proof.Machine

namespace Sys2Proof.Machine

/-! ### A page is unmapped (R212, R214, R226) -/

theorem Tbl.get_erase {α : Type} (d : α) (t : Tbl α) (k j : Nat) : Tbl.get d (Tbl.erase t k) j = if j = k then d else Tbl.get d t j := by
  simp only [Tbl.get_find, Tbl.find_erase]
  split <;> rfl

theorem Mem.byte_zero (m : Mem) (a n c : Nat) : Mem.byte (Mem.zero m a n) c = if a ≤ c ∧ c < a + n then 0 else Mem.byte m c := by
  have found : (Mem.zero m a n).find? (·.1 == c) = if a ≤ c ∧ c < a + n then none else m.find? (·.1 == c) := by
    rw [Mem.zero, List.find?_filter]
    split
    next inside =>
      refine List.find?_eq_none.2 fun p _ both => ?_
      simp only [Bool.not_eq_true', Bool.and_eq_false_iff, decide_eq_false_iff_not, decide_eq_true_eq, beq_iff_eq] at both
      omega
    next outside =>
      refine congrArg (fun q => m.find? q) (funext fun p => ?_)
      by_cases here : p.1 = c
      · simpa only [here, beq_self_eq_true, and_true, decide_eq_true_eq, Bool.not_eq_true', Bool.and_eq_false_iff, decide_eq_false_iff_not, not_and_or] using outside
      · simp [here]
  simp only [Mem.byte, Tbl.get_find, found]
  split <;> rfl

/-- No migration is a promotion. -/
def NoneRises (d : Dev) : Prop := ∀ i, ∀ g ∈ (mdie d i).migs, g.up = false

/-- A change of one M-die that asks for no promotion. -/
theorem noneRises_modMdie {d : Dev} (down : NoneRises d) (m : Nat) {f : MDie → MDie} (keeps : ∀ g ∈ (f (mdie d m)).migs, g ∈ (mdie d m).migs ∨ g.up = false) :
    NoneRises (modMdie d m f) := by
  intro i g inside
  by_cases here : i = m
  · subst here
    rw [mdie_modMdie] at inside
    exact (keeps g inside).elim (down i g) id
  · rw [mdie_modMdie_other _ _ _ _ here] at inside
    exact down i g inside

theorem noneRises_modPage {d : Dev} (down : NoneRises d) (key : Nat) (f : Page → Page) : NoneRises (modPage d key f) := down

theorem noneRises_demand {d : Dev} (down : NoneRises d) (m key prio : Nat) : NoneRises (requestMig d m key prio false) := by
  refine noneRises_modMdie down m fun g inside => ?_
  split at inside
  · exact .inl inside
  · rcases List.mem_append.1 inside with old | new
    · exact .inl (List.mem_filter.1 old).1
    · exact .inr (by rw [List.mem_singleton.1 new])

theorem noneRises_watermark (fuel : Nat) {d : Dev} (down : NoneRises d) (m : Nat) : NoneRises (watermark fuel d m) := by
  induction fuel generalizing d with
  | zero => exact down
  | succ n ih =>
    unfold watermark
    simp only
    split
    · exact down
    · split
      · exact ih (noneRises_demand down _ _ _)
      · exact down

theorem noneRises_watermarkCheck {d : Dev} (down : NoneRises d) (m : Nat) : NoneRises (watermarkCheck d m) := by
  unfold watermarkCheck
  extract_lets free e
  have drains : NoneRises e := noneRises_modMdie down m fun _ => .inl
  exact iteInduction (fun _ => noneRises_watermark _ drains m) fun _ => drains

/-- Where nobody waits for a frame, one that is freed serves nobody. -/
theorem frameFreed_none {d : Dev} {m : Nat} (none' : wantFrame d m = []) : frameFreed d m = watermarkCheck d m := by
  rw [frameFreed, serveFirst, none']
  rfl

theorem wantFrame_nobody {d : Dev} (nobody : NobodyWaits d) (m : Nat) : wantFrame d m = [] := by
  obtain ⟨waits, down⟩ := nobody
  have far : (mdie d m).migs.filter (fun g => g.up && g.prio == 1 && !g.running) = [] := List.filter_eq_nil_iff.2 fun g inside => by simp [down m g inside]
  simp [wantFrame, waits, far]

/-- Reports of kennel k's memory use join those of a device, and nothing else changes. -/
def TellsUse (k : Nat) (d e : Dev) : Prop := ∃ rs, e = { d with reports := d.reports ++ rs } ∧ ∀ r ∈ rs, ∃ h b, r = .memUse k h b

theorem TellsUse.refl (k : Nat) (d : Dev) : TellsUse k d d := ⟨[], by rw [List.append_nil], by simp⟩

theorem tellsUse_report (k : Nat) (d : Dev) (h : Bool) (b : Nat) : TellsUse k d (report d (.memUse k h b)) := ⟨[.memUse k h b], rfl, by simp⟩

theorem TellsUse.trans {k : Nat} {a b c : Dev} (first : TellsUse k a b) (second : TellsUse k b c) : TellsUse k a c := by
  obtain ⟨rs, rfl, told⟩ := first
  obtain ⟨qs, rfl, told'⟩ := second
  refine ⟨rs ++ qs, by rw [← List.append_assoc], fun r inside => ?_⟩
  exact (List.mem_append.1 inside).elim (told r) (told' r)

/-- The marks of a kennel's memory use: the reports that passing them makes are the kennel's. -/
theorem memPlanCheck_frame (d : Dev) (k : Nat) : ∃ marks, TellsUse k { d with marks := marks } (memPlanCheck d k) := by
  unfold memPlanCheck
  extract_lets used far q plan high m b c
  have footprint : TellsUse k b c := iteInduction (fun _ => tellsUse_report ..) fun _ => .refl ..
  exact ⟨b.marks, footprint.trans (iteInduction (fun _ => tellsUse_report ..) fun _ => .refl ..)⟩

/-- What unmapping a list of pages of kennel k leaves, where nobody waits for a frame. -/
structure Unmapped (k : Nat) (pgs : List Nat) (d e : Dev) : Prop where
  frame : e = { d with mdies := e.mdies, pages := e.pages, dirs := e.dirs, mem := e.mem, marks := e.marks, reports := e.reports }
  nobody : NobodyWaits e
  pages : ∀ j, Tbl.get {} e.pages j = if ∃ pg ∈ pgs, j = pageKey k pg then {} else Tbl.get {} d.pages j
  bytes : ∀ a, Mem.byte (kmem e k) a = if ∃ pg ∈ pgs, a / pageBytes = pg then 0 else Mem.byte (kmem d k) a
  others : ∀ j, j ≠ k → kmem e j = kmem d j
  told : ∀ z ∈ e.reports, (∃ h b, z = .memUse k h b) ∨ z ∈ d.reports

theorem Unmapped.nil {d : Dev} {k : Nat} (nobody : NobodyWaits d) : Unmapped k [] d d := ⟨rfl, nobody, by simp, by simp, fun _ _ => rfl, fun _ => .inr⟩

theorem Unmapped.cons {k pg : Nat} {pgs : List Nat} {d e f : Dev} (first : Unmapped k [pg] d e) (rest : Unmapped k pgs e f) : Unmapped k (pg :: pgs) d f where
  frame := by rw [rest.frame, first.frame]
  nobody := rest.nobody
  pages j := by
    rw [rest.pages, first.pages]
    by_cases here : ∃ q ∈ pgs, j = pageKey k q <;> simp [here]
  bytes a := by
    rw [rest.bytes, first.bytes]
    by_cases here : a / pageBytes ∈ pgs <;> simp [here]
  others j other := (rest.others j other).trans (first.others j other)
  told z inside := (rest.told z inside).elim .inl (first.told z)

/-- What a page holds of its M-die is free. -/
def freedPage (d : Dev) (k pg : Nat) : Dev :=
  let key := pageKey k pg
  let p := page d k pg
  let d := tcDrop d p.home k pg
  let d := if holdsFrame p then freeFrame d key p.home else d
  modMdie d p.home (fun x => { x with records := x.records.filter (· != p.pid), far := x.far.filter (fun g => !p.extent.contains g), migs := x.migs.filter (fun g => g.key != key) })

/-- The page's bytes and its PTE are cleared. -/
def clearedPage (d : Dev) (k pg : Nat) : Dev :=
  let key := pageKey k pg
  let d := setKmem d k (Mem.zero (kmem d k) (pg * pageBytes) pageBytes)
  let d := { d with pages := Tbl.erase d.pages key, waits := d.waits.filter (fun w => waitKey w != key) }
  if d.pages.any (fun z => z.1 / 1024 == key / 1024) then d else { d with dirs := Tbl.erase d.dirs (8192 * k + pg / 1024) }

theorem unmapPage_eq (d : Dev) (k pg : Nat) : unmapPage d k pg =
    memPlanCheck (if holdsFrame (page d k pg) then frameFreed (clearedPage (freedPage d k pg) k pg) (page d k pg).home else clearedPage (freedPage d k pg) k pg) k := rfl

theorem accessOnly_freeFrame (d : Dev) (key m : Nat) : AccessOnly d (freeFrame d key m) := by
  unfold freeFrame
  extract_lets f
  have frees : MdiesOnly d (modMdie d m fun x => { x with frames := x.frames.filter (· != f), freedAt := some d.eclk }) := mdiesOnly_modMdie _ _ fun _ => rfl
  exact frees.access.trans (accessOnly_modPage ..)

theorem freeFrame_other (d : Dev) {key m j : Nat} (other : j ≠ key) : (Tbl.get {} (freeFrame d key m).pages j : Page) = Tbl.get {} d.pages j :=
  Tbl.get_modify_other {} d.pages _ _ (fun p => { p with frame := 0 }) other

theorem accessOnly_freedPage (d : Dev) (k pg : Nat) : AccessOnly d (freedPage d k pg) := by
  unfold freedPage
  extract_lets key p drops frees
  have drop : MdiesOnly d drops := mdiesOnly_modMdie _ _ fun _ => rfl
  have free : AccessOnly d frees := iteInduction (fun _ => drop.access.trans (accessOnly_freeFrame ..)) fun _ => drop.access
  refine free.trans (MdiesOnly.access ?_)
  exact mdiesOnly_modMdie _ _ fun _ => rfl

theorem freedPage_other (d : Dev) {k pg j : Nat} (other : j ≠ pageKey k pg) : (Tbl.get {} (freedPage d k pg).pages j : Page) = Tbl.get {} d.pages j :=
  iteInduction (motive := fun e : Dev => (Tbl.get {} e.pages j : Page) = Tbl.get {} d.pages j) (fun _ => freeFrame_other _ other) fun _ => rfl

theorem noneRises_freedPage {d : Dev} (down : NoneRises d) (k pg : Nat) : NoneRises (freedPage d k pg) := by
  unfold freedPage
  extract_lets key p drops frees
  have drop : NoneRises drops := noneRises_modMdie down _ fun _ => .inl
  have gives : NoneRises (freeFrame drops key p.home) := noneRises_modPage (noneRises_modMdie drop _ fun _ => .inl) _ _
  have free : NoneRises frees := iteInduction (fun _ => gives) fun _ => drop
  exact noneRises_modMdie free _ fun g inside => .inl (List.mem_filter.1 inside).1

theorem clearedPage_frame {d : Dev} (nobody : d.waits = []) (k pg : Nat) : ∃ ds, clearedPage d k pg =
    { d with dirs := ds, pages := Tbl.erase d.pages (pageKey k pg), mem := Tbl.set [] d.mem k (Mem.zero (kmem d k) (pg * pageBytes) pageBytes) } := by
  unfold clearedPage
  extract_lets key zeros clears
  have none' : clears = { zeros with pages := Tbl.erase zeros.pages key } := by
    simp only [clears, show zeros.waits = [] from nobody, List.filter_nil]
  rw [none']
  split
  · exact ⟨d.dirs, rfl⟩
  · exact ⟨_, rfl⟩

/-- A page's entry and bytes are cleared, and nothing else is. -/
theorem unmapped_clearedPage {d : Dev} (nobody : NobodyWaits d) (k pg : Nat) : Unmapped k [pg] d (clearedPage (freedPage d k pg) k pg) := by
  obtain ⟨waits, down⟩ := nobody
  have free := noneRises_freedPage down k pg
  have same (j : Nat) (other : j ≠ pageKey k pg) := freedPage_other d other
  obtain ⟨⟨ms, ps, freed⟩, -⟩ := accessOnly_freedPage d k pg
  rw [freed] at free same ⊢
  obtain ⟨ds, cleared⟩ := clearedPage_frame (d := { d with mdies := ms, pages := ps }) waits k pg
  rw [cleared]
  refine ⟨rfl, ⟨waits, free⟩, fun j => ?_, fun a => ?_, fun j other => Tbl.get_set_other _ _ _ _ _ other, fun _ => .inr⟩
  · simp only [Tbl.get_erase, List.mem_singleton, exists_eq_left]
    split
    · rfl
    next other => exact same j other
  · have inside : (a / pageBytes = pg) ↔ pg * pageBytes ≤ a ∧ a < pg * pageBytes + pageBytes := by
      rw [Nat.div_eq_iff (by decide : 0 < pageBytes)]
      unfold pageBytes
      omega
    simp only [kmem, Tbl.get_set_self, Mem.byte_zero, List.mem_singleton, exists_eq_left, inside]

theorem Unmapped.mdies {k : Nat} {pgs : List Nat} {d e f : Dev} (unmapped : Unmapped k pgs d e) (only : MdiesOnly e f) (down : NoneRises f) : Unmapped k pgs d f := by
  obtain ⟨⟨ms, rfl⟩, -⟩ := only
  refine ⟨?_, ⟨unmapped.nobody.1, down⟩, unmapped.pages, unmapped.bytes, unmapped.others, unmapped.told⟩
  rw [unmapped.frame]

theorem Unmapped.planCheck {k : Nat} {pgs : List Nat} {d e : Dev} (unmapped : Unmapped k pgs d e) : Unmapped k pgs d (memPlanCheck e k) := by
  obtain ⟨marks, rs, frame, told⟩ := memPlanCheck_frame e k
  rw [frame]
  refine ⟨?_, unmapped.nobody, unmapped.pages, unmapped.bytes, unmapped.others, fun z inside => ?_⟩
  · rw [unmapped.frame]
  · exact (List.mem_append.1 inside).elim (unmapped.told z) fun new => .inl (told z new)

theorem unmapped_unmapPage {d : Dev} (nobody : NobodyWaits d) (k pg : Nat) : Unmapped k [pg] d (unmapPage d k pg) := by
  have clears := unmapped_clearedPage nobody k pg
  rw [unmapPage_eq]
  refine Unmapped.planCheck (iteInduction (motive := Unmapped k [pg] d) (fun _ => ?_) fun _ => clears)
  rw [frameFreed_none (wantFrame_nobody clears.nobody _)]
  exact clears.mdies (mdiesOnly_watermarkCheck ..) (noneRises_watermarkCheck clears.nobody.2 _)

theorem unmapped_each (k : Nat) (pgs : List Nat) {d : Dev} (nobody : NobodyWaits d) : Unmapped k pgs d (each d pgs fun d pg => unmapPage d k pg) := by
  induction pgs generalizing d with
  | nil => exact .nil nobody
  | cons pg pgs ih =>
    have first := unmapped_unmapPage nobody k pg
    exact first.cons (ih first.nobody)

theorem Unmapped.within {k : Nat} {pgs : List Nat} {d e : Dev} (unmapped : Unmapped k pgs d e) : Within k d e := by
  have slots (n i : Nat) : sslot e n i = sslot d n i := by rw [unmapped.frame]; rfl
  refine ⟨unmapped.others, fun rows n i a r held => rows n i a r (slots n i ▸ held), fun none' => ?_, by rw [unmapped.frame], fun j h b inside => ?_⟩
  · rw [unmapped.frame]
    exact none'
  · refine (unmapped.told _ inside).imp (fun own => ?_) id
    obtain ⟨_, _, same⟩ := own
    injection same

end Sys2Proof.Machine

namespace Sys2Proof.Machine

/-! ### Memory, table and task commands keep to their kennel's memory (R211, R379) -/

section Within

variable {k : Nat}

theorem within_mapPage (d : Dev) (j pg home : Nat) (attrs : DWord) : Within k d (mapPage d j pg home attrs) := by
  unfold mapPage
  extract_lets dir e pid f pte
  have tables : Within k d e := iteInduction (fun _ => .refl d) fun _ => .of_same rfl rfl rfl rfl rfl
  have records : Within k e f := within_modMdie ..
  exact (tables.trans records).trans (.of_same rfl rfl rfl rfl rfl)

theorem mdiesOnly_askMigrate (d : Dev) (j pg : Nat) (down : Bool) : MdiesOnly d (askMigrate d j pg down) := by
  unfold askMigrate
  extract_lets p
  exact iteInduction (fun _ => iteInduction (fun _ => mdiesOnly_requestMig ..) fun _ => .refl d) fun _ => iteInduction (fun _ => mdiesOnly_requestMig ..) fun _ => .refl d

theorem within_modHq (d : Dev) (q : Nat) (f : Hq → Hq) : Within k d (modHq d q f) := .of_same rfl rfl rfl rfl rfl

theorem within_qPush (d : Dev) (q j : Nat) (b : DWord) (at' : Nat) : Within k d (qPush d q j b at').1 := by
  unfold qPush
  extract_lets x
  refine iteInduction (motive := fun r : Dev × Pushed => Within k d r.1) (fun _ => within_modHq ..) fun _ => ?_
  split
  · exact .of_same rfl rfl rfl rfl rfl
  · exact iteInduction (motive := fun r : Dev × Pushed => Within k d r.1) (fun _ => within_modHq ..) fun _ => within_modHq ..

theorem within_pushAll (d : Dev) (q j : Nat) (bs : List DWord) (n : Nat) : Within k d (pushAll d q j bs n).1 := by
  induction bs generalizing d n with
  | nil => exact .refl d
  | cons b r ih =>
    have pushes : Within k d (qPush d q j b d.eclk).1 := within_qPush ..
    unfold pushAll
    split
    next e accepted => rw [accepted] at pushes; exact pushes.trans (ih ..)
    next e o _ refused => rw [refused] at pushes; exact pushes

theorem within_clearTree (d : Dev) (tn : Nat) : Within k d (clearTree d tn) := by
  unfold clearTree
  extract_lets t b c
  have frees : Within k d b := Within.each (fun _ _ => (stops_modPort ..).within) _ d
  have empties : Within k b c := (stops_setAdder ..).within
  exact (frees.trans empties).trans (stops_modTree ..).within

theorem within_writeTree (d : Dev) (tn : Nat) (entry : BitVec 128) : Within k d (writeTree d tn entry) := by
  have enables : Within k d (enabledTree d tn entry) := (within_clearTree ..).trans (stops_modTree ..).within
  refine iteInduction (fun _ => ?_) fun _ => (within_clearTree ..).trans (stops_modTree ..).within
  rw [enableTree_eq]
  exact iteInduction (fun _ => enables) fun _ => enables.trans (Within.each (fun _ _ => within_sendFlit ..) _ _)

theorem within_modSlot (d : Dev) (n i : Nat) {f : SSlot → SSlot} (whole : SlotWhole (sslot d n i) → SlotWhole (f (sslot d n i))) : Within k d (modSlot d n i f) := by
  refine ⟨fun _ _ => rfl, fun rows => ?_, id, rfl, fun _ _ _ => .inr⟩
  rw [rowsWhole_iff] at rows ⊢
  intro j l a held
  by_cases here : (j, l) = (n, i)
  · cases here
    rw [sslot_modSlot] at held
    exact whole (rows n i) a held
  · rw [sslot_modSlot_other _ _ here] at held
    exact rows j l a held

/-- A descriptor that becomes active has no row under way. -/
theorem rowWhole_activate (x : Desc) (gen j plan : Nat) : RowWhole (activate x gen j plan) := by
  intro r writes
  cases writes

theorem slotWhole_activate {x : SSlot} {ds : Desc} {g j plan : Nat} (active : x.act = some (activate ds g j plan)) : SlotWhole x := by
  intro a held
  rw [active] at held
  cases held
  exact rowWhole_activate _ _ _ _

theorem slotWhole_empty {x : SSlot} (empty : x.act = none) : SlotWhole x := by
  intro a held
  rw [empty] at held
  cases held

theorem within_shadowMove (d : Dev) (n i : Nat) : Within k d (shadowMove d n i) := by
  unfold shadowMove
  extract_lets x
  split
  · exact within_modSlot d n i fun _ => slotWhole_activate rfl
  · exact .refl d

theorem within_arm {d e : Dev} {j n i : Nat} {x : Desc} {start gen : Nat} (armed : arm d j n i x start = some (e, gen)) : Within k d e := by
  have moves : Within k d (shadowMove d n i) := within_shadowMove ..
  unfold arm at armed
  simp only at armed
  split at armed
  · cases armed
    exact moves.trans (within_modSlot _ n i fun _ => slotWhole_activate rfl)
  · cases armed
    exact moves.trans (within_modSlot _ n i fun whole => whole)
  · cases armed

theorem within_trimWatches (d : Dev) (n i : Nat) : Within k d (trimWatches d n i) := by
  obtain ⟨m, w, frame⟩ := trimWatches_frame d n i
  rw [frame]
  exact .of_same rfl rfl rfl rfl rfl

theorem within_leaveActive (d : Dev) (n i plan : Nat) : Within k d (leaveActive d n i plan) :=
  (within_modSlot d n i fun _ => slotWhole_empty rfl).trans (within_trimWatches ..)

theorem within_disarm (d : Dev) (n i gen : Nat) : Within k d (disarm d n i gen).1 := by
  unfold disarm
  extract_lets x active
  have ends : Within k d active.1 := by
    simp only [active]
    split
    · exact iteInduction (motive := fun r : Dev × Bool => Within k d r.1) (fun _ => within_leaveActive ..) fun _ => .refl d
    · exact .refl d
  split
  · exact iteInduction (motive := fun r : Dev × Bool => Within k d r.1) (fun _ => within_modSlot d n i fun whole => whole) fun _ => ends
  · exact ends

theorem within_storeWrite (d : Dev) (sp u a : Nat) (bs : List Byte) : Within k d (storeWrite d sp u a bs) := by
  rw [storeWrite, setStore_frame]
  exact .of_same rfl rfl rfl rfl rfl

theorem within_loadQueue (d : Dev) (j : Nat) (w : List DWord) : Within k d (loadQueue d j w) := by
  unfold loadQueue
  extract_lets q
  exact iteInduction (fun _ => .refl d) fun _ => (within_modHq ..).trans (Within.each (fun _ _ => within_qPush ..) _ _)

theorem within_loadTree (d : Dev) (j : Nat) (w : List DWord) : Within k d (loadTree d j w) := by
  unfold loadTree
  extract_lets tn
  exact iteInduction (fun _ => .refl d) fun _ => within_writeTree ..

theorem within_loadLitter (d : Dev) (j : Nat) (w : List DWord) : Within k d (loadLitter d j w) := by
  unfold loadLitter
  extract_lets l
  exact iteInduction (fun _ => .refl d) fun _ => .of_same rfl rfl rfl rfl rfl

theorem within_loadTables (d : Dev) (j : Nat) (t : Task) : Within k d (loadTables d j t) := by
  unfold loadTables
  extract_lets b c
  have queues : Within k d b := Within.each (fun _ _ => within_loadQueue ..) _ d
  have trees : Within k b c := Within.each (fun _ _ => within_loadTree ..) _ b
  exact (queues.trans trees).trans (Within.each (fun _ _ => within_loadLitter ..) _ c)

theorem within_placeSections (d : Dev) (t : Task) : Within k d (placeSections d t) := Within.each (fun _ _ => within_storeWrite ..) _ d

theorem within_planUnits (d : Dev) (t : Task) (b step : Nat) : Within k d (planUnits d t b step) :=
  Within.each (fun _ _ => iteInduction (fun _ => (stops_modPair ..).within) fun _ => (stops_modPair ..).within) _ d

theorem within_loadArms (d : Dev) (j : Nat) (t : Task) (b : Nat) : Within k d (loadArms d j t b) := by
  refine Within.each (fun d w => ?_) _ d
  split
  next armed => exact within_arm armed
  next => exact .refl d

theorem within_startTask (d : Dev) (j b : Nat) : Within k d (startTask d j b) := by
  unfold startTask
  split
  · exact .refl d
  next t _ =>
    extract_lets e
    have places : Within k d (placeSections (loadTables d j t) t) := (within_loadTables ..).trans (within_placeSections ..)
    have loads : Within k d e := (places.trans (within_planUnits ..)).trans (within_loadArms ..)
    refine loads.trans (.trans (within_modTask e j ?_) (within_moveTask ..))
    exact fun _ => id

theorem within_releaseUnits (d : Dev) (es cs : List Nat) : Within k d (releaseUnits d es cs) := by
  unfold releaseUnits
  extract_lets b
  have pairs : Within k d b := by
    refine Within.each (fun _ _ => ?_) es d
    exact .of_same rfl rfl rfl rfl rfl
  refine pairs.trans (Within.each (fun _ _ => ?_) cs b)
  exact .of_same rfl rfl rfl rfl rfl

theorem within_trimUnits (d : Dev) (j : Nat) : Within k d (trimUnits d j) := iteInduction (fun _ => .refl d) fun _ => within_releaseUnits ..

theorem within_dropTask (d : Dev) (j : Nat) (sc : Sc) (c : DWord) : Within k d (dropTask d j sc c) := by
  unfold dropTask
  split
  · exact .refl d
  · have drops : Within k d (setTask d j none) := within_setTask d j fun _ _ held => by cases held
    exact (drops.trans (HostOnly.raise ..).within).trans (within_followTasks ..)

theorem within_finish (d : Dev) (m : Nat) (c : Sc) (a b e : DWord) : Within k d (finish d m c a b e) :=
  Within.trans (b := { d with begun := d.begun.filter (· != m) }) (.of_same rfl rfl rfl rfl rfl) (finish_frame d m c a b e).within

end Within

/-- The effect of a command keeps to the memory of its kennel, where nobody waits for a frame. -/
def KeepsTo (f : Scp) : Prop := ∀ d z, NobodyWaits d → Confined z.k d d → Confined z.k d (f.act d z).d

theorem keepsTo_within {f : Scp} (acts : ∀ d z, Within z.k d (f.act d z).d) : KeepsTo f := fun d z _ confined => confined.within (acts d z)

theorem writeIn_device (p : Payload) (bs : List Byte) (r : Dev × Wrote) : (writeIn p bs r).d = r.1 := by
  obtain ⟨d, w⟩ := r
  cases w <;> rfl

theorem keepsTo_map : KeepsTo mapCmd := keepsTo_within fun d _ => Within.each (fun _ _ => within_mapPage ..) _ d

theorem keepsTo_unmap : KeepsTo unmapCmd := fun _ z nobody confined => confined.within (unmapped_each z.k (pagesAsked z) nobody).within

theorem keepsTo_memWrite (p : Payload) : KeepsTo (memWriteCmd p) := keepsTo_within fun d z => by
  rw [show (memWriteCmd p).act d z = writeIn p _ _ from rfl, writeIn_device]
  exact within_memWriteAll ..

theorem keepsTo_memRead (ecc : Ecc) : KeepsTo (memReadCmd ecc) := keepsTo_within fun d z => by
  have reads : Within z.k d (memReadAll d z.k z.r.p0.toNat (z.r.plen * 64) ecc).1 := within_memReadAll ..
  simp only [memReadCmd]
  split
  next e bs read => rw [read] at reads; exact reads.trans (HostOnly.emit ..).within
  next e bs read => rw [read] at reads; exact reads
  next e c bs _ _ read => rw [read] at reads; exact reads

theorem keepsTo_migrate : KeepsTo migrateCmd := keepsTo_within fun d _ => Within.each (fun _ _ => (mdiesOnly_askMigrate ..).access.within) _ d

theorem keepsTo_hqSet : KeepsTo hqSetCmd := keepsTo_within fun _ _ => within_modHq ..

theorem keepsTo_hqPush : KeepsTo hqPushCmd := keepsTo_within fun d z => by
  have pushes := within_pushAll (k := z.k) d (queueArg z) z.k ([z.r.p1, z.r.p2, z.r.p3, z.r.p4, z.r.p5].take (pushCount z)) 0
  exact iteInduction (motive := fun a : Ans => Within z.k d a.d) (fun _ => pushes) fun _ => pushes

theorem keepsTo_hqFlush : KeepsTo hqFlushCmd := keepsTo_within fun _ _ => within_modHq ..

theorem keepsTo_litterSet : KeepsTo litterSetCmd := keepsTo_within fun _ _ => .of_same rfl rfl rfl rfl rfl

theorem keepsTo_treeSet : KeepsTo treeSetCmd := keepsTo_within fun _ _ => within_writeTree ..

theorem keepsTo_slotArm (p : Payload) : KeepsTo (slotArmCmd p) := keepsTo_within fun d z => by
  simp only [slotArmCmd]
  split
  next armed => exact within_arm armed
  next => exact .refl d

theorem keepsTo_slotDisarm : KeepsTo slotDisarmCmd := keepsTo_within fun _ _ => within_disarm ..

theorem keepsTo_scalarSet : KeepsTo scalarSetCmd := keepsTo_within fun _ _ => .of_same rfl rfl rfl rfl rfl

theorem keepsTo_taskCreate : KeepsTo taskCreateCmd := keepsTo_within fun d z =>
  (within_setTask d z.k fun _ t held => by cases held; rfl).trans (HostOnly.raise ..).within

theorem keepsTo_taskStart : KeepsTo taskStartCmd := keepsTo_within fun _ _ => within_startTask ..

theorem keepsTo_taskStop : KeepsTo taskStopCmd := keepsTo_within fun d z => by
  refine .trans (within_modTask d z.k ?_) (within_moveTask ..)
  exact fun _ => id

theorem keepsTo_taskAbort : KeepsTo taskAbortCmd := fun _ _ _ confined => confined.endTask ..

theorem keepsTo_taskDestroy : KeepsTo taskDestroyCmd := keepsTo_within fun _ _ => (within_dropTask ..).trans (within_trimUnits ..)

theorem keepsTo_taskStatus : KeepsTo taskStatusCmd := keepsTo_within fun d z => by
  simp only [taskStatusCmd]
  split
  · exact .refl d
  · exact .of_same rfl rfl rfl rfl rfl

theorem keepsTo_batchPut (p : Payload) : KeepsTo (batchPutCmd p) := keepsTo_within fun d z => by
  simp only [batchPutCmd]
  split
  · exact .refl d
  next t _ =>
    generalize answer : writeIn p (payBytes z p) _ = a
    have writes : Within z.k d a.d := by
      rw [← answer, writeIn_device]
      exact within_memWriteAll ..
    refine iteInduction (motive := fun b : Ans => Within z.k d b.d) (fun _ => writes.trans (within_modTask _ _ ?_)) fun _ => writes
    exact fun _ => id

theorem keepsTo_schedSet (p : Payload) : KeepsTo (schedSetCmd p) := keepsTo_within fun d z => by
  simp only [schedSetCmd]
  split
  · exact .refl d
  next t _ =>
    have writes : Within z.k d (memWriteAll d z.k (((t.sec 0x08).map (·.addr)).getD 0 + 64 * z.r.p0.toNat) (payBytes z p) .firmware .clean).1 := within_memWriteAll ..
    split
    next wrote => rw [wrote] at writes; exact writes
    next wrote => rw [wrote] at writes; exact writes

theorem keepsTo_freezeSet (p : Payload) : KeepsTo (freezeSetCmd p) := keepsTo_within fun _ _ => by
  refine within_modTask _ _ ?_
  exact fun _ => id

theorem keepsTo_taskStandby : KeepsTo taskStandbyCmd := keepsTo_within fun _ _ => by
  refine within_modTask _ _ ?_
  exact fun _ => id

theorem keepsTo_timeGet : KeepsTo timeGetCmd := keepsTo_within fun d _ => .refl d

/-- A command in its turn, with what follows it at once, keeps to the memory of the kennel that it acts on. -/
theorem confined_scp {d : Dev} {m code : Nat} {complete : Bool} {f : Scp} {x : Mbx} {r : Req} (keeps : KeepsTo f) (calm : Calm d) (nobody : NobodyWaits d)
    (rows : RowsWhole d) (turn : inTurn d m code = some (x, r)) : Confined (actsOn code x r) d (scp d m code complete f) := by
  have confined : Confined (actsOn code x r) d d := confined_calm calm rows
  simp only [scp, turn]
  split
  · exact confined.within (within_finish ..)
  · exact (keeps d ⟨m, actsOn code x r, x, r⟩ nobody confined).within (within_finish ..)

/-- The commands of the memory, of the tables and of the tasks: what each runs, on which kennel, and that it keeps to it. -/
theorem keepsTo_scpOf {i : Instr} {m : MbxId} {code : Nat} {complete : Bool} {f : Scp} (command : scpOf i = some (m, code, complete, f)) (work : 0x40 ≤ code) :
    (∀ s, exec i s = run (fun d => scp d m.toNat code complete f) s) ∧ (∀ x r, actsOn code x r = x.kennel) ∧ KeepsTo f := by
  unfold scpOf at command
  split at command <;> cases command
  iterate 23 exact absurd work (by decide)
  all_goals refine ⟨fun _ => rfl, fun _ _ => rfl, ?_⟩
  exacts [keepsTo_map, keepsTo_unmap, keepsTo_memWrite _, keepsTo_memRead _, keepsTo_migrate, keepsTo_hqSet, keepsTo_hqPush, keepsTo_hqFlush, keepsTo_litterSet,
    keepsTo_treeSet, keepsTo_slotArm _, keepsTo_slotDisarm, keepsTo_scalarSet, keepsTo_taskCreate, keepsTo_taskStart, keepsTo_taskStop, keepsTo_taskAbort,
    keepsTo_taskDestroy, keepsTo_taskStatus, keepsTo_batchPut _, keepsTo_schedSet _, keepsTo_freezeSet _, keepsTo_taskStandby, keepsTo_timeGet]

end Sys2Proof.Machine

namespace Sys2Proof.Proofs

open Sys2Proof.Machine

/-- Settles O57: each of the commands has its own effect on its kennel's memory alone, and so does what firmware does on the reports that it makes. -/
theorem kennelMemoryIsolated : Obligations.KennelMemoryIsolated := by
  intro i s t m code complete f x r command work served nobody rows ran j other
  obtain ⟨runs, own, keeps⟩ := keepsTo_scpOf command work
  obtain ⟨awake, turn⟩ := served
  have confined := confined_scp (complete := complete) keeps awake.2 nobody rows turn
  rw [runs, run_settles awake rfl] at ran
  cases ran
  exact confined.settle.memory j (own x r ▸ other)

end Sys2Proof.Proofs

namespace Sys2Proof.Machine

/-! ### The pages that a command names (R349, R379) -/

theorem mem_pagesAsked {z : Ctx} {pg : Nat} : pg ∈ pagesAsked z ↔ z.r.p0.toNat / pageBytes ≤ pg ∧ pg < z.r.p0.toNat / pageBytes + z.r.p1.toNat := by
  simp only [pagesAsked, List.mem_map, List.mem_range, pageFirst, pageCount]
  constructor
  · rintro ⟨i, within, rfl⟩
    omega
  · rintro ⟨low, high⟩
    exact ⟨pg - z.r.p0.toNat / pageBytes, by omega, by omega⟩

theorem pageArgs_none {z : Ctx} (whole : z.r.p0.toNat % pageBytes = 0) (some' : 0 < z.r.p1.toNat) (fits : z.r.p0.toNat / pageBytes + z.r.p1.toNat ≤ 8388608) :
    pageArgs z = none := by
  have aligned : (z.r.p0.toNat % pageBytes != 0) = false := by simp [whole]
  have counted : (pageCount z == 0 || decide (pageFirst z + pageCount z > 8388608)) = false := by
    rw [Bool.or_eq_false_iff, beq_eq_false_iff_ne, decide_eq_false_iff_not, pageCount, pageFirst]
    omega
  rw [pageArgs, check_none aligned, check_none counted]
  rfl

/-! ### Pages are mapped (R212, R219, R379) -/

theorem leastFree_le (l : List Nat) : leastFree l ≤ l.length := by
  unfold leastFree
  cases found : (List.range (l.length + 1)).find? (fun i => !l.contains i) with
  | none => exact Nat.zero_le _
  | some i => exact Nat.le_of_lt_succ (List.mem_range.1 (List.mem_of_find?_eq_some found))

/-- The PTE that MAP writes. -/
def mapPte (k home pid : Nat) (attrs : DWord) : DWord := putB 64 63 true ||| (attrs &&& mask 64 62 41) ||| put 64 35 k ||| put 64 22 home ||| put 64 0 pid

theorem fld_and_mask_below {n hi lo h l : Nat} (a : BitVec n) (below : hi < l) : fld (a &&& mask n h l) hi lo = 0 := by
  refine Nat.eq_of_testBit_eq fun i => ?_
  have out : i < hi + 1 - lo → (a &&& put n l (2 ^ (h + 1 - l) - 1)).toNat.testBit (lo + i) = false := fun inside => by
    rw [BitVec.testBit_toNat, BitVec.getLsbD_and, getLsbD_put]
    simp
    omega
  simpa [fld, mask, put, Nat.testBit_mod_two_pow, Nat.testBit_shiftRight] using out

/-- A page as MAP leaves it: present, of its kennel, at its home, and ZERO. -/
structure FreshPage (k home : Nat) (p : Page) : Prop where
  v : p.v = true
  owner : p.owner = k
  home : p.home = home
  st : p.st = .zero

theorem freshPage_mapPte {k home pid : Nat} (attrs : DWord) (a b : Nat) (kennel : k < 64) (die : home < 4) (record : pid < 4194304) :
    FreshPage k home { pte := mapPte k home pid attrs, lastAccess := a, lastWrite := b } where
  v := by simp [Page.v, mapPte, bit_or, bit_putB]
  owner := by
    have valid : fld (putB 64 63 true) 40 35 = 0 := by decide
    have places : fld (put 64 22 home) 40 35 = 0 := fld_put_below (die.trans (by decide)) (by decide)
    have names : fld (put 64 0 pid) 40 35 = 0 := fld_put_below (record.trans (by decide)) (by decide)
    simp [Page.owner, mapPte, fld_or, valid, places, names, fld_and_mask_below, fld_put_self (n := 64) (hi := 40) (lo := 35) (by decide) kennel (by decide)]
  home := by
    have valid : fld (putB 64 63 true) 23 22 = 0 := by decide
    have owns : fld (put 64 35 k) 23 22 = 0 := fld_put_above (by decide)
    have names : fld (put 64 0 pid) 23 22 = 0 := fld_put_below record (by decide)
    simp [Page.home, mapPte, fld_or, valid, owns, names, fld_and_mask_below, fld_put_self (n := 64) (hi := 23) (lo := 22) (by decide) die (by decide)]
  st := rfl

/-- One page is mapped: its entry is written, and its record taken at its home. -/
theorem mapPage_frame (d : Dev) (k pg home : Nat) (attrs : DWord) : ∃ ds, mapPage d k pg home attrs =
    { modMdie d home (fun x => { x with records := x.records ++ [leastFree (mdie d home).records] }) with
      dirs := ds
      pages := Tbl.set {} d.pages (pageKey k pg) { pte := mapPte k home (leastFree (mdie d home).records) attrs, lastAccess := d.eclk, lastWrite := d.eclk } } := by
  unfold mapPage
  extract_lets dir e pid f pte
  have tables : ∃ ds, e = { d with dirs := ds } := iteInduction (motive := fun e : Dev => ∃ ds, e = { d with dirs := ds }) (fun _ => ⟨_, rfl⟩) fun _ => ⟨_, rfl⟩
  obtain ⟨ds, frame⟩ := tables
  simp only [f, pte, pid, frame]
  exact ⟨ds, rfl⟩

theorem pageKey_inj {k a b : Nat} : pageKey k a = pageKey k b ↔ a = b := Nat.add_left_cancel_iff

/-- Pages of kennel k have been mapped, each ZERO at its home M-die. -/
structure Mapped (k : Nat) (home : Nat → Nat) (pgs : List Nat) (d e : Dev) : Prop where
  frame : e = { d with pages := e.pages, dirs := e.dirs, mdies := e.mdies }
  fresh : ∀ pg ∈ pgs, FreshPage k (home pg) (page e k pg)
  others : ∀ j, (∀ pg ∈ pgs, j ≠ pageKey k pg) → Tbl.get {} e.pages j = Tbl.get {} d.pages j

/-- R212, R219: pages are mapped one after another where their homes have records for them. -/
theorem mapped_each {k : Nat} {home : Nat → Nat} (attrs : DWord) (kennel : k < 64) (dies : ∀ pg, home pg < 4) (pgs : List Nat) {d : Dev}
    (room : ∀ m < 4, (mdie d m).records.length + (pgs.filter (fun pg => home pg == m)).length ≤ 4194304) :
    Mapped k home pgs d (each d pgs fun d pg => mapPage d k pg (home pg) attrs) := by
  induction pgs generalizing d with
  | nil => exact ⟨rfl, by simp, fun _ _ => rfl⟩
  | cons pg pgs ih =>
    obtain ⟨ds, first⟩ := mapPage_frame d k pg (home pg) attrs
    have record : leastFree (mdie d (home pg)).records < 4194304 := by
      have taken := room (home pg) (dies pg)
      simp only [List.filter_cons, beq_self_eq_true, if_true, List.length_cons] at taken
      exact (leastFree_le _).trans_lt (by omega)
    have entry := freshPage_mapPte attrs d.eclk d.eclk kennel (dies pg) record
    generalize written : mapPage d k pg (home pg) attrs = e at first
    have left : ∀ m < 4, (mdie e m).records.length + (pgs.filter (fun pg => home pg == m)).length ≤ 4194304 := by
      intro m die
      have bound := room m die
      have same : mdie e m = mdie (modMdie d (home pg) (fun x => { x with records := x.records ++ [leastFree (mdie d (home pg)).records] })) m := by rw [first]; rfl
      rw [same]
      by_cases here : m = home pg
      · subst here
        simp only [List.filter_cons, beq_self_eq_true, if_true, List.length_cons] at bound
        rw [mdie_modMdie]
        simp only [List.length_append, List.length_singleton]
        omega
      · rw [mdie_modMdie_other _ _ _ _ here]
        have apart : (home pg == m) = false := by simpa using Ne.symm here
        simpa only [List.filter_cons, apart, Bool.false_eq_true, if_false] using bound
    have rest := ih left
    have pages (j : Nat) : Tbl.get {} e.pages j = if j = pageKey k pg then { pte := mapPte k (home pg) (leastFree (mdie d (home pg)).records) attrs, lastAccess := d.eclk, lastWrite := d.eclk }
        else Tbl.get {} d.pages j := by
      rw [first]
      exact Tbl.get_set ..
    have run : each d (pg :: pgs) (fun d pg => mapPage d k pg (home pg) attrs) = each e pgs (fun d pg => mapPage d k pg (home pg) attrs) := by rw [← written]; rfl
    rw [run]
    refine ⟨?_, fun q inside => ?_, fun j apart => ?_⟩
    · rw [rest.frame, first]
      rfl
    · by_cases again : q ∈ pgs
      · exact rest.fresh q again
      · obtain rfl : q = pg := (List.mem_cons.1 inside).resolve_right again
        have kept := rest.others (pageKey k q) fun r later => fun same => again (pageKey_inj.1 same ▸ later)
        rw [page, kept, pages, if_pos rfl]
        exact entry
    · rw [rest.others j fun r later => apart r (.tail _ later), pages, if_neg (apart pg (.head _))]

/-- R212, R214, R219, R379. -/
theorem pagesMap : Claim.PagesMap := by
  intro m s x r state k z first n whole some' fits kennel asked
  have args : pageArgs z = none := pageArgs_none whole some' fits
  refine ⟨fun served format unmapped quota records leaves => ?_, fun served present nobody => ?_⟩
  · have maps := mapped_each (home := homeFor z) r.p2 kennel (fun pg => ?_) (pagesAsked z) (d := s.d) fun i die => ?_
    · have field : mapCmd.field s.d z = none := by
        have known : mapFormat z = false := by simpa [mapFormat] using format
        exact (congrArg (Option.or · _) (check_none known)).trans args
      have late : mapCmd.late s.d z = none := by
        refine firstSome_checks_none _ (List.forall_mem_cons.2 ⟨?_, List.forall_mem_singleton.2 ?_⟩)
        · refine List.any_eq_false.2 fun pg inside => ?_
          rw [unmapped pg (mem_pagesAsked.1 inside)]
          decide
        · have admitted : within (pagesOf s.d k) n (Machine.kennel s.d k).quota.pages = true := by simp [within, quota]
          simp only [Bool.or_eq_false_iff, Bool.not_eq_false', decide_eq_false_iff_not, Nat.not_lt]
          exact ⟨⟨admitted, records⟩, leaves⟩
      refine ⟨_, served_answers (cmd := mapCmd) served rfl rfl state rfl field late rfl ?_, maps.frame, fun pg inside => ?_, fun j apart => ?_⟩
      · rw [maps.frame]
        exact served.1.2.of_eq ⟨rfl, rfl⟩ rfl
      · have fresh := maps.fresh pg (mem_pagesAsked.2 inside)
        exact ⟨fresh.v, fresh.owner, fresh.st, fresh.home⟩
      · exact maps.others j fun pg inside => apart pg (mem_pagesAsked.1 inside)
    · exact iteInduction (motive := (· < 4)) (fun _ => fld_lt r.p2 1 0) fun _ => Nat.mod_lt _ (by decide)
    · have short := List.any_eq_false.1 records i (List.mem_range.2 die)
      simpa using short
  · have unmaps := unmapped_each k (pagesAsked z) nobody
    have late : unmapCmd.late s.d z = none := by
      refine firstSome_checks_none _ (List.forall_mem_cons.2 ⟨?_, List.forall_mem_singleton.2 ?_⟩)
      · refine List.any_eq_false.2 fun pg inside => ?_
        rw [(present pg (mem_pagesAsked.1 inside)).1]
        decide
      · refine List.any_eq_false.2 fun pg inside => ?_
        rw [(present pg (mem_pagesAsked.1 inside)).2]
        decide
    have acts := served_acts (cmd := unmapCmd) served rfl rfl state args late rfl
    refine ⟨_, run_settles served.1 acts, fun pg inside => ⟨?_, fun a within => ?_⟩, fun j apart => ?_, fun a out => ?_, unmaps.others, ?_, fun t inside => ?_⟩
    · rw [page, unmaps.pages, if_pos ⟨pg, mem_pagesAsked.2 inside, rfl⟩]
    · have place : (pg * pageBytes + a) / pageBytes = pg := by
        unfold pageBytes at within ⊢
        omega
      rw [unmaps.bytes, if_pos ⟨pg, mem_pagesAsked.2 inside, place⟩]
    · rw [unmaps.pages, if_neg]
      rintro ⟨pg, inside, here⟩
      exact apart pg (mem_pagesAsked.1 inside) here
    · rw [unmaps.bytes, if_neg]
      rintro ⟨pg, inside, rfl⟩
      obtain ⟨low, high⟩ := mem_pagesAsked.1 inside
      rcases out with before | after
      · exact absurd (Nat.div_lt_of_lt_mul (Nat.mul_comm first pageBytes ▸ before)) (Nat.not_lt.2 low)
      · exact absurd ((Nat.le_div_iff_mul_le (by decide)).2 after) (Nat.not_le.2 high)
    · rw [unmaps.frame]
    · exact (unmaps.told t inside).resolve_right fun old => by rw [served.1.2.1.1] at old; cases old

end Sys2Proof.Machine

namespace Sys2Proof.Machine

/-! ### MEM_WRITE (R211, R219, R238, R349) -/

/-- An access within one page of a mapped address stays in the address space. -/
theorem access_fits {d : Dev} {k a n : Nat} (mapped' : mapped d k a = true) (inside : a % pageBytes + n ≤ pageBytes) : a + n ≤ 2 ^ 44 := by
  have low : a < 2 ^ 44 := by
    simp only [mapped, Bool.and_eq_true, decide_eq_true_eq] at mapped'
    exact mapped'.1.1.1
  unfold pageBytes at inside
  omega

/-- The checks of an access within one page are those of that page. -/
theorem accessCheck_none {d : Dev} {k a n : Nat} {ok : Dev → Nat → Nat → Bool} (fits : a + n ≤ 2 ^ 44) (some' : 0 < n) (inside : a % pageBytes + n ≤ pageBytes)
    (allowed : ok d k (a / pageBytes * pageBytes) = true) : accessCheck d k a n ok = none := by
  have one : pagesOfRange a n = [a / pageBytes] := by
    have single : ceilDiv (a % pageBytes + n) pageBytes = 1 := by
      unfold ceilDiv
      unfold pageBytes at inside ⊢
      omega
    simp [pagesOfRange, single]
  rw [accessCheck, one, check_none (by simpa using fits), check_none (by simp [allowed])]
  rfl

theorem page_base (a : Nat) : a / pageBytes * pageBytes / pageBytes = a / pageBytes := Nat.mul_div_cancel _ (by decide)

theorem mapped_base {d : Dev} {k a : Nat} (mapped' : mapped d k a = true) : mapped d k (a / pageBytes * pageBytes) = true := by
  simp only [mapped, dirOf, page_base, Bool.and_eq_true, decide_eq_true_eq] at mapped' ⊢
  exact ⟨⟨⟨(Nat.div_mul_le_self a pageBytes).trans_lt mapped'.1.1.1, mapped'.1.1.2⟩, mapped'.1.2⟩, mapped'.2⟩

theorem canWrite_base {d : Dev} {k a : Nat} (writes : canWrite d k a = true) : canWrite d k (a / pageBytes * pageBytes) = true := by
  simp only [canWrite, page_base, Bool.and_eq_true] at writes ⊢
  exact ⟨mapped_base writes.1, writes.2⟩

theorem canRead_base {d : Dev} {k a : Nat} (reads : canRead d k a = true) : canRead d k (a / pageBytes * pageBytes) = true := by
  simp only [canRead, page_base, Bool.and_eq_true] at reads ⊢
  exact ⟨mapped_base reads.1, reads.2⟩

/-- An input payload is no longer than `PLEN` says. -/
theorem payBytes_length (z : Ctx) (p : Payload) : (payBytes z p).length ≤ z.r.plen * 64 := by
  unfold payBytes
  split <;> exact List.length_take_le ..

/-- A write within a near page that holds no poison stores its bytes, and is done. -/
theorem memWriteAll_near {d : Dev} {k addr : Nat} (bs : List Byte) (w : Writer) (inside : addr % pageBytes + bs.length ≤ pageBytes) (table : tableBad d k addr = false)
    (writes : canWrite d k addr = true) (near : (page d k (addr / pageBytes)).st = .near) (sound : (page d k (addr / pageBytes)).poison = []) :
    ∃ ms ps ses mm, memWriteAll d k addr bs w .clean = ({ d with mdies := ms, pages := ps, ses := ses, mem := mm }, .done)
      ∧ Tbl.get [] mm k = Mem.write (kmem d k) addr bs ∧ ∀ j, j ≠ k → Tbl.get [] mm j = kmem d j := by
  cases bs with
  | nil => exact ⟨_, _, _, _, rfl, rfl, fun _ _ => rfl⟩
  | cons b bs =>
    obtain ⟨ms, ps, ses, stored⟩ := applyWrite_sound (bs := b :: bs) (fun l _ => by rw [sound]; exact List.not_mem_nil)
    exact ⟨ms, ps, ses, _, by rw [memWriteAll_one (by simp) inside, memWrite_near _ w table writes near, stored], Tbl.get_set_self .., fun j other => Tbl.get_set_other _ _ _ _ _ other⟩

/-! ### MEM_READ (R211, R219, R238, R349) -/

theorem Mem.read_add (m : Mem) (a i j : Nat) : Mem.read m a (i + j) = Mem.read m a i ++ Mem.read m (a + i) j := by
  simp only [Mem.read, List.range_add, List.map_append, List.map_map, Function.comp_def, Nat.add_assoc]

/-- Where no write of the kennel waits, a read sees what its tier or the cache holds. -/
theorem seeWaits_none {d : Dev} {k : Nat} (none' : ∀ w ∈ d.waits, w.kennel ≠ k) (addr : Nat) (bs : List Byte) : seeWaits d k addr bs = bs := by
  unfold seeWaits
  generalize d.waits = ws at none'
  induction ws with
  | nil => rfl
  | cons w r ih =>
    rw [List.foldl_cons, if_neg (none' w (.head r))]
    exact ih fun v later => none' v (.tail w later)

/-- A part of a read comes from its cached line, or from its tier. -/
def peekPart (d : Dev) (k m : Nat) (r : MemClass × List Byte) (z : Nat × Nat × Nat) : MemClass × List Byte :=
  match cached d m k z.1 with
  | some l => (r.1, r.2 ++ (l.bytes.drop (z.2.1 % 256)).take z.2.2)
  | none => let (c, bs) := tierBytes d k z.2.1 z.2.2; (if r.1 = .ok then c else r.1, r.2 ++ bs)

theorem peek_eq (d : Dev) (k a n : Nat) : peek d k a n =
    (((cacheParts a n).foldl (peekPart d k (page d k (a / pageBytes)).home) (.ok, [])).1,
      seeWaits d k a ((cacheParts a n).foldl (peekPart d k (page d k (a / pageBytes)).home) (.ok, [])).2) := rfl

/-- A read within a near page that holds no poison and has no cached line finds the bytes of memory. -/
theorem peek_near {d : Dev} {k a n : Nat} (some' : 0 < n) (inside : a % pageBytes + n ≤ pageBytes) (near : (page d k (a / pageBytes)).st = .near)
    (sound : (page d k (a / pageBytes)).poison = []) (waits : ∀ w ∈ d.waits, w.kennel ≠ k) (uncached : ∀ l, cached d (page d k (a / pageBytes)).home k l = none) :
    peek d k a n = (.ok, Mem.read (kmem d k) a n) := by
  have tier {b l : Nat} (low : a ≤ b) (high : b < a + n) : tierBytes d k b l = (.ok, Mem.read (kmem d k) b l) := by
    have here : b / pageBytes = a / pageBytes := by
      unfold pageBytes at inside ⊢
      omega
    simp [tierBytes, here, near, sound]
  have parts (c : Nat) (few : c ≤ ceilDiv (a % 256 + n) 256) :
      ((List.range c).map fun i => (a / 256 + i, max a (256 * (a / 256 + i)), min (a + n) (256 * (a / 256 + i) + 256) - max a (256 * (a / 256 + i)))).foldl
        (peekPart d k (page d k (a / pageBytes)).home) (.ok, []) = (.ok, Mem.read (kmem d k) a (min (a + n) (max a (256 * (a / 256 + c))) - a)) := by
    induction c with
    | zero =>
      have none' : min (a + n) (max a (256 * (a / 256 + 0))) - a = 0 := by omega
      rw [none']
      rfl
    | succ c ih =>
      have within : 256 * c < a % 256 + n := by
        unfold ceilDiv at few
        omega
      have first : a + (min (a + n) (max a (256 * (a / 256 + c))) - a) = max a (256 * (a / 256 + c)) := by omega
      have next' : min (a + n) (max a (256 * (a / 256 + (c + 1)))) - a
          = (min (a + n) (max a (256 * (a / 256 + c))) - a) + (min (a + n) (256 * (a / 256 + c) + 256) - max a (256 * (a / 256 + c))) := by omega
      rw [List.range_succ, List.map_append, List.foldl_append, ih (by omega), List.map_singleton, List.foldl_cons, List.foldl_nil, next', Mem.read_add, first]
      have found := tier (b := max a (256 * (a / 256 + c))) (l := min (a + n) (256 * (a / 256 + c) + 256) - max a (256 * (a / 256 + c))) (by omega) (by omega)
      simp only [peekPart, uncached, found, if_true]
  have all := parts _ le_rfl
  have ends : min (a + n) (max a (256 * (a / 256 + ceilDiv (a % 256 + n) 256))) - a = n := by
    unfold ceilDiv
    omega
  rw [ends] at all
  rw [peek_eq, cacheParts, all, seeWaits_none waits]

theorem memReadAll_one {addr n : Nat} (some' : 0 < n) (inside : addr % pageBytes + n ≤ pageBytes) (d : Dev) (k : Nat) (ecc : Ecc) :
    memReadAll d k addr n ecc = memRead d k addr n ecc := by
  have whole : (zeros n).length = n := List.length_replicate
  have one := cutPages_one (bs := zeros n) (by rwa [whole]) (by rwa [whole]) (n / pageBytes)
  simp only [memReadAll, one, List.zipIdx_cons, List.zipIdx_nil, List.foldl_cons, List.foldl_nil, whole, if_true, List.nil_append]

/-- R238, R349. -/
theorem memoryCommands : Claim.MemoryCommands := by
  intro m s x r pl state k a p bs n some' inside sound table
  have length : r.plen * 64 = n := Nat.mul_comm ..
  refine ⟨fun served aligned writes near => ?_, fun served reads tier waits uncached => ?_⟩
  · have short : bs.length ≤ n := length ▸ payBytes_length ⟨m.toNat, k, x, r⟩ pl
    obtain ⟨ms, ps, ses, mm, stored, own, others⟩ := memWriteAll_near bs .firmware (by omega) table writes near sound
    have field : (memWriteCmd pl).field s.d ⟨m.toNat, k, x, r⟩ = none := by
      have allowed := accessCheck_none (access_fits (Bool.and_eq_true_iff.1 writes).1 inside) some' inside (ok := canWrite) (canWrite_base writes)
      have lines : check (fld r.p0 5 0 != 0) .format = none := check_none (by simp [aligned])
      rw [← length] at allowed
      exact (congrArg₂ Option.or lines allowed).trans rfl
    have act : (memWriteCmd pl).act s.d ⟨m.toNat, k, x, r⟩ = partial' pl bs.length { s.d with mdies := ms, pages := ps, ses := ses, mem := mm } :=
      congrArg (writeIn pl bs) stored
    refine ⟨_, served_answers (cmd := memWriteCmd pl) served rfl rfl state rfl field rfl act (served.1.2.of_eq ⟨rfl, rfl⟩ rfl), fun i place => ?_, fun c out => ?_, others, rfl⟩
    · rw [show kmem { s.d with mdies := ms, pages := ps, ses := ses, mem := mm } k = _ from own, Mem.byte_write_inside _ _ _ i place]
      simp [place]
    · rw [show kmem { s.d with mdies := ms, pages := ps, ses := ses, mem := mm } k = _ from own, Mem.byte_write_outside _ _ _ _ out]
  · have field : (memReadCmd .clean).field s.d ⟨m.toNat, k, x, r⟩ = none := by
      have allowed := accessCheck_none (access_fits (Bool.and_eq_true_iff.1 reads).1 inside) some' inside (ok := canRead) (canRead_base reads)
      rw [← length] at allowed
      exact allowed
    obtain ⟨ms, ps, reading⟩ : ∃ ms ps, memReadAll s.d k a n .clean = ({ s.d with mdies := ms, pages := ps }, .ok, if p.st = .near then Mem.read (kmem s.d k) a n else List.replicate n 0) := by
      rw [memReadAll_one some' inside]
      by_cases near : p.st = .near
      · have finds := peek_near some' inside near sound waits uncached
        obtain ⟨⟨ms, ps, only⟩, -⟩ := accessOnly_accessed true s.d k a n
        refine ⟨ms, ps, ?_⟩
        rw [memRead, memAccess_ok true n table reads (near ▸ by decide) (near ▸ by decide) finds, only, if_pos near]
      · have zero := tier.resolve_left near
        refine ⟨s.d.mdies, (touched s.d k a).pages, ?_⟩
        rw [memRead, memAccess_zero true n table reads zero, seeWaits_none waits, if_neg near]
        rfl
    have act : (memReadCmd .clean).act s.d ⟨m.toNat, k, x, r⟩ =
        { d := putPayload { s.d with mdies := ms, pages := ps } ⟨m.toNat, k, x, r⟩ (if p.st = .near then Mem.read (kmem s.d k) a n else List.replicate n 0) } := by
      simp only [memReadCmd, length]
      rw [reading]
    exact ⟨_, served_answers (cmd := memReadCmd .clean) served rfl rfl state rfl field rfl act (served.1.2.of_eq ⟨rfl, rfl⟩ rfl), rfl, rfl⟩

/-! ### MIGRATE (R224) -/

theorem pending_requestMig (d : Dev) (m key prio : Nat) (up : Bool) : pending (mdie (requestMig d m key prio up) m) key = true := by
  rw [requestMig, mdie_modMdie]
  split
  next asked =>
    obtain ⟨g, inside, same⟩ := List.any_eq_true.1 asked
    exact List.any_eq_true.2 ⟨g, inside, (Bool.and_eq_true_iff.1 same).1⟩
  next => simp [pending]

/-- A page that is asked for stays so. -/
theorem pending_kept {d : Dev} {m key : Nat} (asked : pending (mdie d m) key = true) (m' key' prio : Nat) (up : Bool) :
    pending (mdie (requestMig d m' key' prio up) m) key = true := by
  by_cases same : key = key' ∧ m = m'
  · obtain ⟨rfl, rfl⟩ := same
    exact pending_requestMig ..
  · by_cases here : m = m'
    · subst here
      rw [requestMig, mdie_modMdie]
      split
      · exact asked
      · obtain ⟨g, inside, named⟩ := List.any_eq_true.1 asked
        have other : (g.key != key') = true := by
          have : g.key = key := by simpa using named
          simpa [this] using same
        exact List.any_eq_true.2 ⟨g, List.mem_append_left _ (List.mem_filter.2 ⟨inside, other⟩), named⟩
    · rw [requestMig, mdie_modMdie_other _ _ _ _ here]
      exact asked

/-- A page has been asked for at its home, if it is in the tier that the request leaves and not pinned there. -/
def Asked (d e : Dev) (k pg : Nat) (down : Bool) : Prop :=
  (down = true → (page d k pg).st = .near → (page d k pg).policy ≠ 1 → pending (mdie e (page d k pg).home) (pageKey k pg) = true) ∧
  (down = false → (page d k pg).st = .far → (page d k pg).policy ≠ 2 → pending (mdie e (page d k pg).home) (pageKey k pg) = true)

theorem asked_askMigrate (d : Dev) (k pg : Nat) (down : Bool) : Asked d (askMigrate d k pg down) k pg down := by
  refine ⟨fun low near free => ?_, fun high far free => ?_⟩
  · simp [askMigrate, low, near, free, pending_requestMig]
  · simp [askMigrate, high, far, free, pending_requestMig]

theorem Asked.kept {d e : Dev} {k pg : Nat} {down : Bool} (asked : Asked d e k pg down) (q : Nat) (down' : Bool) : Asked d (askMigrate e k q down') k pg down := by
  have stays {m key : Nat} (before : pending (mdie e m) key = true) : pending (mdie (askMigrate e k q down') m) key = true := by
    unfold askMigrate
    extract_lets p
    exact iteInduction (motive := fun f => pending (mdie f m) key = true)
      (fun _ => iteInduction (motive := fun f => pending (mdie f m) key = true) (fun _ => pending_kept before ..) fun _ => before)
      fun _ => iteInduction (motive := fun f => pending (mdie f m) key = true) (fun _ => pending_kept before ..) fun _ => before
  exact ⟨fun low near free => stays (asked.1 low near free), fun high far free => stays (asked.2 high far free)⟩

theorem asked_each {k : Nat} (down : Bool) (pgs : List Nat) (d : Dev) (pg : Nat) (inside : pg ∈ pgs) : Asked d (each d pgs fun d pg => askMigrate d k pg down) k pg down := by
  induction pgs generalizing d with
  | nil => cases inside
  | cons q pgs ih =>
    have same : ∀ e, MdiesOnly d e → ∀ f, Asked e f k pg down → Asked d f k pg down := by
      rintro e ⟨⟨ms, rfl⟩, -⟩ f asked
      exact asked
    by_cases later : pg ∈ pgs
    · exact same _ (mdiesOnly_askMigrate d k q down) _ (ih _ later)
    · obtain rfl : pg = q := (List.mem_cons.1 inside).resolve_right later
      exact foldl_keeps (P := fun e => Asked d e k pg down) (fun e q asked => asked.kept q down) pgs (asked_askMigrate d k pg down)

/-- R224. -/
theorem migrateAsks : Claim.MigrateAsks := by
  intro m s x r served state k first whole some' fits present
  have args : pageArgs ⟨m.toNat, k, x, r⟩ = none := pageArgs_none whole some' fits
  have field : migrateCmd.field s.d ⟨m.toNat, k, x, r⟩ = none := by
    have mapped' : (pagesAsked ⟨m.toNat, k, x, r⟩).any (fun pg => !(page s.d k pg).v) = false := by
      refine List.any_eq_false.2 fun pg inside => ?_
      obtain ⟨low, high⟩ := mem_pagesAsked.1 inside
      rw [present pg low high]
      decide
    exact (congrArg₂ Option.or args (check_none mapped')).trans rfl
  obtain ⟨⟨ms, only⟩, -⟩ : MdiesOnly s.d (each s.d (pagesAsked ⟨m.toNat, k, x, r⟩) fun d pg => askMigrate d k pg (bit r.p2 0)) := .each (fun _ _ => mdiesOnly_askMigrate ..) _ _
  refine ⟨_, served_answers (cmd := migrateCmd) served rfl rfl state rfl field rfl rfl ?_, ?_, fun pg low high => ?_⟩
  · exact served.1.2.of_eq ⟨by rw [only], by rw [only]⟩ (by rw [only])
  · rw [only]
  · exact asked_each (bit r.p2 0) _ s.d pg (mem_pagesAsked.2 ⟨low, high⟩)

end Sys2Proof.Machine

namespace Sys2Proof.Proofs

open Sys2Proof.Machine

/-- Settles O42, one command after another, from what mapping, unmapping, a write, a read and a request for a migration each do to one page. -/
theorem memoryCommandsAct : Obligations.MemoryCommandsAct := ⟨pagesMap, memoryCommands, migrateAsks⟩

end Sys2Proof.Proofs

namespace Sys2Proof.Machine

/-! ### The clock of the beats (R322) -/

theorem timeNow_beatEclk {d : Dev} {b : Nat} (fits : d.time.origin.toNat + b * beatPeriod d < 2 ^ 64) (before : d.timeOff ≤ d.time.origin.toNat) :
    timeNow { d with eclk := beatEclk d b } = d.time.origin.toNat + b * beatPeriod d := by
  obtain ⟨x, ahead⟩ : ∃ x : Nat, ((d.time.origin.toNat + b * beatPeriod d : Nat) : Int) = d.timeOff + x := ⟨_, (add_eq_of_eq_sub' (Int.toNat_of_nonneg (by omega))).symm⟩
  have clock : beatEclk d b = (3 * x + 1) / 2 := by
    rw [beatEclk, ahead]
    omega
  have whole : 2 * ((3 * x + 1) / 2) / 3 = x := by omega
  rw [timeNow, clock, whole, ← ahead]
  omega

/-- R322. -/
theorem boundaryIsBeat : Claim.BoundaryIsBeat := by
  intro d b period fits before
  have now := timeNow_beatEclk fits before
  rw [beatNow, now, Nat.add_sub_cancel_left]
  exact Nat.mul_div_cancel _ period

/-- The next boundary is ahead. -/
theorem lt_nextBoundary {d : Dev} (period : 0 < beatPeriod d) : d.eclk < nextBoundary d := by
  unfold nextBoundary
  split <;> omega

/-! ### What a beat boundary changes (R235, R324, R333) -/

/-- Lags, barks, hints and requests for migrations, the 1PPS output and what is reported: all else is the same. -/
structure AtBoundary (d e : Dev) : Prop where
  frame : e = { d with pairs := e.pairs, ses := e.ses, tasks := e.tasks, time := e.time, ports := e.ports, mdies := e.mdies, reports := e.reports }
  time : e.time = { d.time with lagAbortCnt := e.time.lagAbortCnt, ppsOut := e.time.ppsOut }
  pairs : ∀ i, pair e i = { pair d i with seq := { (pair d i).seq with lag := (pair e i).seq.lag }, ve := { (pair d i).ve with lag := (pair e i).ve.lag } }
  slots : ∀ n i, sslot e n i = { sslot d n i with lag := (sslot e n i).lag }
  tasks : ∀ k t, task d k = some t → ∃ t', task e k = some t' ∧ t' = { t with lag := t'.lag, oldBudget := t'.oldBudget }
  mdies : ∀ m, mdie e m = { mdie d m with hints := (mdie e m).hints, migs := (mdie e m).migs }
  quiet : Quiet d → Quiet e

theorem AtBoundary.refl (d : Dev) : AtBoundary d d := ⟨rfl, rfl, fun _ => rfl, fun _ _ => rfl, fun _ t held => ⟨t, held, rfl⟩, fun _ => rfl, id⟩

theorem AtBoundary.trans {a b c : Dev} (first : AtBoundary a b) (second : AtBoundary b c) : AtBoundary a c where
  frame := by rw [second.frame, first.frame]
  time := by rw [second.time, first.time]
  pairs i := by rw [second.pairs i, first.pairs i]
  slots n i := by rw [second.slots n i, first.slots n i]
  tasks k t held := by
    obtain ⟨u, held', same⟩ := first.tasks k t held
    obtain ⟨v, held'', same'⟩ := second.tasks k u held'
    exact ⟨v, held'', by rw [same', same]⟩
  mdies m := by rw [second.mdies m, first.mdies m]
  quiet quiet := second.quiet (first.quiet quiet)

theorem AtBoundary.each {α : Type} {f : Dev → α → Dev} (step : ∀ d x, AtBoundary d (f d x)) (xs : List α) (d : Dev) : AtBoundary d (each d xs f) :=
  foldl_keeps (P := AtBoundary d) (fun e x at' => at'.trans (step e x)) xs (.refl d)

/-- A change of ports and reports. -/
theorem atBoundary_ports (d : Dev) (ps : Tbl Port) (rs : List Report) : AtBoundary d { d with ports := ps, reports := rs } :=
  ⟨rfl, rfl, fun _ => rfl, fun _ _ => rfl, fun _ t held => ⟨t, held, rfl⟩, fun _ => rfl, id⟩

theorem atBoundary_modTime (d : Dev) {f : TimeUnit → TimeUnit} (keeps : f d.time = { d.time with lagAbortCnt := (f d.time).lagAbortCnt, ppsOut := (f d.time).ppsOut }) :
    AtBoundary d (modTime d f) := ⟨rfl, keeps, fun _ => rfl, fun _ _ => rfl, fun _ t held => ⟨t, held, rfl⟩, fun _ => rfl, id⟩

theorem atBoundary_modMdie (d : Dev) (m : Nat) {f : MDie → MDie} (keeps : ∀ x, f x = { x with hints := (f x).hints, migs := (f x).migs }) : AtBoundary d (modMdie d m f) := by
  refine ⟨rfl, rfl, fun _ => rfl, fun _ _ => rfl, fun _ t held => ⟨t, held, rfl⟩, fun i => ?_, id⟩
  by_cases here : i = m
  · subst here
    rw [mdie_modMdie]
    exact keeps _
  · rw [mdie_modMdie_other _ _ _ _ here]

theorem atBoundary_modTask (d : Dev) (k : Nat) {f : Task → Task} (keeps : ∀ t, f t = { t with lag := (f t).lag, oldBudget := (f t).oldBudget }) : AtBoundary d (modTask d k f) := by
  unfold modTask
  split
  next t held =>
    refine ⟨rfl, rfl, fun _ => rfl, fun _ _ => rfl, fun j u held' => ?_, fun _ => rfl, fun quiet z inside u named => ?_⟩
    · by_cases here : j = k
      · subst here
        obtain rfl : t = u := Option.some.inj (held.symm.trans held')
        exact ⟨f t, task_setTask .., keeps t⟩
      · exact ⟨u, (task_setTask_other _ _ _ _ here).trans held', rfl⟩
    · rcases (Tbl.mem_set (d := none) (t := d.tasks) (v := some (f t)) inside) with old | new
      · exact quiet z old u named
      · rw [new] at named
        cases named
        rw [keeps]
        exact quiet (k, some t) (Tbl.mem_of_get held (by simp)) t rfl
  next => exact .refl d

/-- The 1PPS output falls, and nothing else changes. -/
theorem ppsFall_frame (d : Dev) : ∃ out, ppsFall d = { d with time := { d.time with ppsOut := out } } :=
  iteInduction (motive := fun e : Dev => ∃ out, e = { d with time := { d.time with ppsOut := out } }) (fun _ => ⟨false, rfl⟩) fun _ => ⟨d.time.ppsOut, rfl⟩

theorem atBoundary_ppsFall (d : Dev) : AtBoundary d (ppsFall d) :=
  iteInduction (fun _ => atBoundary_modTime d rfl) fun _ => .refl d

theorem atBoundary_unitLags (d : Dev) : AtBoundary d (unitLags d) := by
  refine ⟨rfl, rfl, fun i => ?_, fun n i => ?_, fun _ t held => ⟨t, held, rfl⟩, fun _ => rfl, id⟩
  · unfold pair unitLags
    simp only [Tbl.get_mapAll]
    split
    · rfl
    next absent => rw [Tbl.get_unlisted _ absent]
  · unfold sslot se unitLags
    simp only [Tbl.get_mapAll]
    split
    · rw [Tbl.get_mapAll]
      split
      · rfl
      next absent => rw [Tbl.get_unlisted _ absent]
    next absent => rw [Tbl.get_unlisted _ absent]

theorem atBoundary_taskFault (d : Dev) (k : Nat) (kind : FaultKind) : AtBoundary d (taskFault d k kind) :=
  iteInduction (fun _ => atBoundary_ports d d.ports _) fun _ => .refl d

theorem atBoundary_lagCheck (d : Dev) (k : Nat) : AtBoundary d (lagCheck d k) := by
  unfold lagCheck
  extract_lets budget l e
  have lags : AtBoundary d e := atBoundary_modTask d k fun _ => rfl
  split
  · exact lags
  · refine lags.trans (iteInduction (fun _ => ?_) fun _ => .refl e)
    exact (atBoundary_modTime e (f := fun u => { u with lagAbortCnt := inc u.lagAbortCnt }) rfl).trans (atBoundary_taskFault ..)

theorem atBoundary_sendBarks (d : Dev) (gone : Bool) : AtBoundary d (sendBarks d gone) :=
  iteInduction (fun _ => .refl d) fun _ => AtBoundary.each (fun d _ => atBoundary_ports d _ d.reports) _ d

theorem atBoundary_missBark (d : Dev) (p : Nat) : AtBoundary d (missBark d p) :=
  iteInduction (fun _ => .refl d) fun _ => iteInduction (fun _ => atBoundary_ports d _ _) fun _ => atBoundary_ports d _ d.reports

theorem atBoundary_requestMig (d : Dev) (m key prio : Nat) (up : Bool) : AtBoundary d (requestMig d m key prio up) :=
  atBoundary_modMdie d m fun x => by split <;> rfl

theorem atBoundary_hintPromotions (d : Dev) : AtBoundary d (hintPromotions d) :=
  AtBoundary.each (fun d _ => iteInduction (fun _ => atBoundary_requestMig ..) fun _ => .refl d) _ d

theorem atBoundary_setHint (d : Dev) (t : Nat) (v : DWord) : AtBoundary d (setHint d t v) :=
  iteInduction (fun _ => .refl d) fun _ => AtBoundary.each (fun d m => atBoundary_modMdie d m fun _ => rfl) _ d

theorem atBoundary_hintLists (d : Dev) : AtBoundary d (hintLists d) := by
  refine AtBoundary.each (fun d k => ?_) _ d
  split
  · exact AtBoundary.each (fun _ _ => atBoundary_setHint ..) _ d
  · exact .refl d

/-- The device at its next boundary, before anything else happens there. -/
def movedOn (d : Dev) : Dev := { d with eclk := nextBoundary d }

theorem atBoundary_beatBoundary (d : Dev) : AtBoundary (movedOn d) (beatBoundary d) := by
  have falls := atBoundary_ppsFall (movedOn d)
  refine iteInduction (motive := AtBoundary (movedOn d)) (fun _ => falls) fun _ => ?_
  have lags := (falls.trans (atBoundary_unitLags _)).trans (AtBoundary.each atBoundary_lagCheck (taskKeys (unitLags (ppsFall (movedOn d))) (fun t => t.st.active)) _)
  have barks := (lags.trans (atBoundary_sendBarks _ false)).trans (AtBoundary.each atBoundary_missBark (List.range 16) _)
  exact (barks.trans (atBoundary_hintLists _)).trans (atBoundary_hintPromotions _)

/-- R322, R324, R333, R235. -/
theorem beatBoundaryAdvances : Claim.BeatBoundaryAdvances := by
  intro s awake period
  have at' := atBoundary_beatBoundary s.d
  have clock : (beatBoundary s.d).eclk = nextBoundary s.d := by
    rw [at'.frame]
    rfl
  have delivered : (beatBoundary s.d).delivered = [] := by
    rw [at'.frame]
    exact awake.2.1.2
  refine ⟨beatBoundary s.d, rfl, fun told => settle_calm _ ?_, clock, ?_, ?_, at'.time, at'.pairs, at'.slots, at'.tasks, at'.mdies, fun early => ?_⟩
  · have quiet : Quiet (beatBoundary s.d) := at'.quiet awake.2.quiet
    exact ⟨⟨told, delivered⟩, quietDue_false quiet, parityDue_false quiet⟩
  · rw [clock]
    exact lt_nextBoundary period
  · conv_lhs => rw [at'.frame]
    rw [clock]
    rfl
  · obtain ⟨out, falls⟩ := ppsFall_frame (movedOn s.d)
    have waits : timeNow (ppsFall (movedOn s.d)) < (ppsFall (movedOn s.d)).time.origin.toNat := by
      rw [falls]
      exact early
    have only : beatBoundary s.d = ppsFall (movedOn s.d) := if_pos (Bool.or_eq_true_iff.2 (.inr (decide_eq_true waits)))
    rw [only, falls]
    rfl

end Sys2Proof.Machine

namespace Sys2Proof.Proofs

open Sys2Proof.Machine

/-- Settles O32: each thing done at a boundary changes lags, barks, hints or reports alone, and the clock's rounding hits the beat. -/
theorem beatBoundaries : Obligations.BeatBoundaries := ⟨beatBoundaryAdvances, boundaryIsBeat⟩

end Sys2Proof.Proofs

namespace Sys2Proof.Machine

/-! ### Requests for migrations (R222, R224) -/

/-- Migrations have been asked for, and no running one has been given up: M-dies keep all but their lists of migrations. -/
structure AsksOnly (d e : Dev) : Prop where
  frame : e = { d with mdies := e.mdies }
  rest : ∀ i, mdie e i = { mdie d i with migs := (mdie e i).migs, draining := (mdie e i).draining }
  running : ∀ i, ∀ g ∈ (mdie d i).migs, g.running = true → g ∈ (mdie e i).migs

theorem AsksOnly.refl (d : Dev) : AsksOnly d d := ⟨rfl, fun _ => rfl, fun _ _ inside _ => inside⟩

theorem AsksOnly.trans {a b c : Dev} (first : AsksOnly a b) (second : AsksOnly b c) : AsksOnly a c where
  frame := by rw [second.frame, first.frame]
  rest i := by rw [second.rest i, first.rest i]
  running i g inside runs := second.running i g (first.running i g inside runs) runs

theorem AsksOnly.each {α : Type} {f : Dev → α → Dev} (step : ∀ d x, AsksOnly d (f d x)) (xs : List α) (d : Dev) : AsksOnly d (each d xs f) :=
  foldl_keeps (P := AsksOnly d) (fun e x asks => asks.trans (step e x)) xs (.refl d)

theorem asksOnly_modMdie (d : Dev) (m : Nat) {f : MDie → MDie} (rest : ∀ x, f x = { x with migs := (f x).migs, draining := (f x).draining })
    (running : ∀ x, ∀ g ∈ x.migs, g.running = true → g ∈ (f x).migs) : AsksOnly d (modMdie d m f) := by
  refine ⟨rfl, fun i => ?_, fun i g inside runs => ?_⟩
  · by_cases here : i = m
    · subst here
      rw [mdie_modMdie]
      exact rest _
    · rw [mdie_modMdie_other _ _ _ _ here]
  · by_cases here : i = m
    · subst here
      rw [mdie_modMdie]
      exact running _ g inside runs
    · rw [mdie_modMdie_other _ _ _ _ here]
      exact inside

theorem asksOnly_requestMig (d : Dev) (m key prio : Nat) (up : Bool) : AsksOnly d (requestMig d m key prio up) := by
  refine asksOnly_modMdie d m (fun x => by split <;> rfl) fun x g inside runs => ?_
  split
  · exact inside
  next free =>
    have other : (g.key != key) = true := by
      rw [bne_iff_ne]
      intro same
      exact free (List.any_eq_true.2 ⟨g, inside, by simp [same, runs]⟩)
    exact List.mem_append_left _ (List.mem_filter.2 ⟨inside, other⟩)

theorem asksOnly_watermark (fuel : Nat) (d : Dev) (m : Nat) : AsksOnly d (watermark fuel d m) := by
  induction fuel generalizing d with
  | zero => exact .refl d
  | succ n ih =>
    unfold watermark
    simp only
    split
    · exact .refl d
    · split
      · exact (asksOnly_requestMig ..).trans (ih _)
      · exact .refl d

theorem asksOnly_watermarkCheck (d : Dev) (m : Nat) : AsksOnly d (watermarkCheck d m) := by
  unfold watermarkCheck
  extract_lets free e
  have drains : AsksOnly d e := asksOnly_modMdie d m (fun _ => rfl) fun _ _ inside _ => inside
  exact iteInduction (fun _ => drains.trans (asksOnly_watermark ..)) fun _ => drains

theorem asksOnly_hintPromotions (d : Dev) : AsksOnly d (hintPromotions d) :=
  AsksOnly.each (fun d _ => iteInduction (fun _ => asksOnly_requestMig ..) fun _ => .refl d) _ d

/-! ### Hints (R221, R235) -/

/-- Changing M-dies one after another changes their table alone. -/
theorem each_modMdie (g : Nat → MDie → MDie) (ms : List Nat) (d : Dev) :
    each d ms (fun d m => modMdie d m (g m)) = { d with mdies := ms.foldl (fun t m => Tbl.modify {} t m (g m)) d.mdies } := by
  induction ms generalizing d with
  | nil => rfl
  | cons m r ih => exact (ih (modMdie d m (g m))).trans rfl

/-- A hint entry as it is written on an M-die. -/
def hinted (t : Nat) (v : DWord) (x : MDie) : MDie := { x with hints := Tbl.set 0 x.hints t v }

theorem setHint_eq (d : Dev) {t : Nat} (some' : t ≠ 0) (v : DWord) :
    setHint d t v = { d with mdies := (List.range 4).foldl (fun ms m => Tbl.modify {} ms m (hinted t v)) d.mdies } := by
  rw [setHint, if_neg some']
  exact each_modMdie (fun _ => hinted t v) (List.range 4) d

/-- A hint is what every M-die's table holds, but for entry 0. -/
theorem mdie_setHint (d : Dev) {t : Nat} (some' : t ≠ 0) (v : DWord) (m : Nat) : mdie (setHint d t v) m = if m < 4 then hinted t v (mdie d m) else mdie d m := by
  rw [setHint_eq d some' v, mdie, Tbl.get_foldl_modify _ _ List.nodup_range]
  simp only [List.mem_range, mdie]

theorem hint_hintUpdate (d : Dev) (t : Nat) (v : DWord) (m x : Nat) : hint (hintUpdate d t v) m x = hint (setHint d t v) m x := by
  have kept := (asksOnly_hintPromotions (setHint d t v)).rest m
  rw [hintUpdate, hint, hint, kept]

theorem setHint_frame (d : Dev) (t : Nat) (v : DWord) : ∃ ms, setHint d t v = { d with mdies := ms } := by
  by_cases zero : t = 0
  · exact ⟨d.mdies, by rw [setHint, if_pos zero]⟩
  · exact ⟨_, setHint_eq d zero v⟩

/-- R221, R235. -/
theorem hintsUpdate : Claim.HintsUpdate := by
  intro t v s awake
  obtain ⟨ms, sets⟩ := setHint_frame s.d t.toNat v
  have frame : hintUpdate s.d t.toNat v = { s.d with mdies := (hintUpdate s.d t.toNat v).mdies } := by
    rw [hintUpdate, (asksOnly_hintPromotions _).frame, sets]
  have calm : Calm (hintUpdate s.d t.toNat v) := by
    rw [frame]
    exact awake.2.of_eq ⟨rfl, rfl⟩ rfl
  refine ⟨_, run_becomes awake rfl calm, fun m die => ?_, fun m x other => ?_, frame⟩
  · refine (hint_hintUpdate ..).trans ?_
    by_cases zero : t = 0
    · simp [zero, hint]
    · have some' : t.toNat ≠ 0 := fun same => zero (BitVec.eq_of_toNat_eq same)
      rw [hint, if_neg some', if_neg zero, mdie_setHint _ some', if_pos die, hinted, Tbl.get_set_self]
  · refine (hint_hintUpdate ..).trans ?_
    by_cases zero : t.toNat = 0
    · rw [setHint, if_pos zero]
    · unfold hint
      rw [mdie_setHint _ zero]
      split
      · rfl
      · split
        · rw [hinted, Tbl.get_set_other _ _ _ _ _ other]
        · rfl

/-! ### Waits for a frame (R226) -/

/-- A frame of the M-die has been freed since the wait began. -/
def freedSince (d : Dev) (m : Nat) (w : MemWait) : Bool := match (mdie d m).freedAt with | some t => decide (w.since ≤ t) | none => false

/-- A write of the page has waited out its time. -/
def waitedOut (d : Dev) (k pg : Nat) (w : MemWait) : Bool :=
  waitKey w == pageKey k pg && due d w.since (16 * beatPeriod d * 3 / 2) && !freedSince d (page d k pg).home w

/-- Who waited in vain ends. -/
def endWait (d : Dev) (w : MemWait) : Dev :=
  match w.by' with
  | .stream n s => endDesc d n s .quota
  | _ => taskEnding d w.kennel .quota

/-- The page is no page that waits for a frame, or a frame is at hand. -/
def noFrameWait (d : Dev) (k pg : Nat) : Bool := !((page d k pg).st == .zero || (page d k pg).st == .far) || frameReady d (page d k pg).home k

theorem frameTimeout_eq (d : Dev) (k pg : Nat) : frameTimeout d k pg =
    if noFrameWait d k pg then d else each { d with waits := d.waits.filter (fun w => !waitedOut d k pg w) } (d.waits.filter (waitedOut d k pg)) endWait := rfl

theorem endWait_stream {w : MemWait} {n i : Nat} (by' : w.by' = .stream n i) (d : Dev) : endWait d w = endDesc d n i .quota := by simp only [endWait, by']

/-- R226. -/
theorem frameWaitEnds : Claim.FrameWaitEnds := by
  intro k pg s w n slot a awake p
  refine ⟨fun ready => run_becomes awake ?_ awake.2, fun tier busy before waits by' key late held => ?_⟩
  · rw [frameTimeout_eq, if_pos (show noFrameWait s.d k.toNat pg.toNat = true from Bool.or_eq_true_iff.2 (.inr ready))]
  · have reached : ¬ noFrameWait s.d k.toNat pg.toNat = true := by
      rw [noFrameWait, show frameReady s.d (page s.d k.toNat pg.toNat).home k.toNat = false from busy]
      rcases tier with tier | tier <;> simp [show (page s.d k.toNat pg.toNat).st = _ from tier]
    have unfreed : freedSince s.d p.home w = false := by
      unfold freedSince
      cases freed : (mdie s.d p.home).freedAt with
      | none => rfl
      | some t => exact decide_eq_false (Nat.not_le.2 (before t freed))
    have out : waitedOut s.d k.toNat pg.toNat w = true := by
      rw [waitedOut, key, late, show freedSince s.d (page s.d k.toNat pg.toNat).home w = false from unfreed, beq_self_eq_true]
      rfl
    have ends : frameTimeout s.d k.toNat pg.toNat = endDesc { s.d with waits := [] } n.val slot.toNat .quota := by
      rw [frameTimeout_eq, if_neg reached, waits, List.filter_cons_of_pos out, List.filter_cons_of_neg (by simp [out])]
      exact endWait_stream by' _
    exact ⟨_, run_settles awake ends, endDesc_ends .quota (awake.2.of_eq ⟨rfl, rfl⟩ rfl) ⟨_, rfl⟩ rfl held⟩

/-! ### Migrations start (R224, R225) -/

theorem each_same {α : Type} {f : Dev → α → Dev} {d : Dev} {xs : List α} (same : ∀ x ∈ xs, f d x = d) : each d xs f = d := by
  induction xs with
  | nil => rfl
  | cons x r ih =>
    rw [each, List.foldl_cons, same x (.head r)]
    exact ih fun y later => same y (.tail x later)

/-- Where a frame is at hand for each page that waits for one, none is asked for. -/
theorem askFrames_ready {d : Dev} {m : Nat} (ready : ∀ key ∈ wantFrame d m, frameReady d m (key / 8388608) = true) : askFrames d m = d := by
  refine each_same fun z inside => ?_
  have wanted : z.1 ∈ wantFrame d m := (List.mem_zipIdx' inside).2 ▸ List.getElem_mem _
  simp [ready z.1 wanted]

/-- The better of two migrations: the one of higher priority, else the earlier. -/
def betterMig (b : Option Mig) (g : Mig) : Option Mig :=
  match b with
  | none => some g
  | some y => if g.prio < y.prio then some g else some y

/-- The first of the highest priority comes out. -/
theorem foldl_betterMig {l1 l2 : List Mig} {g : Mig} (higher : ∀ h ∈ l1, g.prio < h.prio) (rest : ∀ h ∈ l2, g.prio ≤ h.prio) :
    (l1 ++ g :: l2).foldl betterMig none = some g := by
  have before : ∀ y, l1.foldl betterMig none = some y → g.prio < y.prio := by
    have named : ∀ l : List Mig, (∀ h ∈ l, g.prio < h.prio) → ∀ b : Option Mig, (∀ y, b = some y → g.prio < y.prio) → ∀ y, l.foldl betterMig b = some y → g.prio < y.prio := by
      intro l
      induction l with
      | nil => exact fun _ _ holds => holds
      | cons h r ih =>
        intro above b holds
        refine ih (fun q later => above q (.tail h later)) _ fun y chosen => ?_
        unfold betterMig at chosen
        grind
    exact named l1 higher none (by simp)
  have chosen : betterMig (l1.foldl betterMig none) g = some g := by
    cases found : l1.foldl betterMig none with
    | none => rfl
    | some y => exact if_pos (before y found)
  have stays : l2.foldl betterMig (some g) = some g := by
    induction l2 with
    | nil => rfl
    | cons h r ih =>
      rw [List.foldl_cons, show betterMig (some g) h = some g from if_neg (Nat.not_lt.2 (rest h (.head r)))]
      exact ih fun q later => rest q (.tail h later)
  rw [List.foldl_append, List.foldl_cons, chosen, stays]

/-- The migration runs. -/
def runsMig (d : Dev) (m : Nat) (g : Mig) : Dev := modMdie d m (fun x => { x with migs := x.migs.map (fun y => if y == g then { y with running := true } else y) })

/-- The chosen migration starts: a promotion takes a frame. -/
def startMig (d : Dev) (m : Nat) (g : Mig) : Dev :=
  if g.up then modPage (takeFrame (runsMig d m g) g.key m) g.key (fun p => { p with st := .promoting })
  else modPage (runsMig d m g) g.key (fun p => { p with st := .demoting })

/-- The migration that has been chosen, if any, starts. -/
def startChosen (d : Dev) (m : Nat) (b : Option Mig) : Dev :=
  match b with
  | none => d
  | some g => startMig d m g

theorem migStart_eq (d : Dev) (m : Nat) : migStart d m =
    if ((mdie (askFrames d m) m).migs.filter (·.running)).length ≥ 8 then askFrames d m
    else startChosen (askFrames d m) m (((mdie (askFrames d m) m).migs.filter (canStart (askFrames d m) m)).foldl betterMig none) := rfl

theorem migStart_chosen {d : Dev} {m : Nat} {g : Mig} (ready : askFrames d m = d) (few : ((mdie d m).migs.filter (·.running)).length < 8)
    (chosen : ((mdie d m).migs.filter (canStart d m)).foldl betterMig none = some g) : migStart d m = startMig d m g := by
  rw [migStart_eq, ready, if_neg (Nat.not_le.2 few), chosen]
  rfl

/-- What the start of a migration leaves. -/
structure MigStarted (m : Nat) (g : Mig) (d e : Dev) : Prop where
  frame : e = { d with pages := e.pages, mdies := e.mdies }
  st : (Tbl.get {} e.pages g.key : Page).st = if g.up then .promoting else .demoting
  pages : ∀ j, j ≠ g.key → Tbl.get {} e.pages j = Tbl.get {} d.pages j
  runs : { g with running := true } ∈ (mdie e m).migs
  frames : (mdie e m).frames.length = (mdie d m).frames.length + if g.up then 1 else 0

theorem runsMig_runs {d : Dev} {m : Nat} {g : Mig} (waits : g ∈ (mdie d m).migs) : { g with running := true } ∈ (mdie (runsMig d m g) m).migs := by
  rw [runsMig, mdie_modMdie]
  exact List.mem_map.2 ⟨g, waits, by simp⟩

theorem runsMig_frames (d : Dev) (m : Nat) (g : Mig) : (mdie (runsMig d m g) m).frames = (mdie d m).frames := by rw [runsMig, mdie_modMdie]

theorem get_modPage_self (d : Dev) (key : Nat) (f : Page → Page) : (Tbl.get {} (modPage d key f).pages key : Page) = f (Tbl.get {} d.pages key) := Tbl.get_modify_self ..

theorem get_modPage_other (d : Dev) {key j : Nat} (f : Page → Page) (other : j ≠ key) : (Tbl.get {} (modPage d key f).pages j : Page) = Tbl.get {} d.pages j :=
  Tbl.get_modify_other _ _ _ _ _ other

theorem takeFrame_eq (d : Dev) (key m : Nat) :
    takeFrame d key m = watermarkCheck (modPage (modMdie d m (fun x => { x with frames := x.frames ++ [pickFrame (mdie d m)], turn := (x.turn + 1) % 3 })) key
      (fun p => { p with frame := pickFrame (mdie d m) })) m := rfl

/-- What taking a frame for a page leaves. -/
structure FrameTaken (key m : Nat) (d e : Dev) : Prop where
  frame : e = { d with pages := e.pages, mdies := e.mdies }
  pages : ∀ j, j ≠ key → Tbl.get {} e.pages j = Tbl.get {} d.pages j
  running : ∀ g ∈ (mdie d m).migs, g.running = true → g ∈ (mdie e m).migs
  frames : (mdie e m).frames.length = (mdie d m).frames.length + 1

theorem frameTaken_takeFrame (d : Dev) (key m : Nat) : FrameTaken key m d (takeFrame d key m) := by
  rw [takeFrame_eq]
  generalize taking : modMdie d m (fun x => { x with frames := x.frames ++ [pickFrame (mdie d m)], turn := (x.turn + 1) % 3 }) = b
  have own : mdie b m = { mdie d m with frames := (mdie d m).frames ++ [pickFrame (mdie d m)], turn := ((mdie d m).turn + 1) % 3 } := by rw [← taking, mdie_modMdie]
  have rest : b = { d with mdies := b.mdies } := by rw [← taking]; rfl
  clear taking
  generalize noting : modPage b key (fun p => { p with frame := pickFrame (mdie d m) }) = c
  have places : c = { b with pages := c.pages } := by rw [← noting]; rfl
  have others (j : Nat) (other : j ≠ key) : (Tbl.get {} c.pages j : Page) = Tbl.get {} b.pages j := by
    rw [← noting, get_modPage_other _ _ other]
  have same : mdie c m = mdie b m := by rw [places]; rfl
  clear noting
  have asks := asksOnly_watermarkCheck c m
  generalize watermarkCheck c m = e at asks
  refine ⟨?_, fun j other => ?_, fun g inside runs => ?_, ?_⟩
  · rw [asks.frame, places, rest]
  · rw [asks.frame]
    exact (others j other).trans (by rw [rest])
  · refine asks.running m g ?_ runs
    rw [same, own]
    exact inside
  · rw [asks.rest m, same, own]
    exact List.length_append

theorem migStarted_up {d : Dev} {m : Nat} {g : Mig} (up : g.up = true) (waits : g ∈ (mdie d m).migs) : MigStarted m g d (startMig d m g) := by
  have takes := frameTaken_takeFrame (runsMig d m g) g.key m
  rw [startMig, if_pos up]
  generalize takeFrame (runsMig d m g) g.key m = e at takes
  refine ⟨?_, ?_, fun j other => ?_, takes.running _ (runsMig_runs waits) rfl, ?_⟩
  · rw [takes.frame]
    rfl
  · rw [if_pos up, get_modPage_self]
  · rw [get_modPage_other _ _ other, takes.pages j other]
    rfl
  · rw [if_pos up, ← runsMig_frames d m g]
    exact takes.frames

theorem migStarted_down {d : Dev} {m : Nat} {g : Mig} (down : g.up = false) (waits : g ∈ (mdie d m).migs) : MigStarted m g d (startMig d m g) := by
  have low : ¬ g.up = true := by simp [down]
  rw [startMig, if_neg low]
  generalize marks : runsMig d m g = e
  have runs : { g with running := true } ∈ (mdie e m).migs := by rw [← marks]; exact runsMig_runs waits
  have frames : (mdie e m).frames = (mdie d m).frames := by rw [← marks]; exact runsMig_frames d m g
  have rest : e = { d with mdies := e.mdies } := by rw [← marks]; rfl
  refine ⟨?_, ?_, fun j other => ?_, runs, ?_⟩
  · rw [rest]
    rfl
  · rw [if_neg low, get_modPage_self]
  · rw [get_modPage_other _ _ other, rest]
  · rw [if_neg low]
    exact congrArg List.length frames

theorem migStarted_startMig {d : Dev} {m : Nat} {g : Mig} (waits : g ∈ (mdie d m).migs) : MigStarted m g d (startMig d m g) := by
  cases way : g.up with
  | true => exact migStarted_up way waits
  | false => exact migStarted_down way waits

/-- A migration of page pg of kennel k, whose entry has number `key`, leaves the other kennels, the bytes beyond the page, and the other entries. -/
def LeavesOthers (k pg key : Nat) (d e : Dev) : Prop :=
  (∀ j, j ≠ k → kmem e j = kmem d j)
    ∧ (∀ x, x < pg * pageBytes ∨ pg * pageBytes + pageBytes ≤ x → Mem.byte (kmem e k) x = Mem.byte (kmem d k) x)
    ∧ (∀ j, j ≠ key → Tbl.get {} e.pages j = Tbl.get {} d.pages j)

/-- R224, R225: the chosen migration starts. -/
theorem migrationStarts {m : MDieId} {k : KennelId} {pg : BitVec 23} {s : State} {g : Mig} (awake : Awake s.d) (named : g.key = pageKey k.toNat pg.toNat)
    {l1 l2 : List Mig} (few : ((mdie s.d m.toNat).migs.filter (·.running)).length < 8) (order : (mdie s.d m.toNat).migs.filter (canStart s.d m.toNat) = l1 ++ g :: l2)
    (higher : ∀ h ∈ l1, g.prio < h.prio) (rest : ∀ h ∈ l2, g.prio ≤ h.prio)
    (ready : ∀ key ∈ wantFrame s.d m.toNat, frameReady s.d m.toNat (key / 8388608) = true) :
    ∃ t, exec (.migrationStart m) s = .next t ∧ (page t.d k.toNat pg.toNat).st = (if g.up then .promoting else .demoting)
      ∧ { g with running := true } ∈ (mdie t.d m.toNat).migs
      ∧ (mdie t.d m.toNat).frames.length = (mdie s.d m.toNat).frames.length + (if g.up then 1 else 0)
      ∧ LeavesOthers k.toNat pg.toNat g.key s.d t.d ∧ t.d = { s.d with pages := t.d.pages, mdies := t.d.mdies } := by
  have chosen : ((mdie s.d m.toNat).migs.filter (canStart s.d m.toNat)).foldl betterMig none = some g := order ▸ foldl_betterMig higher rest
  have waits : g ∈ (mdie s.d m.toNat).migs := by
    have inside : g ∈ (mdie s.d m.toNat).migs.filter (canStart s.d m.toNat) := by simp [order]
    exact (List.mem_filter.1 inside).1
  have starts := migStarted_startMig waits
  have effect := migStart_chosen (askFrames_ready ready) few chosen
  generalize startMig s.d m.toNat g = e at starts effect
  have calm : Calm e := by
    rw [starts.frame]
    exact awake.2.of_eq ⟨rfl, rfl⟩ rfl
  have memory (j : Nat) : kmem e j = kmem s.d j := by rw [starts.frame]; rfl
  refine ⟨_, run_becomes awake effect calm, ?_, starts.runs, starts.frames, ⟨fun j _ => memory j, fun x _ => by rw [memory], starts.pages⟩, starts.frame⟩
  rw [page, ← named]
  exact starts.st

end Sys2Proof.Machine

namespace Sys2Proof.Machine

/-! ### A block decodes to 4 KiB (R228, R230) -/

theorem gbcCopy_length (n off : Nat) (rev : List Byte) : (gbcCopy n off rev).length = rev.length + n := by
  induction n generalizing rev with
  | zero => rfl
  | succ n ih => rw [gbcCopy, ih, List.length_cons, Nat.add_assoc, Nat.add_comm 1]

/-- Where 4,096 bytes are out, they are what is answered. -/
theorem gbcDecode_full {inp rev out : List Byte} (whole : rev.length = 4096) (same : (if inp.all (· == 0) then some rev.reverse else none) = some out) : out.length = 4096 := by
  split at same
  · cases same
    rw [List.length_reverse, whole]
  · cases same

/-- Tokens that decode spell 4,096 bytes: each token adds as many as it counts, and the count ends at 4,096. -/
theorem gbcDecode_length (fuel : Nat) {inp rev : List Byte} {len : Nat} (counted : rev.length = len) {out : List Byte} (spells : gbcDecode fuel inp rev len = some out) :
    out.length = 4096 := by
  induction fuel generalizing inp rev len with
  | zero =>
    unfold gbcDecode at spells
    split at spells
    next ends => exact gbcDecode_full (counted.trans ends) spells
    next => split at spells <;> cases spells
  | succ fuel ih =>
    unfold gbcDecode at spells
    simp only at spells
    split at spells
    next ends => exact gbcDecode_full (counted.trans ends) spells
    next =>
      split at spells
      · cases spells
      · split at spells
        · cases spells
        · split at spells
          · split at spells
            · cases spells
            · refine ih ?_ spells
              rw [List.length_append, List.length_reverse, List.length_take, counted]
              omega
          · split at spells
            · refine ih ?_ spells
              rw [List.length_append, List.length_replicate, counted]
              omega
            · cases spells
          · split at spells
            · split at spells
              · cases spells
              · exact ih (by rw [gbcCopy_length, counted]) spells
            · cases spells
          · split at spells
            · split at spells
              · cases spells
              · exact ih (by rw [gbcCopy_length, counted, Nat.add_assoc]) spells
            · cases spells

theorem planeInverse_length {et : Nat} (img : List Byte) : (planeInverse et img).length = 4096 := by
  have elements (n w : Nat) (f : Nat → Nat) : ((List.range n).flatMap fun e => leBytes w (f e)).length = n * w := by
    simp [List.length_flatMap]
  rw [planeInverse, elements, etBytes]
  split <;> rfl

/-- A block that decodes is 4 KiB. -/
theorem decodeBlock_length {b : Block} : (decodeBlock b).1 = .ok → (decodeBlock b).2.length = 4096 := by
  have blank : (zeros 4096).length = 4096 := List.length_replicate
  unfold decodeBlock
  split
  · exact fun _ => blank
  · split
    · exact fun _ => blank
    · split
      · exact fun _ => blank
      · intro _
        simp only [List.length_take, List.length_append, blank]
        omega
      · split
        next spells => exact fun _ => gbcDecode_length 4097 rfl spells
        next => exact fun _ => blank
      · split
        · exact fun _ => planeInverse_length _
        · exact fun _ => blank

/-! ### The bytes of a promotion (R225, R242) -/

/-- What each of the first n blocks of an image holds; a block whose reads met UE has no bytes. -/
def migBlocks (us : List Nat) (img : Tbl Block) (n : Nat) : List (Nat × MemClass × List Byte) :=
  (List.range n).map (fun b => (b, if us.contains b then (MemClass.ue, []) else decodeBlock (imageBlock img b)))

/-- The blocks that decode are written into memory. -/
def landBlocks (base : Nat) (mm : Mem) (blocks : List (Nat × MemClass × List Byte)) : Mem :=
  blocks.foldl (fun mm z => if z.2.1 = .ok then Mem.write mm (base + 4096 * z.1) z.2.2 else mm) mm

theorem migBlocks_succ (us : List Nat) (img : Tbl Block) (n : Nat) :
    migBlocks us img (n + 1) = migBlocks us img n ++ [(n, if us.contains n then (MemClass.ue, []) else decodeBlock (imageBlock img n))] := by
  simp only [migBlocks, List.range_succ, List.map_append, List.map_singleton]

section Landing

variable (us : List Nat) (img : Tbl Block) (base : Nat) (mm : Mem)

/-- The last block of those that are written. -/
theorem landBlocks_succ (n : Nat) : landBlocks base mm (migBlocks us img (n + 1)) =
    if us.contains n = false ∧ (decodeBlock (imageBlock img n)).1 = .ok then Mem.write (landBlocks base mm (migBlocks us img n)) (base + 4096 * n) (decodeBlock (imageBlock img n)).2
    else landBlocks base mm (migBlocks us img n) := by
  rw [migBlocks_succ, landBlocks, List.foldl_append, List.foldl_cons, List.foldl_nil, ← landBlocks]
  by_cases bad : us.contains n
  · simp only [bad, if_true, reduceCtorEq, if_false, Bool.true_eq_false, false_and]
  · simp only [bad, Bool.false_eq_true, if_false, true_and]

/-- Bytes outside the blocks stay. -/
theorem landBlocks_outside (n : Nat) {c : Nat} (out : c < base ∨ base + 4096 * n ≤ c) : Mem.byte (landBlocks base mm (migBlocks us img n)) c = Mem.byte mm c := by
  induction n with
  | zero => rfl
  | succ n ih =>
    rw [landBlocks_succ]
    split
    next lands =>
      have whole := decodeBlock_length lands.2
      rw [Mem.byte_write_outside _ _ _ _ (by omega), ih (by omega)]
    next => exact ih (by omega)

/-- A block that decodes is read back. -/
theorem landBlocks_inside (n : Nat) {b x : Nat} (block : b < n) (place : x < 4096) (sound : us.contains b = false) (whole : (decodeBlock (imageBlock img b)).1 = .ok) :
    Mem.byte (landBlocks base mm (migBlocks us img n)) (base + 4096 * b + x) = (decodeBlock (imageBlock img b)).2.getD x 0 := by
  induction n with
  | zero => cases block
  | succ n ih =>
    rw [landBlocks_succ]
    rcases Nat.lt_succ_iff_lt_or_eq.1 block with earlier | rfl
    · split
      · rw [Mem.byte_write_outside _ _ _ _ (by omega), ih earlier]
      · exact ih earlier
    · have inside : x < (decodeBlock (imageBlock img b)).2.length := by rw [decodeBlock_length whole]; exact place
      rw [if_pos ⟨sound, whole⟩, Mem.byte_write_inside _ _ _ x inside]
      simp [inside]

end Landing

/-- The lines of the blocks that do not decode. -/
def badLines (blocks : List (Nat × MemClass × List Byte)) : List Nat :=
  (blocks.filter (fun z => z.2.1 != .ok)).flatMap (fun z => (List.range 64).map (fun i => 64 * z.1 + i))

theorem mem_badLines {us : List Nat} {img : Tbl Block} {n b l : Nat} (block : b < n) (line : l < 64) (met : us.contains b = true) : 64 * b + l ∈ badLines (migBlocks us img n) := by
  refine List.mem_flatMap.2 ⟨(b, .ue, []), List.mem_filter.2 ⟨List.mem_map.2 ⟨b, List.mem_range.2 block, by rw [if_pos met]⟩, rfl⟩, ?_⟩
  exact List.mem_map.2 ⟨l, List.mem_range.2 line, rfl⟩

end Sys2Proof.Machine

namespace Sys2Proof.Machine

/-! ### The end of a migration (R225, R242) -/

/-- A migration's end changes memory, pages, M-dies and slots, and may be reported. -/
def MigOnly (d e : Dev) : Prop := e = { d with mdies := e.mdies, pages := e.pages, mem := e.mem, ses := e.ses, marks := e.marks, reports := e.reports }

theorem MigOnly.trans {a b c : Dev} (first : MigOnly a b) (second : MigOnly b c) : MigOnly a c := by
  unfold MigOnly at *
  rw [second, first]

/-- Where it reports nothing, nothing follows. -/
theorem MigOnly.settle {d e : Dev} (only : MigOnly d e) (calm : Calm d) (told : e.reports = []) : settle e = e := by
  refine settle_calm _ (calm.of_eq ⟨told.trans calm.1.1.symm, ?_⟩ ?_)
  · rw [only]
  · rw [only]

/-- Errors have been counted, and may be reported: an M-die keeps all but its counters. -/
structure CountsOnly (d e : Dev) : Prop where
  frame : e = { d with mdies := e.mdies, reports := e.reports }
  rest : ∀ i, mdie e i = { mdie d i with cnt := (mdie e i).cnt, ueBeat := (mdie e i).ueBeat, ues := (mdie e i).ues }

theorem CountsOnly.refl (d : Dev) : CountsOnly d d := ⟨rfl, fun _ => rfl⟩

theorem CountsOnly.trans {a b c : Dev} (first : CountsOnly a b) (second : CountsOnly b c) : CountsOnly a c where
  frame := by rw [second.frame, first.frame]
  rest i := by rw [second.rest i, first.rest i]

theorem CountsOnly.each {α : Type} {f : Dev → α → Dev} (step : ∀ d x, CountsOnly d (f d x)) (xs : List α) (d : Dev) : CountsOnly d (each d xs f) :=
  foldl_keeps (P := CountsOnly d) (fun e x counts => counts.trans (step e x)) xs (.refl d)

theorem countsOnly_modMdie (d : Dev) (m : Nat) {f : MDie → MDie} (rest : ∀ x, f x = { x with cnt := (f x).cnt, ueBeat := (f x).ueBeat, ues := (f x).ues }) :
    CountsOnly d (modMdie d m f) := by
  refine ⟨rfl, fun i => ?_⟩
  by_cases here : i = m
  · subst here
    rw [mdie_modMdie]
    exact rest _
  · rw [mdie_modMdie_other _ _ _ _ here]

theorem countsOnly_countUe (d : Dev) (key o : Nat) : CountsOnly d (countUe d key o) := by
  unfold countUe
  extract_lets p c e
  have counts : CountsOnly d e := countsOnly_modMdie d _ fun _ => rfl
  exact iteInduction (fun _ => counts.trans ⟨rfl, fun _ => rfl⟩) fun _ => counts

/-- What a migration's reads met is counted. -/
theorem countsOnly_migErrors (d : Dev) (m key : Nat) (up : Bool) (us : List Nat) : CountsOnly d (migErrors d m key up us []) := by
  unfold migErrors
  extract_lets p bad n b c
  have counts : CountsOnly d b := CountsOnly.each (fun _ _ => countsOnly_countUe ..) _ d
  exact counts.trans (countsOnly_modMdie b m fun _ => rfl)

/-- A migration of the page of `key` is over, and its tier has not changed yet. -/
structure MigOver (m key : Nat) (d c : Dev) : Prop where
  frame : c = { d with mdies := c.mdies, reports := c.reports }
  rest : mdie c m = { mdie d m with cnt := (mdie c m).cnt, ueBeat := (mdie c m).ueBeat, ues := (mdie c m).ues, migs := (mdie d m).migs.filter (fun y => y.key != key) }

/-- The device when the errors of a migration have been counted and it is no longer listed. -/
def migOver (d : Dev) (m key : Nat) (up : Bool) (us : List Nat) : Dev :=
  modMdie (migErrors d m key up us []) m (fun x => { x with migs := x.migs.filter (fun y => y.key != key) })

theorem migOver_over (d : Dev) (m key : Nat) (up : Bool) (us : List Nat) : MigOver m key d (migOver d m key up us) := by
  have counts := countsOnly_migErrors d m key up us
  unfold migOver
  generalize migErrors d m key up us [] = e at counts
  refine ⟨?_, ?_⟩
  · rw [counts.frame]
    rfl
  · rw [mdie_modMdie, counts.rest m]

/-- The page's tier changes, unless its map contradicts itself. -/
theorem migComplete_found {d : Dev} {m key : Nat} {us : List Nat} {g : Mig} (found : (mdie d m).migs.find? (fun x => x.key == key && x.running) = some g) :
    migComplete d m key us [] = if g.up && mapBad (Tbl.get {} (migOver d m key g.up us).pages key) then metaError (migOver d m key g.up us) key
      else if g.up then promoted (migOver d m key g.up us) m key us else demoted (migOver d m key g.up us) m key us := by
  simp only [migComplete, found]
  rfl

/-- What a page's change of tier ends with changes the watermark's requests, discards what streams have staged, and may report. -/
structure Closes (x e : Dev) : Prop where
  frame : e = { x with ses := e.ses, mdies := e.mdies, marks := e.marks, reports := e.reports }
  rest : ∀ i, mdie e i = { mdie x i with migs := (mdie e i).migs, draining := (mdie e i).draining }

theorem closes_watermark (x : Dev) (k m addr n : Nat) : Closes x (memPlanCheck (watermarkCheck (invalidate x k addr n) m) k) := by
  obtain ⟨ses, discards⟩ := invalidate_frame x k addr n
  have asks := asksOnly_watermarkCheck (invalidate x k addr n) m
  generalize watermarkCheck (invalidate x k addr n) m = b at asks
  obtain ⟨marks, rs, tells, -⟩ := memPlanCheck_frame b k
  rw [discards] at asks
  generalize memPlanCheck b k = e at tells
  refine ⟨?_, fun i => ?_⟩
  · rw [tells, asks.frame]
  · have same : mdie e i = mdie b i := by rw [tells]; rfl
    rw [same]
    exact asks.rest i

theorem applyWaits_none {d : Dev} {key : Nat} (none' : ∀ w ∈ d.waits, waitKey w ≠ key) : applyWaits d key = d := by
  have others : d.waits.filter (fun w => waitKey w != key) = d.waits := List.filter_eq_self.2 fun w inside => by simpa using none' w inside
  have own : d.waits.filter (fun w => waitKey w == key) = [] := List.filter_eq_nil_iff.2 fun w inside => by simpa using none' w inside
  rw [applyWaits, others, own]
  rfl

theorem pageKey_kennel {k pg : Nat} (number : pg < 8388608) : pageKey k pg / 8388608 = k := by
  unfold pageKey
  omega

theorem pageKey_page {k pg : Nat} (number : pg < 8388608) : pageKey k pg % 8388608 = pg := by
  unfold pageKey
  omega

/-! ### A promotion ends -/

/-- The page as a promotion leaves it. -/
def promotedPage (us : List Nat) (img : Tbl Block) (p : Page) : Page :=
  { p with st := .near, image := [], extent := [], poison := badLines (migBlocks us img 512), readBlocks := [] }

/-- The memory of a page's kennel with the page's blocks in it. -/
def landedMem (c : Dev) (key : Nat) (us : List Nat) : Mem :=
  landBlocks (key % 8388608 * pageBytes) (Mem.zero (kmem c (key / 8388608)) (key % 8388608 * pageBytes) pageBytes) (migBlocks us (Tbl.get {} c.pages key : Page).image 512)

/-- The M-die with the granules of a page free. -/
def promotedMdie (extent : List Nat) (x : MDie) : MDie := { x with far := x.far.filter (fun g => !extent.contains g), cnt := { x.cnt with up := inc x.cnt.up } }

/-- The page's blocks are in memory, its frame holds it, and its granules are free. -/
def landed (c : Dev) (m key : Nat) (us : List Nat) : Dev :=
  modMdie (modPage (setKmem c (key / 8388608) (landedMem c key us)) key (promotedPage us (Tbl.get {} c.pages key : Page).image)) m
    (promotedMdie (Tbl.get {} c.pages key : Page).extent)

theorem promoted_eq (c : Dev) (m key : Nat) (us : List Nat) : promoted c m key us =
    memPlanCheck (watermarkCheck (applyWaits (invalidate (landed c m key us) (key / 8388608) (key % 8388608 * pageBytes) pageBytes) key) m) (key / 8388608) := by
  unfold promoted landed landedMem landBlocks
  rfl

theorem landed_waits (c : Dev) (m key : Nat) (us : List Nat) : (landed c m key us).waits = c.waits := by
  simp only [landed, modMdie_waits, modPage_waits, setKmem_waits]

theorem promoted_closes {c : Dev} {m key : Nat} (us : List Nat) (none' : ∀ w ∈ c.waits, waitKey w ≠ key) : Closes (landed c m key us) (promoted c m key us) := by
  rw [promoted_eq]
  have same := landed_waits c m key us
  generalize landed c m key us = x at same
  have waits : applyWaits (invalidate x (key / 8388608) (key % 8388608 * pageBytes) pageBytes) key = invalidate x (key / 8388608) (key % 8388608 * pageBytes) pageBytes := by
    obtain ⟨ses, discards⟩ := invalidate_frame x (key / 8388608) (key % 8388608 * pageBytes) pageBytes
    rw [discards]
    exact applyWaits_none fun w inside => none' w (same ▸ inside)
  rw [waits]
  exact closes_watermark ..

/-! ### A demotion ends -/

/-- The image of a page with the blocks poisoned in which its reads met UE. -/
def demotedImage (c : Dev) (key : Nat) (us : List Nat) : Tbl Block :=
  us.foldl (fun t b => Tbl.set {} t b (poisonBlock (Tbl.get {} c.pages key : Page).etype)) (pageImage c key)

/-- The granules that it takes. -/
def demotedExtent (c : Dev) (m key : Nat) (us : List Nat) : List Nat :=
  pickGranules (imageGranules (demotedImage c key us)) (takenGranules (mdie c m)) (Tbl.get {} c.pages key : Page).pid 0

/-- The page as a demotion leaves it. -/
def demotedPage (img : Tbl Block) (gs : List Nat) (p : Page) : Page := { p with st := .far, image := img, extent := gs, poison := [], readBlocks := [] }

/-- The M-die with the granules of a page taken. -/
def demotedMdie (gs : List Nat) (x : MDie) : MDie := { x with far := x.far ++ gs, cnt := { x.cnt with down := inc x.cnt.down } }

/-- Granules hold the page's image, and its frame is free. -/
def stowed (c : Dev) (m key : Nat) (us : List Nat) : Dev :=
  modMdie (modPage (setKmem (freeFrame c key m) (key / 8388608) (Mem.zero (kmem (freeFrame c key m) (key / 8388608)) (key % 8388608 * pageBytes) pageBytes)) key
    (demotedPage (demotedImage c key us) (demotedExtent c m key us))) m (demotedMdie (demotedExtent c m key us))

theorem demoted_eq (c : Dev) (m key : Nat) (us : List Nat) : demoted c m key us =
    memPlanCheck (frameFreed (invalidate (stowed c m key us) (key / 8388608) (key % 8388608 * pageBytes) pageBytes) m) (key / 8388608) := by
  unfold demoted stowed demotedExtent demotedImage
  rfl

theorem demoted_closes {c : Dev} {m key : Nat} (us : List Nat) (none' : wantFrame (stowed c m key us) m = []) : Closes (stowed c m key us) (demoted c m key us) := by
  rw [demoted_eq]
  generalize stowed c m key us = x at none'
  have free : wantFrame (invalidate x (key / 8388608) (key % 8388608 * pageBytes) pageBytes) m = [] := by
    obtain ⟨ses, discards⟩ := invalidate_frame x (key / 8388608) (key % 8388608 * pageBytes) pageBytes
    rw [discards]
    exact none'
  rw [frameFreed_none free]
  exact closes_watermark ..

/-- No page waits for a frame where no write waits for a ZERO page of the M-die, and no demand promotion waits to start. -/
theorem wantFrame_nil {d : Dev} {m : Nat} : wantFrame d m = [] ↔
    (∀ w ∈ d.waits, ¬ ((Tbl.get {} d.pages (waitKey w) : Page).st = .zero ∧ (Tbl.get {} d.pages (waitKey w) : Page).home = m))
      ∧ ∀ g ∈ (mdie d m).migs, ¬ (g.up = true ∧ g.prio = 1 ∧ g.running = false) := by
  have listed (l : List Nat) : l.foldl (fun l x => if l.contains x then l else l ++ [x]) [] = [] ↔ l = [] := by
    refine ⟨fun none' => ?_, fun none' => by rw [none']; rfl⟩
    cases l with
    | nil => rfl
    | cons x r =>
      have grown := foldl_keeps (P := fun l : List Nat => l ≠ []) (f := fun l x => if l.contains x then l else l ++ [x]) (fun l x some' => by split <;> simp [some']) r (b := [x]) (by simp)
      exact absurd none' grown
  rw [wantFrame, listed, List.append_eq_nil_iff, List.filterMap_eq_nil_iff, List.map_eq_nil_iff, List.filter_eq_nil_iff]
  simp [and_assoc]

end Sys2Proof.Machine

namespace Sys2Proof.Machine

/-! ### What the end of a migration leaves (R225, R242) -/

theorem migOnly_modMdie (d : Dev) (m : Nat) (f : MDie → MDie) : MigOnly d (modMdie d m f) := rfl

theorem migOnly_modPage (d : Dev) (key : Nat) (f : Page → Page) : MigOnly d (modPage d key f) := rfl

theorem migOnly_setKmem (d : Dev) (k : Nat) (m : Mem) : MigOnly d (setKmem d k m) := rfl

theorem Closes.migOnly {x e : Dev} (closes : Closes x e) : MigOnly x e := by rw [MigOnly, closes.frame]

theorem Closes.pages {x e : Dev} (closes : Closes x e) : e.pages = x.pages := by rw [closes.frame]

theorem Closes.kmem {x e : Dev} (closes : Closes x e) (j : Nat) : kmem e j = kmem x j := by
  have memory : e.mem = x.mem := by rw [closes.frame]
  rw [Machine.kmem, memory, Machine.kmem]

theorem MigOver.migOnly {m key : Nat} {d c : Dev} (past : MigOver m key d c) : MigOnly d c := by rw [MigOnly, past.frame]

theorem MigOver.pages {m key : Nat} {d c : Dev} (past : MigOver m key d c) : c.pages = d.pages := by rw [past.frame]

theorem MigOver.kmem {m key : Nat} {d c : Dev} (past : MigOver m key d c) (j : Nat) : kmem c j = kmem d j := by
  have memory : c.mem = d.mem := by rw [past.frame]
  rw [Machine.kmem, memory, Machine.kmem]

theorem MigOver.waits {m key : Nat} {d c : Dev} (past : MigOver m key d c) : c.waits = d.waits := by rw [past.frame]

section Landed

variable (c : Dev) (m key : Nat) (us : List Nat)

theorem migOnly_landed : MigOnly c (landed c m key us) :=
  ((migOnly_setKmem ..).trans (migOnly_modPage ..)).trans (migOnly_modMdie ..)

theorem promotedPage_poison (img : Tbl Block) (p : Page) : (promotedPage us img p).poison = badLines (migBlocks us img 512) := by rw [promotedPage]

theorem landed_page : (Tbl.get {} (landed c m key us).pages key : Page) = promotedPage us (Tbl.get {} c.pages key : Page).image (Tbl.get {} c.pages key) := by
  simp only [landed, modMdie_pages, get_modPage_self, setKmem_pages]

theorem landed_other {j : Nat} (other : j ≠ key) : (Tbl.get {} (landed c m key us).pages j : Page) = Tbl.get {} c.pages j := by
  simp only [landed, modMdie_pages, get_modPage_other _ _ other, setKmem_pages]

theorem landed_kmem (j : Nat) : kmem (landed c m key us) j = if j = key / 8388608 then landedMem c key us else kmem c j := by
  simp only [kmem, landed, modMdie_mem, modPage_mem, setKmem, Tbl.get_set]

theorem landed_mdie : mdie (landed c m key us) m = promotedMdie (Tbl.get {} c.pages key : Page).extent (mdie c m) := by
  rw [landed, mdie_modMdie]
  simp only [mdie, modPage_mdies, setKmem_mdies]

theorem freeFrame_mdie : mdie (freeFrame c key m) m =
    { mdie c m with frames := (mdie c m).frames.filter (· != (Tbl.get {} c.pages key : Page).frame), freedAt := some c.eclk } := by
  unfold freeFrame
  extract_lets f
  rw [mdie, modPage_mdies, ← mdie, mdie_modMdie]

theorem freeFrame_mem : (freeFrame c key m).mem = c.mem := by
  unfold freeFrame
  extract_lets f
  rw [modPage_mem, modMdie_mem]

theorem freeFrame_waits : (freeFrame c key m).waits = c.waits := by
  unfold freeFrame
  extract_lets f
  rw [modPage_waits, modMdie_waits]

theorem migOnly_freeFrame : MigOnly c (freeFrame c key m) := (migOnly_modMdie ..).trans (migOnly_modPage ..)

theorem migOnly_stowed : MigOnly c (stowed c m key us) :=
  (((migOnly_freeFrame ..).trans (migOnly_setKmem ..)).trans (migOnly_modPage ..)).trans (migOnly_modMdie ..)

theorem stowed_page : (Tbl.get {} (stowed c m key us).pages key : Page)
    = demotedPage (demotedImage c key us) (demotedExtent c m key us) (Tbl.get {} (freeFrame c key m).pages key) := by
  simp only [stowed, modMdie_pages, get_modPage_self, setKmem_pages]

theorem stowed_other {j : Nat} (other : j ≠ key) : (Tbl.get {} (stowed c m key us).pages j : Page) = Tbl.get {} c.pages j := by
  simp only [stowed, modMdie_pages, get_modPage_other _ _ other, setKmem_pages, freeFrame_other _ other]

theorem stowed_kmem (j : Nat) : kmem (stowed c m key us) j
    = if j = key / 8388608 then Mem.zero (kmem c (key / 8388608)) (key % 8388608 * pageBytes) pageBytes else kmem c j := by
  simp only [kmem, stowed, modMdie_mem, modPage_mem, setKmem, Tbl.get_set, freeFrame_mem]

theorem stowed_mdie : mdie (stowed c m key us) m = demotedMdie (demotedExtent c m key us) (mdie (freeFrame c key m) m) := by
  rw [stowed, mdie_modMdie]
  simp only [mdie, modPage_mdies, setKmem_mdies]

theorem stowed_waits : (stowed c m key us).waits = c.waits := by
  simp only [stowed, modMdie_waits, modPage_waits, setKmem_waits, freeFrame_waits]

end Landed

/-- A demotion leaves nobody waiting for a frame where nobody did before. -/
theorem wantFrame_stowed {d c : Dev} {m key : Nat} (us : List Nat) (past : MigOver m key d c) (none' : wantFrame d m = []) (apart : ∀ w ∈ d.waits, waitKey w ≠ key) :
    wantFrame (stowed c m key us) m = [] := by
  obtain ⟨zero, far⟩ := wantFrame_nil.1 none'
  refine wantFrame_nil.2 ⟨fun w inside => ?_, fun g inside => ?_⟩
  · rw [stowed_waits, past.waits] at inside
    rw [stowed_other c m key us (apart w inside), past.pages]
    exact zero w inside
  · rw [stowed_mdie, freeFrame_mdie, past.rest] at inside
    exact far g (List.mem_filter.1 inside).1

theorem contains_toNat {ues : List (BitVec 9)} {b : Nat} (block : b < 512) : (ues.map BitVec.toNat).contains b = true ↔ BitVec.ofNat 9 b ∈ ues := by
  rw [List.contains_iff_mem, List.mem_map]
  constructor
  · rintro ⟨u, inside, rfl⟩
    rwa [BitVec.ofNat_toNat, BitVec.setWidth_eq]
  · exact fun inside => ⟨_, inside, by rw [BitVec.toNat_ofNat]; exact Nat.mod_eq_of_lt block⟩

section Ends

variable {m : MDieId} {k : KennelId} {pg : BitVec 23} {ues : List (BitVec 9)} {s : State} {g : Mig}
variable (named : g.key = pageKey k.toNat pg.toNat) (home : (page s.d k.toNat pg.toNat).home = m.toNat)
variable (found : (mdie s.d m.toNat).migs.find? (fun x => x.key == g.key && x.running) = some g)
include named home found

theorem execMigrationComplete_eq (awake : Awake s.d) {e : Dev}
    (effect : (if g.up && mapBad (Tbl.get {} (migOver s.d m.toNat g.key g.up (ues.map BitVec.toNat)).pages g.key) then metaError (migOver s.d m.toNat g.key g.up (ues.map BitVec.toNat)) g.key
      else if g.up then promoted (migOver s.d m.toNat g.key g.up (ues.map BitVec.toNat)) m.toNat g.key (ues.map BitVec.toNat)
      else demoted (migOver s.d m.toNat g.key g.up (ues.map BitVec.toNat)) m.toNat g.key (ues.map BitVec.toNat)) = e) :
    exec (.migrationComplete k pg (ues, [])) s = becomes s (settle e) := by
  refine run_settles awake ?_
  rw [home, ← named]
  exact (migComplete_found found).trans effect

/-- R225, R242: a promotion ends. -/
theorem promotionEnds (awake : Awake s.d) (apart : ∀ w ∈ s.d.waits, waitKey w ≠ g.key) (up : g.up = true) (sound : mapBad (page s.d k.toNat pg.toNat) = false) :
    ∃ d, exec (.migrationComplete k pg (ues, [])) s = becomes s (settle d) ∧ (d.reports = [] → settle d = d)
      ∧ (page d k.toNat pg.toNat).st = .near ∧ (page d k.toNat pg.toNat).extent = [] ∧ (page d k.toNat pg.toNat).frame = (page s.d k.toNat pg.toNat).frame
      ∧ (mdie d m.toNat).far = (mdie s.d m.toNat).far.filter (fun x => !(page s.d k.toNat pg.toNat).extent.contains x)
      ∧ (∀ b < 512, ∀ x < 4096, BitVec.ofNat 9 b ∉ ues → (decodeBlock (imageBlock (page s.d k.toNat pg.toNat).image b)).1 = .ok →
          Mem.byte (kmem d k.toNat) (pg.toNat * pageBytes + 4096 * b + x) = (decodeBlock (imageBlock (page s.d k.toNat pg.toNat).image b)).2.getD x 0)
      ∧ (∀ b < 512, BitVec.ofNat 9 b ∈ ues → ∀ l < 64, 64 * b + l ∈ (page d k.toNat pg.toNat).poison) ∧ LeavesOthers k.toNat pg.toNat g.key s.d d := by
  have past := migOver_over s.d m.toNat g.key g.up (ues.map BitVec.toNat)
  have effect := execMigrationComplete_eq named home found awake (ues := ues) rfl
  generalize migOver s.d m.toNat g.key g.up (ues.map BitVec.toNat) = c at past effect
  have own : (Tbl.get {} c.pages g.key : Page) = page s.d k.toNat pg.toNat := by rw [past.pages, named, page]
  simp only [own, sound, up, Bool.and_false, Bool.false_eq_true, if_false, if_true] at effect
  have closes := promoted_closes (m := m.toNat) (ues.map BitVec.toNat) (past.waits ▸ apart)
  generalize promoted c m.toNat g.key (ues.map BitVec.toNat) = e at closes effect
  have only : MigOnly s.d e := (past.migOnly.trans (migOnly_landed ..)).trans closes.migOnly
  have kennel : g.key / 8388608 = k.toNat := named ▸ pageKey_kennel pg.isLt
  have number : g.key % 8388608 = pg.toNat := named ▸ pageKey_page pg.isLt
  have held : page e k.toNat pg.toNat = promotedPage (ues.map BitVec.toNat) (page s.d k.toNat pg.toNat).image (page s.d k.toNat pg.toNat) := by
    rw [page, ← named, closes.pages, landed_page, own]
  have mem' : landedMem c g.key (ues.map BitVec.toNat) = landBlocks (pg.toNat * pageBytes) (Mem.zero (kmem s.d k.toNat) (pg.toNat * pageBytes) pageBytes)
      (migBlocks (ues.map BitVec.toNat) (page s.d k.toNat pg.toNat).image 512) := by
    rw [landedMem, own, kennel, number, past.kmem]
  have bytes : kmem e k.toNat = landedMem c g.key (ues.map BitVec.toNat) := by rw [closes.kmem, landed_kmem, if_pos kennel.symm]
  refine ⟨e, effect, only.settle awake.2, by rw [held]; rfl, by rw [held]; rfl, by rw [held]; rfl, ?_, fun b block x place unmet whole => ?_, fun b block met l line => ?_, ?_, fun x out => ?_, fun j other => ?_⟩
  · rw [closes.rest, landed_mdie, own, past.rest]
    rfl
  · have fine : (ues.map BitVec.toNat).contains b = false := by
      rw [Bool.eq_false_iff]
      exact fun met => unmet ((contains_toNat block).1 met)
    rw [bytes, mem', landBlocks_inside _ _ _ _ 512 block place fine whole]
  · rw [held, promotedPage_poison]
    exact mem_badLines block line ((contains_toNat block).2 met)
  · intro j other
    rw [closes.kmem, landed_kmem, if_neg (kennel ▸ other), past.kmem]
  · rw [bytes, mem', landBlocks_outside _ _ _ _ 512 (by unfold pageBytes at out ⊢; omega), Mem.byte_zero, if_neg (by omega)]
  · rw [closes.pages, landed_other _ _ _ _ other, past.pages]

/-- R240: a block map that contradicts itself makes its page LOST. -/
theorem promotionLoses (awake : Awake s.d) (up : g.up = true) (bad : mapBad (page s.d k.toNat pg.toNat) = true) :
    ∃ d, exec (.migrationComplete k pg (ues, [])) s = becomes s (settle d) ∧ (page d k.toNat pg.toNat).st = .lost ∧ LeavesOthers k.toNat pg.toNat g.key s.d d := by
  have past := migOver_over s.d m.toNat g.key g.up (ues.map BitVec.toNat)
  have effect := execMigrationComplete_eq named home found awake (ues := ues) rfl
  generalize migOver s.d m.toNat g.key g.up (ues.map BitVec.toNat) = c at past effect
  have own : (Tbl.get {} c.pages g.key : Page) = page s.d k.toNat pg.toNat := by rw [past.pages, named, page]
  simp only [own, bad, up, Bool.and_self, if_true] at effect
  have before (j : Nat) : kmem (metaError c g.key) j = kmem s.d j := by
    rw [← past.kmem, metaError]
    rfl
  refine ⟨metaError c g.key, effect, ?_, fun j _ => before j, fun x _ => by rw [before], fun j other => ?_⟩
  · rw [page, ← named, metaError, report_pages, get_modPage_self]
  · rw [metaError, report_pages, get_modPage_other _ _ other, past.pages]

/-- R225, R242: a demotion ends. -/
theorem demotionEnds (awake : Awake s.d) (apart : ∀ w ∈ s.d.waits, waitKey w ≠ g.key) (down : g.up = false) (nobody : wantFrame s.d m.toNat = []) :
    ∃ d, exec (.migrationComplete k pg (ues, [])) s = becomes s (settle d) ∧ (d.reports = [] → settle d = d)
      ∧ (page d k.toNat pg.toNat).st = .far
      ∧ (let img := ues.foldl (fun i b => Tbl.set {} i b.toNat (poisonBlock (page s.d k.toNat pg.toNat).etype)) (pageImage s.d g.key)
        let gs := pickGranules (imageGranules img) (takenGranules (mdie s.d m.toNat)) (page s.d k.toNat pg.toNat).pid 0
        (page d k.toNat pg.toNat).image = img ∧ (page d k.toNat pg.toNat).extent = gs ∧ (mdie d m.toNat).far = (mdie s.d m.toNat).far ++ gs)
      ∧ (mdie d m.toNat).frames = (mdie s.d m.toNat).frames.filter (· != (page s.d k.toNat pg.toNat).frame) ∧ LeavesOthers k.toNat pg.toNat g.key s.d d := by
  have past := migOver_over s.d m.toNat g.key g.up (ues.map BitVec.toNat)
  have effect := execMigrationComplete_eq named home found awake (ues := ues) rfl
  generalize migOver s.d m.toNat g.key g.up (ues.map BitVec.toNat) = c at past effect
  have own : (Tbl.get {} c.pages g.key : Page) = page s.d k.toNat pg.toNat := by rw [past.pages, named, page]
  simp only [down, Bool.false_and, Bool.false_eq_true, if_false] at effect
  have closes := demoted_closes (ues.map BitVec.toNat) (wantFrame_stowed (ues.map BitVec.toNat) past nobody apart)
  have extent : demotedExtent c m.toNat g.key (ues.map BitVec.toNat) = pickGranules (imageGranules (demotedImage c g.key (ues.map BitVec.toNat)))
      (takenGranules (mdie s.d m.toNat)) (page s.d k.toNat pg.toNat).pid 0 := by
    rw [demotedExtent, own, past.rest]
    rfl
  have image : demotedImage c g.key (ues.map BitVec.toNat) = ues.foldl (fun i b => Tbl.set {} i b.toNat (poisonBlock (page s.d k.toNat pg.toNat).etype)) (pageImage s.d g.key) := by
    have same : pageImage c g.key = pageImage s.d g.key := by simp only [pageImage, past.pages, past.kmem]
    rw [demotedImage, List.foldl_map, own, same]
  have held : page (demoted c m.toNat g.key (ues.map BitVec.toNat)) k.toNat pg.toNat
      = demotedPage (demotedImage c g.key (ues.map BitVec.toNat)) (demotedExtent c m.toNat g.key (ues.map BitVec.toNat)) (Tbl.get {} (freeFrame c g.key m.toNat).pages g.key) := by
    rw [page, ← named, closes.pages, stowed_page]
  have die : mdie (stowed c m.toNat g.key (ues.map BitVec.toNat)) m.toNat = _ := stowed_mdie ..
  rw [freeFrame_mdie, own, past.rest] at die
  have kennel : g.key / 8388608 = k.toNat := named ▸ pageKey_kennel pg.isLt
  have number : g.key % 8388608 = pg.toNat := named ▸ pageKey_page pg.isLt
  have memory (j : Nat) : kmem (demoted c m.toNat g.key (ues.map BitVec.toNat)) j = if j = k.toNat then Mem.zero (kmem s.d k.toNat) (pg.toNat * pageBytes) pageBytes else kmem s.d j := by
    rw [closes.kmem, stowed_kmem, kennel, number, past.kmem, past.kmem]
  rw [extent, image] at held die
  refine ⟨_, effect, MigOnly.settle ((past.migOnly.trans (migOnly_stowed ..)).trans closes.migOnly) awake.2, by rw [held]; rfl, ⟨by rw [held]; rfl, by rw [held]; rfl, ?_⟩, ?_,
    fun j other => ?_, fun x out => ?_, fun j other => ?_⟩
  · rw [closes.rest, die]
    rfl
  · rw [closes.rest, die]
    rfl
  · rw [memory, if_neg other]
  · rw [memory, if_pos rfl, Mem.byte_zero, if_neg (by omega)]
  · rw [closes.pages, stowed_other _ _ _ _ other, past.pages]

end Ends

/-- R218, R224, R225, R242. -/
theorem migrationsMovePages : Claim.MigrationsMovePages := by
  intro m k pg ues s g awake named p base others home
  refine ⟨fun l1 l2 few order higher rest ready => migrationStarts awake named few order higher rest ready, fun found apart => ⟨fun up sound => ?_, fun up bad => ?_, fun down nobody => ?_⟩⟩
  · exact promotionEnds named home found awake apart up sound
  · exact promotionLoses named home found awake up bad
  · exact demotionEnds named home found awake apart down nobody

end Sys2Proof.Machine

namespace Sys2Proof.Proofs

open Sys2Proof.Machine

/-- Settles O18: a migration starts on the chosen page alone, and its end writes the page's own bytes and entry alone; waits and hints change nothing else. -/
theorem migrationsAndHints : Obligations.MigrationsAndHints := ⟨migrationsMovePages, frameWaitEnds, hintsUpdate⟩

end Sys2Proof.Proofs

namespace Sys2Proof.Machine

/-! ### What an event of a port changes (R249, R250, R331) -/

/-- Of the ports only `p` differs, and beside it what the hosts are told and what is reported. -/
structure PortOnly (d e : Dev) (p : Nat) : Prop where
  others : OtherPorts d e p
  frame : e = { hostOf d e with ports := e.ports, reports := e.reports }

section PortOnly

variable {a b c d e : Dev} {p : Nat}

theorem PortOnly.refl (d : Dev) (p : Nat) : PortOnly d d p := ⟨fun _ _ => rfl, rfl⟩

theorem PortOnly.trans (first : PortOnly a b p) (second : PortOnly b c p) : PortOnly a c p :=
  ⟨fun q other => (second.others q other).trans (first.others q other), by rw [second.frame, first.frame]⟩

theorem HostOnly.portOnly (only : HostOnly d e) (p : Nat) : PortOnly d e p := by
  rw [← only]
  exact ⟨fun _ _ => rfl, rfl⟩

theorem portOnly_modPort (d : Dev) (p : Nat) (f : Port → Port) : PortOnly d (modPort d p f) p := ⟨fun _ other => port_modPort_other _ _ _ _ other, rfl⟩

/-- Ports differ, and what the hosts are told. -/
def LinksOnly (d e : Dev) : Prop := e = { hostOf d e with ports := e.ports }

theorem LinksOnly.trans (first : LinksOnly a b) (second : LinksOnly b c) : LinksOnly a c := by
  unfold LinksOnly at *
  rw [second, first]

theorem LinksOnly.calm (only : LinksOnly d e) (calm : Calm d) : Calm e := by
  rw [LinksOnly] at only
  exact calm.of_eq ⟨by rw [only], by rw [only]⟩ (by rw [only])

theorem PortsOnly.links (only : PortsOnly d e) : LinksOnly d e := by
  obtain ⟨ps, rfl⟩ := only
  rfl

theorem HostOnly.links (only : HostOnly d e) : LinksOnly d e := by
  rw [LinksOnly, ← only]

/-- A change of one port of which nothing is reported. -/
structure QuietPort (d e : Dev) (p : Nat) : Prop extends PortOnly d e p where
  quiet : e.reports = d.reports

theorem QuietPort.trans (first : QuietPort a b p) (second : QuietPort b c p) : QuietPort a c p :=
  ⟨first.toPortOnly.trans second.toPortOnly, second.quiet.trans first.quiet⟩

theorem QuietPort.whole (only : QuietPort d e p) : LinksOnly d e := by
  have frame := only.frame
  rw [only.quiet] at frame
  exact frame

theorem QuietPort.calm (only : QuietPort d e p) (calm : Calm d) : Calm e := only.whole.calm calm

theorem quietPort_modPort (d : Dev) (p : Nat) (f : Port → Port) : QuietPort d (modPort d p f) p := ⟨portOnly_modPort .., rfl⟩

theorem HostOnly.quietPort (only : HostOnly d e) (p : Nat) : QuietPort d e p := ⟨only.portOnly p, only.keeps.2.1.1⟩

theorem raise_ports (d : Dev) (v : Ev) : (raise d v).ports = d.ports := by rw [← HostOnly.raise d v]

theorem port_raise (d : Dev) (v : Ev) (p : Nat) : port (raise d v) p = port d p := by rw [port, raise_ports, port]

end PortOnly

/-- A fault is reported of each kennel of a list that runs a task, in order. -/
theorem each_taskFault {α : Type} (d : Dev) (xs : List α) (key : α → Nat) (kind : FaultKind) : each d xs (fun d x => taskFault d (key x) kind)
    = { d with reports := d.reports ++ (xs.filter (fun x => runsTask d (key x))).map (fun x => .fault (key x) kind) } := by
  induction xs generalizing d with
  | nil => simp [each]
  | cons x r ih =>
    refine (ih (taskFault d (key x) kind)).trans ?_
    unfold taskFault
    cases runs : runsTask d (key x) with
    | false => simp [runs]
    | true =>
      have same (k : Nat) : runsTask (report d (.fault (key x) kind)) k = runsTask d k := runsTask_tasks rfl k
      simp only [if_true, same, List.filter_cons, runs, List.map_cons]
      simp [report]

/-- What is reported as a port leaves UP: a fault of each task through it, and its neighbour. -/
def leavingUp (d : Dev) (p : Nat) : List Report :=
  ((tasksThrough d p).filter (runsTask d)).map (.fault · .task) ++ [.neighbour (port d p).peerMod]

theorem leaveUp_eq (d : Dev) (p : Nat) :
    leaveUp d p = modPort { d with reports := d.reports ++ leavingUp d p } p (fun x => { x with bark := { x.bark with alive := false } }) := by
  have faults := each_taskFault d (tasksThrough d p) id .task
  simp only [id] at faults
  simp only [leaveUp, faults, report, leavingUp, List.append_assoc]

/-- A port as it enters a state at ECLK t: one that leaves UP no longer counts its neighbour as alive. -/
def entering (t : Nat) (st : PState) (cause : Nat) (x : Port) : Port := { x with
  st := st, cause := cause, since := t, esc := none
  bark := if x.st = .up && st ≠ .up then { x.bark with alive := false } else x.bark }

theorem modPort_congr {d : Dev} {p : Nat} {f g : Port → Port} (same : f (port d p) = g (port d p)) : modPort d p f = modPort d p g :=
  congrArg (fun x => { d with ports := Tbl.set {} d.ports p x }) same

section SetPort

variable (d : Dev) (p : Nat) (st : PState) (cause : Nat)

/-- The device with its port in another state, before the hosts are told. -/
def portEntered (d : Dev) (p : Nat) (st : PState) (cause : Nat) : Dev :=
  modPort { d with reports := if (port d p).st = .up && st ≠ .up then d.reports ++ leavingUp d p else d.reports } p (entering d.eclk st cause)

theorem setPort_entered : HostOnly (portEntered d p st cause) (setPort d p st cause) := by
  have moves : setPort d p st cause = if (port d p).st = st then portEntered d p st cause
      else raise (portEntered d p st cause) (evLinkState p st.code cause (port d p).peerMod) := by
    unfold setPort portEntered
    cases leaves : decide ((port d p).st = .up) && decide (st ≠ .up) with
    | false =>
      have same : modPort d p (fun x => { x with st := st, cause := cause, since := d.eclk, esc := none }) = modPort d p (entering d.eclk st cause) :=
        modPort_congr (by rw [entering, leaves]; rfl)
      simp only [leaves, Bool.false_eq_true, if_false, same]
    | true =>
      have same : modPort (leaveUp d p) p (fun x => { x with st := st, cause := cause, since := (leaveUp d p).eclk, esc := none })
          = modPort { d with reports := d.reports ++ leavingUp d p } p (entering d.eclk st cause) := by
        rw [leaveUp_eq, modPort_modPort]
        refine modPort_congr ?_
        show _ = entering d.eclk st cause (port d p)
        rw [entering, leaves]
        rfl
      simp only [leaves, if_true, same]
  rw [moves]
  exact iteInduction (fun _ => .refl _) fun _ => HostOnly.raise ..

theorem port_setPort : port (setPort d p st cause) p = entering d.eclk st cause (port d p) := by
  rw [port, ← setPort_entered]
  exact port_modPort ..

theorem portOnly_setPort : PortOnly d (setPort d p st cause) p := by
  refine PortOnly.trans ⟨fun _ other => ?_, rfl⟩ ((setPort_entered d p st cause).portOnly p)
  exact port_modPort_other _ _ _ _ other

theorem setPort_reports : (setPort d p st cause).reports = if (port d p).st = .up && st ≠ .up then d.reports ++ leavingUp d p else d.reports := by
  rw [← setPort_entered]
  rfl

variable {d p} in
/-- A port that is not UP changes its state without a report. -/
theorem quietPort_setPort (away : (port d p).st ≠ .up) : QuietPort d (setPort d p st cause) p := ⟨portOnly_setPort .., by simp [setPort_reports, away]⟩

end SetPort

section Training

variable (d : Dev) (p : Nat)

theorem port_toTraining : port (toTraining d p) p = { entering d.eclk .training 0 (port d p) with version := 0 } := by
  rw [toTraining, port_modPort, port_setPort]

theorem portOnly_toTraining : PortOnly d (toTraining d p) p := (portOnly_setPort ..).trans (portOnly_modPort ..)

theorem toTraining_reports : (toTraining d p).reports = (setPort d p .training 0).reports := rfl

theorem port_restartPort : port (restartPort d p) p = { entering d.eclk .training 0 (port d p) with version := 0, tries := 0, trainFails := 0 } := by
  rw [restartPort, port_modPort, port_setPort]

variable {d p} (away : (port d p).st ≠ .up) (cause : Nat)
include away

theorem quietPort_restartPort : QuietPort d (restartPort d p) p := (quietPort_setPort _ _ away).trans (quietPort_modPort ..)

theorem quietPort_toTraining : QuietPort d (toTraining d p) p := (quietPort_setPort _ _ away).trans (quietPort_modPort ..)

/-- A failed try counts, and the third ends the bring-up. -/
theorem failTry_counts : QuietPort d (failTry d p cause) p ∧ (port (failTry d p cause) p).tries = (port d p).tries + 1
    ∧ (port (failTry d p cause) p).st = (if (port d p).tries + 1 ≥ 3 then .failed else .training)
    ∧ ((port d p).tries + 1 ≥ 3 → (port (failTry d p cause) p).cause = cause) ∧ (port (failTry d p cause) p).cnt = (port d p).cnt := by
  have counted : port (modPort d p (fun x => { x with tries := x.tries + 1 })) p = { port d p with tries := (port d p).tries + 1 } := port_modPort ..
  have only := quietPort_modPort d p (fun x => { x with tries := x.tries + 1 })
  unfold failTry
  simp only
  generalize modPort d p (fun x => { x with tries := x.tries + 1 }) = e at *
  have still : (port e p).st ≠ .up := by rw [counted]; exact away
  by_cases last : 3 ≤ (port d p).tries + 1
  · have ends : 3 ≤ (port e p).tries := by rw [counted]; exact last
    rw [if_pos ends, port_setPort, counted]
    exact ⟨only.trans (quietPort_setPort _ _ still), rfl, (if_pos last).symm, fun _ => rfl, rfl⟩
  · have more : ¬ 3 ≤ (port e p).tries := by rw [counted]; exact last
    rw [if_neg more, port_toTraining, counted]
    exact ⟨only.trans (quietPort_toTraining still), rfl, (if_neg last).symm, fun ends => absurd ends last, rfl⟩

end Training

/-- A command that changes one port, and reports nothing. -/
theorem run_port {c : Instr} {f : Dev → Dev} {s : State} {e : Dev} {p : Nat} {q : Port → Prop} (awake : Awake s.d) (runs : exec c s = run f s)
    (effect : f s.d = e) (only : QuietPort s.d e p) (holds : q (port e p)) :
    ∃ t, exec c s = .next t ∧ q (port t.d p) ∧ OtherPorts s.d t.d p ∧ t.d = { hostOf s.d t.d with ports := t.d.ports } :=
  ⟨{ s with d := e }, runs.trans (run_becomes awake effect (only.calm awake.2)), holds, only.others, only.whole⟩

/-- The word of PORT_ENABLE: `EN` as written, and no `RETRAIN`. -/
theorem enableWord_bits (v : DWord) : bit (v &&& ~~~(mask 64 62 62)) 63 = bit v 63 ∧ bit (v &&& ~~~(mask 64 62 62)) 62 = false := by
  simp [bit, mask]

/-- The word of PORT_RETRAIN: `EN` as written, and `RETRAIN`. -/
theorem retrainWord_bits (v : DWord) : bit (v ||| mask 64 62 62) 63 = bit v 63 ∧ bit (v ||| mask 64 62 62) 62 = true := by
  simp [bit, mask]

section PortWrite

variable (d : Dev) (p : Nat) (v : DWord)

/-- The configuration has been written. -/
def configured (d : Dev) (p : Nat) (v : DWord) : Dev := modPort d p (fun x => { x with cfg := accWrite portRw 0 x.cfg v })

theorem port_configured : port (configured d p v) p = { port d p with cfg := accWrite portRw 0 (port d p).cfg v } := port_modPort ..

variable {d p v}

theorem portWrite_disables (off : bit v 63 = false) (was : (port d p).st ≠ .disabled) : portWrite d p v = setPort (configured d p v) p .disabled 0 := by
  simp [portWrite, off, was, configured]

theorem portWrite_restarts (on : bit v 63 = true) (anew : bit v 62 = true ∨ bit (port d p).cfg 63 = false ∨ (port d p).st = .failed) :
    portWrite d p v = restartPort (configured d p v) p := by
  have restarts : (bit v 62 || !bit (port d p).cfg 63 || (port d p).st = .failed) = true := by simpa [or_assoc] using anew
  simp only [portWrite, on, restarts, Bool.not_true, Bool.false_eq_true, if_false, if_true, configured]

end PortWrite

section TrainingTimeout

variable {d : Dev} {p : Nat} (training : (port d p).st = .training)
include training

theorem trainingComplete_qualifies : trainingComplete d p = setPort (modPort d p (fun x => { x with trainFails := 0 })) p .qualifying 0 := by
  simp [trainingComplete, inState, training]

/-- A training that has lasted too long counts, and the third in a row fails the port. -/
theorem trainingTimeout_counts (late : due d (port d p).since (ms 500) = true) : QuietPort d (trainingTimeout d p) p
    ∧ (port (trainingTimeout d p) p).trainFails = (port d p).trainFails + 1
    ∧ (port (trainingTimeout d p) p).st = (if (port d p).trainFails + 1 ≥ 3 then .failed else .training)
    ∧ ((port d p).trainFails + 1 ≥ 3 → (port (trainingTimeout d p) p).cause = 1) := by
  have counted : port (modPort d p (fun x => { x with trainFails := x.trainFails + 1, since := d.eclk })) p
      = { port d p with trainFails := (port d p).trainFails + 1, since := d.eclk } := port_modPort ..
  have only := quietPort_modPort d p (fun x => { x with trainFails := x.trainFails + 1, since := d.eclk })
  have counts : trainingTimeout d p = if (port d p).trainFails + 1 ≥ 3 then setPort (modPort d p (fun x => { x with trainFails := x.trainFails + 1, since := d.eclk })) p .failed 1
      else modPort d p (fun x => { x with trainFails := x.trainFails + 1, since := d.eclk }) := by
    simp [trainingTimeout, training, late]
  rw [counts]
  generalize modPort d p (fun x => { x with trainFails := x.trainFails + 1, since := d.eclk }) = e at *
  by_cases last : (port d p).trainFails + 1 ≥ 3
  · have still : (port e p).st ≠ .up := by rw [counted]; simp [training]
    rw [if_pos last, port_setPort, counted]
    exact ⟨only.trans (quietPort_setPort _ _ still), rfl, (if_pos last).symm, fun _ => rfl⟩
  · rw [if_neg last, counted]
    exact ⟨only, rfl, training.trans (if_neg last).symm, fun ends => absurd ends last⟩

end TrainingTimeout

theorem negotiateTimeout_counts {d : Dev} {p : Nat} (negotiating : (port d p).st = .negotiating) (late : due d (port d p).since (ms 10) = true) :
    QuietPort d (negotiateTimeout d p) p ∧ (port (negotiateTimeout d p) p).tries = (port d p).tries + 1
    ∧ (port (negotiateTimeout d p) p).st = (if (port d p).tries + 1 ≥ 3 then .failed else .training)
    ∧ ((port d p).tries + 1 ≥ 3 → (port (negotiateTimeout d p) p).cause = 3) := by
  have fails : negotiateTimeout d p = failTry d p 3 := by simp [negotiateTimeout, negotiating, late]
  obtain ⟨only, tries, st, cause, -⟩ := failTry_counts (by rw [negotiating]; decide) 3
  rw [fails]
  exact ⟨only, tries, st, cause⟩

/-- R249, R250, R266. -/
theorem portBringUp : Claim.PortBringUp := by
  intro p s v awake x moves
  have config (w : DWord) : QuietPort s.d (configured s.d p.toNat w) p.toNat := quietPort_modPort ..
  have away (w : DWord) (down : x.st ≠ .up) : (port (configured s.d p.toNat w) p.toNat).st ≠ .up := by
    rw [port_configured]
    exact down
  have restarts (w : DWord) (down : x.st ≠ .up) : QuietPort s.d (restartPort (configured s.d p.toNat w) p.toNat) p.toNat :=
    (config w).trans (quietPort_restartPort (away w down))
  have changes {c : Instr} {q : Port → Prop} {f : Dev → Dev} (runs : exec c s = run f s) {e : Dev} (effect : f s.d = e) (only : QuietPort s.d e p.toNat)
      (holds : q (port e p.toNat)) : moves c q := run_port awake runs effect only holds
  clear_value moves
  refine ⟨fun down on anew => ?_, fun down off was => ?_, fun down on => ?_, fun training => ?_, fun training late => ?_, fun negotiating late => ?_⟩
  · obtain ⟨en, -⟩ := enableWord_bits v
    refine changes rfl (portWrite_restarts (en.trans on) (.inr anew)) (restarts _ down) ?_
    rw [port_restartPort]
    exact ⟨rfl, rfl⟩
  · obtain ⟨en, -⟩ := enableWord_bits v
    refine changes rfl (portWrite_disables (en.trans off) was) ((config _).trans (quietPort_setPort _ _ (away _ down))) ?_
    rw [port_setPort]
    rfl
  · obtain ⟨en, retrain⟩ := retrainWord_bits v
    refine changes rfl (portWrite_restarts (en.trans on) (.inl retrain)) (restarts _ down) ?_
    rw [port_restartPort]
    exact ⟨rfl, rfl, rfl⟩
  · have still : (port (modPort s.d p.toNat (fun x => { x with trainFails := 0 })) p.toNat).st ≠ .up := by simp [show (port s.d p.toNat).st = .training from training]
    refine changes rfl (trainingComplete_qualifies training) ((quietPort_modPort ..).trans (quietPort_setPort _ _ still)) ?_
    rw [port_setPort, port_modPort]
    exact ⟨rfl, rfl⟩
  · obtain ⟨only, counts⟩ := trainingTimeout_counts training late
    exact changes rfl rfl only counts
  · obtain ⟨only, counts⟩ := negotiateTimeout_counts negotiating late
    exact changes rfl rfl only counts

end Sys2Proof.Machine

namespace Sys2Proof.Machine

/-! ### Loss of PCS lock (R250, R331) -/

theorem inState_iff (d : Dev) (p : Nat) (st : PState) : inState d p st = true ↔ (port d p).st = st := by simp [inState]

theorem isUp_iff (d : Dev) (p : Nat) : isUp d p = true ↔ (port d p).st = .up := by simp [isUp]

/-- Without tasks a stopped neighbour concerns nobody. -/
theorem settle_neighbour {d : Dev} {m : Nat} (none' : d.tasks = []) (undelivered : d.delivered = []) (told : d.reports = [.neighbour m]) :
    settle d = { d with reports := [] } := by
  simp [settle, parityResults, deliverRoots, each, taskKeys, none', undelivered, told, onReports, onReport, onNeighbour]

theorem toTraining_leaves {d : Dev} {p : Nat} (up : (port d p).st = .up) : (toTraining d p).reports = d.reports ++ leavingUp d p := by
  simp [toTraining_reports, setPort_reports, up]

/-- R250, R331. -/
theorem pcsLossRetrains : Claim.PcsLossRetrains := by
  intro p s awake
  refine ⟨fun down => run_becomes awake ?_ awake.2, fun up => ⟨toTraining s.d p.toNat, run_settles awake ?_, fun none' => ?_, ?_, ?_, ?_, ?_, ?_, ?_, ?_⟩⟩
  · exact if_neg (mt (isUp_iff ..).1 down)
  · exact if_pos ((isUp_iff ..).2 up)
  · have only := (portOnly_toTraining s.d p.toNat).frame
    have idle (k : Nat) : runsTask s.d k = false := by simp [runsTask, task, none', Tbl.get]
    have told : (toTraining s.d p.toNat).reports = [.neighbour (port s.d p.toNat).peerMod] := by
      rw [toTraining_leaves up, awake.2.1.1, leavingUp, List.filter_eq_nil_iff.2 fun k _ => by simp [idle]]
      rfl
    exact settle_neighbour (by rw [only]; exact none') (by rw [only]; exact awake.2.1.2) told
  · rw [port_toTraining]
    rfl
  · rw [port_toTraining]
  · rw [port_toTraining]
    simp [entering, up]
  · rw [toTraining_leaves up, leavingUp]
    simp
  · intro k through runs
    rw [toTraining_leaves up, leavingUp]
    simp [through, runs]
  · exact (portOnly_toTraining ..).others
  · exact (portOnly_toTraining ..).frame

end Sys2Proof.Machine

namespace Sys2Proof.Machine

/-! ### Qualifying (R249, R255, R258, R285, R385) -/

/-- A flit that waits to be forwarded no longer holds a receive buffer of port p. -/
def unbuffered (p : Nat) (q : List Flit) : List Flit := q.map (fun f => if f.origin.any (fun o => o.1 == p) then { f with origin := none } else f)

/-- A port none of whose flits holds a receive buffer of port p. -/
def freedPort (p : Nat) (x : Port) : Port := { x with link := { x.link with q2 := unbuffered p x.link.q2 } }

theorem freeBuffers_eq (d : Dev) (p : Nat) : freeBuffers d p = each d (List.range 16) (fun d q => modPort d q (freedPort p)) := rfl

theorem portsOnly_freeBuffers (d : Dev) (p : Nat) : PortsOnly d (freeBuffers d p) := PortsOnly.each (fun _ _ => portsOnly_modPort ..) _ d

theorem port_freeBuffers (d : Dev) (p : Nat) {q : Nat} (inside : q < 16) : port (freeBuffers d p) q = freedPort p (port d q) := by
  rw [freeBuffers_eq, port_each_modPort (fun _ => freedPort p) d List.nodup_range q, if_pos (List.mem_range.2 inside)]

/-- Kennels other than 0 that a port carries, with a current link key (R385). -/
def keyedKennels (d : Dev) (p : Nat) : List Nat := (List.range 64).filter (fun k => k != 0 && bit (port d p).kmask k && (kennel d k).cur.isSome)

/-- One link epoch more under the keys of the kennels `ks`. -/
def epochsBegun (ks : List Nat) (t : Tbl Nat) : Tbl Nat := ks.foldl (fun t k => Tbl.set 0 t k (min 256 (Tbl.get 0 t k + 1))) t

theorem get_epochsBegun {ks : List Nat} (distinct : ks.Nodup) (t : Tbl Nat) (k : Nat) :
    Tbl.get 0 (epochsBegun ks t) k = if k ∈ ks then min 256 (Tbl.get 0 t k + 1) else Tbl.get 0 t k :=
  Tbl.get_foldl_modify 0 (fun _ v => min 256 (v + 1)) distinct t k

/-- The link layer of a port that has qualified starts afresh at ECLK t; what waits to be sent stays. -/
def linkAfresh (t : Nat) (ks : List Nat) (x : Port) : Port := { x with
  link := { ackAt := t, q0 := x.link.q0.filter isTcred, q1 := x.link.q1, q2 := x.link.q2, q3 := x.link.q3 }
  epoch := (x.epoch + 1) % 256, nonces := [], kEpochs := epochsBegun ks x.kEpochs }

theorem toNegotiating_starts (d : Dev) (p : Nat) : HostOnly
    (modPort (freeBuffers (setPort d p .negotiating 0) p) p
      (linkAfresh (freeBuffers (setPort d p .negotiating 0) p).eclk (keyedKennels (freeBuffers (setPort d p .negotiating 0) p) p)))
    (toNegotiating d p) := HostOnly.each _ _ _ fun _ _ => HostOnly.raise ..

section Qualified

variable {d : Dev} {p : Nat} (inside : p < 16)

theorem kennel_congr {d e : Dev} (same : e.kennels = d.kennels) (k : Nat) : kennel e k = kennel d k := by rw [kennel, same, kennel]

include inside in
theorem port_toNegotiating : port (toNegotiating d p) p
    = linkAfresh d.eclk (keyedKennels d p) (freedPort p (entering d.eclk .negotiating 0 (port d p))) := by
  have moved := (portOnly_setPort d p .negotiating 0).frame
  have here := port_setPort d p .negotiating 0
  have starts := toNegotiating_starts d p
  generalize setPort d p .negotiating 0 = b at *
  obtain ⟨ps, freed⟩ := portsOnly_freeBuffers b p
  have own : port (freeBuffers b p) p = freedPort p (entering d.eclk .negotiating 0 (port d p)) := (port_freeBuffers b p inside).trans (by rw [here])
  generalize freeBuffers b p = c at *
  have clock : c.eclk = d.eclk := by rw [freed, moved]
  have keyed : keyedKennels c p = keyedKennels d p := by
    have kennels (k : Nat) : kennel c k = kennel d k := kennel_congr (by rw [freed, moved]) k
    simp only [keyedKennels, own, kennels]
    rfl
  rw [port, ← starts, clock, keyed]
  exact (port_modPort ..).trans (by rw [own])

theorem port_toNegotiating_other {q : Nat} (other : q ≠ p) (within : q < 16) : port (toNegotiating d p) q = freedPort p (port d q) := by
  have others := (portOnly_setPort d p .negotiating 0).others q other
  have starts := toNegotiating_starts d p
  generalize setPort d p .negotiating 0 = b at *
  have freed : port (freeBuffers b p) q = freedPort p (port d q) := (port_freeBuffers b p within).trans (by rw [others])
  generalize freeBuffers b p = c at *
  rw [port, ← starts]
  exact (port_modPort_other c p q _ other).trans freed

/-- A port that is not UP starts its link layer with nothing changed but ports and what the hosts are told. -/
theorem linksOnly_toNegotiating (away : (port d p).st ≠ .up) : LinksOnly d (toNegotiating d p) :=
  (((quietPort_setPort .negotiating 0 away).whole.trans (portsOnly_freeBuffers ..).links).trans (portsOnly_modPort ..).links).trans (toNegotiating_starts d p).links

end Qualified

/-- The codewords and symbols of the window count. -/
def windowCounted (d : Dev) (p ucw csym : Nat) : Dev := modPort d p (fun x => { x with cnt := { x.cnt with
  fecUcw := x.cnt.fecUcw + BitVec.ofNat 32 ucw, fecCsym := x.cnt.fecCsym + BitVec.ofNat 32 csym } })

theorem qualifyEnd_due {d : Dev} {p : Nat} (ucw csym syms : Nat) (qualifying : (port d p).st = .qualifying) (late : due d (port d p).since (ms 100) = true) :
    qualifyEnd d p ucw csym syms = if ucw = 0 ∧ csym * 1000000 ≤ syms then toNegotiating (windowCounted d p ucw csym) p
      else failTry (windowCounted d p ucw csym) p 2 := by
  simp [qualifyEnd, qualifying, late, windowCounted]

theorem mem_keyedKennels {d : Dev} {p k : Nat} (few : k < 64) :
    k ∈ keyedKennels d p ↔ k ≠ 0 ∧ bit (port d p).kmask k = true ∧ (kennel d k).cur.isSome = true := by
  simp [keyedKennels, few, and_assoc]

/-- R249, R254, R255, R258, R385. -/
theorem qualifyingEnds : Claim.QualifyingEnds := by
  intro p s ucw csym syms awake qualifying late x frees
  have ends : qualifyEnd s.d p.toNat ucw csym syms = _ := qualifyEnd_due ucw csym syms qualifying late
  have counted : QuietPort s.d (windowCounted s.d p.toNat ucw csym) p.toNat := quietPort_modPort ..
  have own : port (windowCounted s.d p.toNat ucw csym) p.toNat = _ := port_modPort ..
  have keyed : keyedKennels (windowCounted s.d p.toNat ucw csym) p.toNat = keyedKennels s.d p.toNat := by
    simp only [keyedKennels, own]
    rfl
  have clock : (windowCounted s.d p.toNat ucw csym).eclk = s.d.eclk := rfl
  have away : (port (windowCounted s.d p.toNat ucw csym) p.toNat).st ≠ .up := by
    rw [own]
    exact fun up => nomatch qualifying.symm.trans up
  generalize windowCounted s.d p.toNat ucw csym = b at *
  by_cases clean : ucw = 0 ∧ csym * 1000000 ≤ syms
  · rw [if_pos clean] at ends
    have links := counted.whole.trans (linksOnly_toNegotiating away)
    have mine := port_toNegotiating (d := b) p.isLt
    rw [own, keyed, clock] at mine
    refine ⟨_, run_becomes awake ends (links.calm awake.2), links, by rw [mine]; rfl, fun _ _ => ?_, fun bad => ?_⟩
    refine ⟨by rw [mine]; rfl, by rw [mine]; rfl, by rw [mine]; rfl, by rw [mine]; rfl, fun k few => ?_, fun q within other => ?_⟩
    · have begun := get_epochsBegun (ks := keyedKennels s.d p.toNat) (List.nodup_range.filter _) x.kEpochs k
      simp only [mem_keyedKennels few] at begun
      rw [mine]
      exact begun
    · rw [port_toNegotiating_other other within, counted.others q other]
      rfl
    · omega
  · rw [if_neg clean] at ends
    obtain ⟨only, tries, st, -, cnt⟩ := failTry_counts away 2
    rw [own] at tries st cnt
    have whole := counted.trans only
    exact ⟨_, run_becomes awake ends (whole.calm awake.2), whole.whole, cnt, fun none' few => absurd ⟨none', few⟩ clean, fun _ => ⟨tries, st, whole.others⟩⟩

end Sys2Proof.Machine

namespace Sys2Proof.Proofs

open Sys2Proof.Machine

/-- Settles O19: each event of bring-up is one change of state of its own port; only leaving UP is reported, and only qualifying frees buffers of other ports. -/
theorem portsComeUp : Obligations.PortsComeUp := ⟨portBringUp, qualifyingEnds, pcsLossRetrains⟩

end Sys2Proof.Proofs

namespace Sys2Proof.Machine

/-! ### Negotiation (R264) -/

/-- A NEG or a NEG_DONE waits in its port's queue, for it needs no key (R258, R263). -/
theorem sendFlit_unkeyed {d : Dev} {p : Nat} {f : Flit} (link : f.tc = 0) (plain : needsKey0 f = false) (negotiating : (port d p).st = .negotiating) :
    sendFlit d p f = modPort d p (queued f) := by
  have ready : (if f.tc != 0 || isTcred f then true else if needsKey0 f then isUp d p && (kennel d 0).cur.isSome else (port d p).st == .negotiating || isUp d p) = true := by
    simp [plain, negotiating]
  unfold sendFlit
  rw [if_pos ready, link]
  rfl

theorem code_negFlit (d : Dev) {p : Nat} (inside : p < 16) : fld (negFlit d p).tsf 63 56 = 1 := by
  have kind : fld (put 64 56 1) 63 56 = 1 := by decide
  have offers : fld (put 64 54 (fld (port d p).cfg 61 60)) 63 56 = 0 := fld_put_below (fld_lt _ 61 60) (by decide)
  have names : fld (put 64 42 (d.epochRun.moduleNo % 4096)) 63 56 = 0 := fld_put_below ((Nat.mod_lt _ (by decide)).trans (by decide)) (by decide)
  have place : fld (put 64 38 p) 63 56 = 0 := fld_put_below (inside.trans (by decide)) (by decide)
  rw [negFlit, fld_or, fld_or, fld_or, kind, offers, names, place]
  rfl

theorem code_negDoneFlit {v : Nat} (version : v < 4) : fld (negDoneFlit v).tsf 63 56 = 2 := by
  have kind : fld (put 64 56 2) 63 56 = 2 := by decide
  have chosen : fld (put 64 54 v) 63 56 = 0 := fld_put_below version (by decide)
  rw [negDoneFlit, fld_or, kind, chosen]
  rfl

theorem needsKey0_unkeyed {f : Flit} (kind : f.ftype = 1) (code : fld f.tsf 63 56 = 1 ∨ fld f.tsf 63 56 = 2) : needsKey0 f = false := by
  rcases code with code | code <;> simp [needsKey0, kind, code]

section NegSend

variable {d : Dev} {p : Nat}

theorem negSend_sends (inside : p < 16) (negotiating : (port d p).st = .negotiating) (open' : (port d p).link.chosen = none)
    (now : ∀ t, (port d p).link.negAt = some t → due d t (us 16) = true) : negSend d p
      = modPort d p (fun y => { y with link := { y.link with q0 := y.link.q0 ++ [negFlit d p], negAt := some d.eclk } }) := by
  have plain : needsKey0 (negFlit d p) = false := needsKey0_unkeyed rfl (.inl (code_negFlit d inside))
  have sends := sendFlit_unkeyed (d := d) (p := p) (f := negFlit d p) rfl plain negotiating
  have goes : negSend d p = modPort (sendFlit d p (negFlit d p)) p (fun y => { y with link := { y.link with negAt := some d.eclk } }) := by
    cases sent : (port d p).link.negAt with
    | none => simp [negSend, negotiating, open', sent]
    | some t => simp [negSend, negotiating, open', sent, now t sent]
  rw [goes, sends, modPort_modPort]
  rfl

theorem negSend_waits (other : (port d p).st ≠ .negotiating ∨ (port d p).link.chosen ≠ none ∨ ∃ t, (port d p).link.negAt = some t ∧ due d t (us 16) = false) :
    negSend d p = d := by
  unfold negSend
  refine if_pos ?_
  rcases other with st | chosen | ⟨t, sent, early⟩
  · simp [st]
  · simp [Option.isSome_iff_ne_none.2 chosen]
  · simp [sent, early]

end NegSend

section Neg

variable {d : Dev} {p : Nat} {f : Flit}

/-- The peer that a NEG names. -/
def peered (f : Flit) (x : Port) : Port := { x with peerMod := fld f.tsf 53 42, peerPort := fld f.tsf 41 38 }

/-- Versions that a NEG and the port have in common. -/
def commonVersions (d : Dev) (p : Nat) (f : Flit) : Nat := fld f.tsf 55 54 &&& fld (port d p).cfg 61 60

/-- A NEG comes from another peer than the configured one. -/
def OtherPeer (d : Dev) (p : Nat) (f : Flit) : Prop :=
  bit (port d p).cfg 59 = true ∧ (fld f.tsf 53 42 ≠ fld (port d p).cfg 58 47 ∨ fld f.tsf 41 38 ≠ fld (port d p).cfg 46 43)

theorem negTake_ignored (other : (port d p).st ≠ .negotiating) : negTake d p f = d := if_pos other

variable (negotiating : (port d p).st = .negotiating)
include negotiating

theorem negTake_fails (bad : commonVersions d p f = 0 ∨ OtherPeer d p f) :
    negTake d p f = setPort (modPort d p (peered f)) p .failed (if commonVersions d p f = 0 then 4 else 5) := by
  by_cases none' : commonVersions d p f = 0
  · have zero : fld f.tsf 55 54 &&& fld (port d p).cfg 61 60 = 0 := none'
    simp only [negTake, negotiating, ne_eq, not_true_eq_false, if_false, zero, none', if_true]
    rfl
  · have some' : fld f.tsf 55 54 &&& fld (port d p).cfg 61 60 ≠ 0 := none'
    obtain ⟨checks, other⟩ := bad.resolve_left none'
    simp only [negTake, negotiating, ne_eq, not_true_eq_false, if_false, some', none']
    rw [if_pos (by simpa [checks] using other)]
    rfl

/-- A NEG with a common version, from the right peer, is answered unless one has been before. -/
theorem negTake_common (common : commonVersions d p f ≠ 0) (own : ¬ OtherPeer d p f) : negTake d p f
    = if (port d p).link.chosen.isSome then modPort d p (peered f) else modPort
        (sendFlit (modPort d p (peered f)) p (negDoneFlit (if commonVersions d p f ≥ 2 then 2 else 1))) p
        (fun x => { x with link := { x.link with chosen := some (if commonVersions d p f ≥ 2 then 2 else 1) } }) := by
  have some' : fld f.tsf 55 54 &&& fld (port d p).cfg 61 60 ≠ 0 := common
  simp only [negTake, negotiating, ne_eq, not_true_eq_false, if_false, some']
  rw [if_neg (by simpa [OtherPeer] using own)]
  rfl

theorem negTake_answered (common : commonVersions d p f ≠ 0) (own : ¬ OtherPeer d p f) (done : (port d p).link.chosen.isSome = true) :
    negTake d p f = modPort d p (peered f) := by
  simp only [negTake_common negotiating common own, done, if_true]

theorem negTake_answers (common : commonVersions d p f ≠ 0) (own : ¬ OtherPeer d p f) (first : (port d p).link.chosen = none) (v : Nat)
    (best : v = if commonVersions d p f ≥ 2 then 2 else 1) : negTake d p f
      = modPort d p (fun z => { peered f z with link := { z.link with q0 := z.link.q0 ++ [negDoneFlit v], chosen := some v } }) := by
  have version : v < 4 := by rw [best]; split <;> decide
  have plain : needsKey0 (negDoneFlit v) = false := needsKey0_unkeyed rfl (.inr (code_negDoneFlit version))
  have still : (port (modPort d p (peered f)) p).st = .negotiating := by rw [port_modPort]; exact negotiating
  simp only [negTake_common negotiating common own, first, Option.isSome_none, Bool.false_eq_true, if_false, ← best]
  rw [sendFlit_unkeyed rfl plain still, modPort_modPort, modPort_modPort]
  rfl

end Neg

section Agreed

variable {d : Dev} {p : Nat}

/-- The faults of tasks whose trees a ZL2 port cannot carry are all that follows the entry to UP (R270). -/
theorem zl2Faults_reports (d : Dev) (p : Nat) : ∃ rs, zl2Faults d p = { d with reports := d.reports ++ rs } := by
  unfold zl2Faults
  split
  · exact ⟨[], by rw [List.append_nil]⟩
  · exact ⟨_, each_taskFault d _ (fun z : Nat × Tree => z.2.kennel) .task⟩

theorem zl2Faults_down (down : (port d p).st ≠ .up) : zl2Faults d p = d := if_pos (by simpa [isUp] using down)

/-- Every tree may use a port of another version than ZL2. -/
theorem zl2Faults_none (other : (port d p).version ≠ 1) : zl2Faults d p = d := by
  have allowed (t : Tree) : zl2Forbids d p t = false := by simp [zl2Forbids, other]
  unfold zl2Faults
  refine iteInduction (motive := fun e => e = d) (fun _ => rfl) fun _ => ?_
  simp only [allowed, Bool.and_false, List.filter_false]
  rfl

theorem port_toUp (d : Dev) (p v : Nat) :
    port (toUp d p v) p = entering d.eclk .up 0 { port d p with version := v, slot := 0, strictUsed := [], bark := { alive := true } } := by
  rw [toUp, port_setPort, port_modPort]
  rfl

variable (negotiating : (port d p).st = .negotiating)
include negotiating

theorem quietPort_toUp (v : Nat) : QuietPort d (toUp d p v) p := by
  refine (quietPort_modPort ..).trans (quietPort_setPort .up 0 ?_)
  rw [port_modPort, negotiating]
  decide

/-- A port on which both NEG_DONE agree is UP with their version. -/
theorem zl2Faults_toUp (v : Nat) : let e := zl2Faults (toUp d p v) p
    PortOnly d e p ∧ (v ≠ 1 → QuietPort d e p) ∧ (port e p).st = .up ∧ (port e p).version = v ∧ (port e p).bark.alive = true := by
  intro e
  have only := quietPort_toUp negotiating v
  have mine := port_toUp d p v
  obtain ⟨rs, faults⟩ : ∃ rs, e = { toUp d p v with reports := (toUp d p v).reports ++ rs } := zl2Faults_reports ..
  have same : port e p = port (toUp d p v) p := by rw [faults]; rfl
  have reports : PortOnly (toUp d p v) e p := by rw [faults]; exact ⟨fun _ _ => rfl, rfl⟩
  refine ⟨only.toPortOnly.trans reports, fun full => ?_, ?_⟩
  · have none' : e = toUp d p v := zl2Faults_none (by rw [mine]; exact full)
    rw [none']
    exact only
  · rw [same, mine]
    simp [entering, negotiating]

theorem negAgree_agrees {v : Nat} (chosen : (port d p).link.chosen = some v) (received : (port d p).link.doneRcvd = some v) (sent : (port d p).link.doneSent = true) :
    negAgree d p = toUp d p v := by simp [negAgree, chosen, received, sent, inState, negotiating]

omit negotiating in
theorem negAgree_waits {v : Nat} (received : (port d p).link.doneRcvd = some v) (early : (port d p).link.chosen ≠ some v ∨ (port d p).link.doneSent = false) :
    negAgree d p = d := by
  cases chosen : (port d p).link.chosen with
  | none => simp [negAgree, chosen]
  | some a =>
    rw [chosen] at early
    have differs : (a = v && (port d p).link.doneSent) = false := by
      rcases early with other | unsent
      · simp [show a ≠ v from fun same => other (congrArg some same)]
      · simp [unsent]
    simp only [negAgree, chosen, received, differs, Bool.false_and, Bool.false_eq_true, if_false]

end Agreed

section NegDone

variable {d : Dev} {p : Nat} {f : Flit}

/-- A NEG_DONE that has been received is noted. -/
def doneNoted (v : Nat) (z : Port) : Port := { z with link := { z.link with doneRcvd := some v } }

theorem negDoneTake_ignored (other : (port d p).st ≠ .negotiating) : negDoneTake d p f = d := if_pos (by simpa [inState] using other)

theorem negDoneTake_notes (negotiating : (port d p).st = .negotiating) :
    negDoneTake d p f = zl2Faults (negAgree (modPort d p (doneNoted (fld f.tsf 55 54))) p) p := if_neg (by simp [inState, negotiating])

end NegDone

section Settled

variable {p : PortId} {s : State} {r : RxFlit} {d' : Dev}

theorem neg_fails (received : Received s.d p r .neg d') (negotiating : (port d' p.toNat).st = .negotiating)
    (bad : commonVersions d' p.toNat (held r) = 0 ∨ OtherPeer d' p.toNat (held r)) : ∃ t, exec (.neg p r) s = .next t
      ∧ (port t.d p.toNat).st = .failed ∧ (port t.d p.toNat).cause = (if commonVersions d' p.toNat (held r) = 0 then 4 else 5)
      ∧ (port t.d p.toNat).peerMod = fld r.flit.tsf 53 42 ∧ (port t.d p.toNat).peerPort = fld r.flit.tsf 41 38
      ∧ OtherPorts d' t.d p.toNat ∧ t.d = { hostOf d' t.d with ports := t.d.ports } := by
  have fails := (received.receives (fun d f => negTake d p.toNat f)).trans (negTake_fails negotiating bad)
  have away : (port (modPort d' p.toNat (peered (held r))) p.toNat).st ≠ .up := by
    rw [port_modPort]
    exact fun up => nomatch negotiating.symm.trans up
  have only := (quietPort_modPort d' p.toNat (peered (held r))).trans (quietPort_setPort .failed (if commonVersions d' p.toNat (held r) = 0 then 4 else 5) away)
  refine ⟨_, run_becomes received.1 fails (only.calm received.calm), ?_, ?_, ?_, ?_, only.others, only.whole⟩
  all_goals rw [port_setPort, port_modPort]; rfl

theorem neg_answers (received : Received s.d p r .neg d') (negotiating : (port d' p.toNat).st = .negotiating) (common : commonVersions d' p.toNat (held r) ≠ 0)
    (own : ¬ OtherPeer d' p.toNat (held r)) : exec (.neg p r) s = becomes s (modPort d' p.toNat (fun z => { peered (held r) z with
      link := if z.link.chosen.isSome then z.link else { z.link with
        q0 := z.link.q0 ++ [negDoneFlit (if commonVersions d' p.toNat (held r) ≥ 2 then 2 else 1)]
        chosen := some (if commonVersions d' p.toNat (held r) ≥ 2 then 2 else 1) } })) := by
  refine run_becomes received.1 ((received.receives _).trans ?_) (received.calm.modPort ..)
  cases chosen : (port d' p.toNat).link.chosen with
  | some a =>
    rw [negTake_answered negotiating common own (by rw [chosen]; rfl)]
    exact modPort_congr (by simp [peered, chosen])
  | none =>
    rw [negTake_answers negotiating common own chosen _ rfl]
    exact modPort_congr (by simp [peered, chosen])

theorem negDone_waits (received : Received s.d p r .negDone d') (negotiating : (port d' p.toNat).st = .negotiating)
    (early : (port d' p.toNat).link.chosen ≠ some (fld r.flit.tsf 55 54) ∨ (port d' p.toNat).link.doneSent = false) :
    exec (.negDone p r) s = becomes s (modPort d' p.toNat (doneNoted (fld r.flit.tsf 55 54))) := by
  have own : port (modPort d' p.toNat (doneNoted (fld r.flit.tsf 55 54))) p.toNat = doneNoted (fld r.flit.tsf 55 54) (port d' p.toNat) := port_modPort ..
  refine run_becomes received.1 ((received.receives _).trans ((negDoneTake_notes negotiating).trans ?_)) (received.calm.modPort ..)
  have waits : negAgree (modPort d' p.toNat (doneNoted (fld r.flit.tsf 55 54))) p.toNat = modPort d' p.toNat (doneNoted (fld r.flit.tsf 55 54)) :=
    negAgree_waits (by rw [own]; rfl) (by rw [own]; exact early)
  refine (congrArg (zl2Faults · p.toNat) waits).trans (zl2Faults_down ?_)
  rw [own]
  exact fun up => nomatch negotiating.symm.trans up

theorem negDone_up (received : Received s.d p r .negDone d') (negotiating : (port d' p.toNat).st = .negotiating)
    (chosen : (port d' p.toNat).link.chosen = some (fld r.flit.tsf 55 54)) (sent : (port d' p.toNat).link.doneSent = true) :
    ∃ d, exec (.negDone p r) s = becomes s (settle d) ∧ (fld r.flit.tsf 55 54 ≠ 1 → settle d = d) ∧ (port d p.toNat).st = .up
      ∧ (port d p.toNat).version = fld r.flit.tsf 55 54 ∧ (port d p.toNat).bark.alive = true ∧ OtherPorts d' d p.toNat
      ∧ d = { hostOf d' d with ports := d.ports, reports := d.reports } := by
  have own : port (modPort d' p.toNat (doneNoted (fld r.flit.tsf 55 54))) p.toNat = doneNoted (fld r.flit.tsf 55 54) (port d' p.toNat) := port_modPort ..
  have notes := (received.receives (fun d f => negDoneTake d p.toNat f)).trans (negDoneTake_notes negotiating)
  have hears : QuietPort d' (modPort d' p.toNat (doneNoted (fld r.flit.tsf 55 54))) p.toNat := quietPort_modPort ..
  generalize modPort d' p.toNat (doneNoted (fld r.flit.tsf 55 54)) = e at *
  have still : (port e p.toNat).st = .negotiating := by rw [own]; exact negotiating
  have agrees : negAgree e p.toNat = toUp e p.toNat (fld r.flit.tsf 55 54) :=
    negAgree_agrees still (by rw [own]; exact chosen) (by rw [own]; rfl) (by rw [own]; exact sent)
  obtain ⟨only, quiet, st, version, alive⟩ := zl2Faults_toUp still (fld r.flit.tsf 55 54)
  have whole := hears.toPortOnly.trans only
  exact ⟨_, run_settles received.1 (notes.trans (congrArg (zl2Faults · p.toNat) agrees)), fun full => settle_calm _ ((hears.trans (quiet full)).calm received.calm), st,
    version, alive, whole.others, whole.frame⟩

end Settled

end Sys2Proof.Machine

namespace Sys2Proof.Proofs

open Sys2Proof.Machine

/-- Settles O20: each of NEG_SEND, NEG and NEG_DONE is one change of its port; only the agreement of both NEG_DONE can be followed by faults. -/
theorem negotiationAgrees : Obligations.NegotiationAgrees := by
  intro p s r d' x
  refine ⟨fun awake negotiating open' now => ?_, fun awake other => ?_, fun received => ⟨fun away => ?_, neg_fails received, neg_answers received⟩,
    fun received => ⟨fun away => ?_, negDone_waits received, negDone_up received⟩⟩
  · exact run_becomes awake (negSend_sends p.isLt negotiating open' now) (awake.2.modPort ..)
  · exact run_becomes awake (negSend_waits other) awake.2
  · exact run_becomes received.1 ((received.receives _).trans (negTake_ignored away)) received.calm
  · exact run_becomes received.1 ((received.receives _).trans (negDoneTake_ignored away)) received.calm

end Sys2Proof.Proofs

namespace Sys2Proof.Machine

/-! ### Timers of a link (R250, R255, R387) -/

/-- Every flit that no ACK covers is to be sent once more. -/
def replaying (t : Nat) (y : Port) : Port := { y with
  retryF := true, cnt := { y.cnt with retry := y.cnt.retry + 1 }
  link := { y.link with resend := y.link.unacked.map (·.1), replays := y.link.replays + 1, ackAt := t } }

theorem startReplay_outstanding {d : Dev} {p : Nat} (outstanding : (port d p).link.unacked ≠ []) :
    startReplay d p = if (port d p).link.replays ≥ 8 then toTraining d p else modPort d p (replaying d.eclk) := by
  have some' : (port d p).link.unacked.isEmpty = false := by simpa [List.isEmpty_iff] using outstanding
  simp only [startReplay, some', Bool.false_eq_true, if_false]
  rfl

theorem ackTimeout_due {d : Dev} {p : Nat} (linked : (port d p).st = .up ∨ (port d p).st = .negotiating) (outstanding : (port d p).link.unacked ≠ [])
    (late : due d (port d p).link.ackAt (lclk 4096) = true) : ackTimeout d p = startReplay d p := by
  have some' : (port d p).link.unacked.isEmpty = false := by simpa [List.isEmpty_iff] using outstanding
  exact if_pos (by simp [linked, some', late])

/-- R250, R255, R387. -/
theorem linkTimers : Claim.LinkTimers := by
  intro p s csym syms awake x
  refine ⟨fun up many => ?_, fun linked outstanding late => ?_, fun up past => run_becomes awake ?_ (awake.2.modPort ..)⟩
  · have effect : degradeWindow s.d p.toNat csym syms
        = raise (modPort s.d p.toNat (fun x => { x with degraded := true })) (evLinkDegraded p.toNat (ratioW csym syms)) :=
      if_pos (by simpa [isUp, many] using up)
    refine run_port (q := (· = { x with degraded := true })) awake rfl effect ((quietPort_modPort ..).trans ((HostOnly.raise ..).quietPort _)) ?_
    rw [port_raise, port_modPort]
  · have replays := (ackTimeout_due linked outstanding late).trans (startReplay_outstanding outstanding)
    refine ⟨fun few => run_becomes awake (replays.trans (if_neg (Nat.not_le.2 few))) (awake.2.modPort ..), fun many =>
      ⟨toTraining s.d p.toNat, run_settles awake (replays.trans (if_pos many)), ?_, ?_, (portOnly_toTraining ..).others⟩⟩
    all_goals rw [port_toTraining]
    rfl
  · exact if_pos (by simpa [isUp] using And.intro up past)

end Sys2Proof.Machine

namespace Sys2Proof.Machine

/-! ### Entries whose flits have gone (R277) -/

/-- Trees, adders and the links of ports alone may differ. -/
structure CreditsOnly (d e : Dev) : Prop where
  frame : ∃ ps ts as, e = { d with ports := ps, trees := ts, adders := as }
  links : ∀ q, ∃ l, port e q = { port d q with link := l }

section CreditsOnly

variable {a b c d e : Dev}

theorem CreditsOnly.refl (d : Dev) : CreditsOnly d d := ⟨⟨_, _, _, rfl⟩, fun _ => ⟨_, rfl⟩⟩

theorem CreditsOnly.trans (first : CreditsOnly a b) (second : CreditsOnly b c) : CreditsOnly a c := by
  obtain ⟨⟨_, _, _, rfl⟩, mine⟩ := first
  obtain ⟨⟨_, _, _, rfl⟩, others⟩ := second
  refine ⟨⟨_, _, _, rfl⟩, fun q => ?_⟩
  obtain ⟨l, before⟩ := mine q
  obtain ⟨m, after⟩ := others q
  exact ⟨m, by rw [after, before]⟩

theorem CreditsOnly.each {α : Type} {f : Dev → α → Dev} (step : ∀ d x, CreditsOnly d (f d x)) (xs : List α) (d : Dev) : CreditsOnly d (each d xs f) :=
  foldl_keeps (P := CreditsOnly d) (fun e x only => only.trans (step e x)) xs (.refl d)

theorem CreditsOnly.calm (only : CreditsOnly d e) (calm : Calm d) : Calm e := by
  obtain ⟨⟨_, _, _, rfl⟩, -⟩ := only
  exact calm.of_eq ⟨rfl, rfl⟩ rfl

theorem creditsOnly_modPort (d : Dev) (p : Nat) {f : Port → Port} (link : ∃ l, f (port d p) = { port d p with link := l }) : CreditsOnly d (modPort d p f) := by
  refine ⟨⟨_, _, _, rfl⟩, fun q => ?_⟩
  by_cases here : q = p
  · subst here
    rw [port_modPort]
    exact link
  · rw [port_modPort_other _ _ _ _ here]
    exact ⟨_, rfl⟩

theorem creditsOnly_sendFlit (d : Dev) (p : Nat) (f : Flit) : CreditsOnly d (sendFlit d p f) := by
  unfold sendFlit
  exact iteInduction (fun _ => creditsOnly_modPort d p ⟨_, rfl⟩) fun _ => .refl d

theorem creditsOnly_modTree (d : Dev) (t : Nat) (f : Tree → Tree) : CreditsOnly d (modTree d t f) := ⟨⟨_, _, _, rfl⟩, fun _ => ⟨_, rfl⟩⟩

theorem creditsOnly_setAdder (d : Dev) (p : Nat) (es : List AEntry) : CreditsOnly d (setAdder d p es) := ⟨⟨_, _, _, rfl⟩, fun _ => ⟨_, rfl⟩⟩

theorem creditsOnly_returnCredits (d : Dev) (tn : Nat) (e : AEntry) : CreditsOnly d (returnCredits d tn e) :=
  (CreditsOnly.each (fun _ _ => creditsOnly_sendFlit ..) _ d).trans (creditsOnly_modTree ..)

theorem creditsOnly_freeAccepted (d : Dev) (tn : Nat) : CreditsOnly d (freeAccepted d tn) :=
  CreditsOnly.each (fun _ _ => (creditsOnly_setAdder ..).trans (creditsOnly_returnCredits ..)) _ d

theorem creditsOnly_slotFrees (d : Dev) (p : Nat) : CreditsOnly d (slotFrees d p) := CreditsOnly.each creditsOnly_freeAccepted _ d

/-- Where no entry waits for its flits to go, none frees. -/
theorem slotFrees_none (p : Nat) (none' : ∀ tn, ∀ e ∈ adder d (tree d tn).adder, e.leaving = false) : slotFrees d p = d := by
  have stays (tn : Nat) : freeAccepted d tn = d := by
    have gone : (adder d (tree d tn).adder).filter (fun e => e.tree == tn && e.leaving && !(port d (tree d tn).upPort).link.q1.any (flitOf (tree d tn) e)) = [] :=
      List.filter_eq_nil_iff.2 fun e inside => by simp [none' tn e inside]
    simp only [freeAccepted, gone]
    rfl
  exact foldl_keeps (P := fun e => e = d) (fun e tn same => by rw [same, stays]) _ rfl

end CreditsOnly

end Sys2Proof.Machine

namespace Sys2Proof.Machine

/-! ### Flit slots (R255, R258, R259, R264, R277, R330) -/

theorem queueOf_congr {l m : Link} (q0 : m.q0 = l.q0) (q1 : m.q1 = l.q1) (q2 : m.q2 = l.q2) (q3 : m.q3 = l.q3) (c : Nat) : queueOf m c = queueOf l c := by
  unfold queueOf
  split
  · exact q0
  · exact q1
  · exact q2
  · exact q3

theorem queueOf_setQueue (l : Link) (q : List Flit) : ∀ {c j : Nat}, c ≤ 3 → j ≤ 3 → queueOf (setQueue l c q) j = if j = c then q else queueOf l j
  | 0, 0, _, _ | 0, 1, _, _ | 0, 2, _, _ | 0, 3, _, _ | 1, 0, _, _ | 1, 1, _, _ | 1, 2, _, _ | 1, 3, _, _
  | 2, 0, _, _ | 2, 1, _, _ | 2, 2, _, _ | 2, 3, _, _ | 3, 0, _, _ | 3, 1, _, _ | 3, 2, _, _ | 3, 3, _, _ => rfl

theorem setQueue_keeps (l : Link) (c : Nat) (q : List Flit) : (setQueue l c q).wrr = l.wrr ∧ (setQueue l c q).chosen = l.chosen ∧ (setQueue l c q).doneRcvd = l.doneRcvd := by
  unfold setQueue
  split <;> exact ⟨rfl, rfl, rfl⟩

/-- A port that has sent the flit at place i of class c: numbered, kept until it is acknowledged, and paid for with a credit. -/
def sentPort (d : Dev) (c i : Nat) (f : Flit) (x : Port) : Port := { x with
  cnt := { x.cnt with tx := inc x.cnt.tx }
  nonces := Tbl.modify 0 x.nonces f.ktag (· + 1)
  strictUsed := if isStrict d f then Tbl.modify 0 x.strictUsed f.ktag (· + 1) else x.strictUsed
  link := { setQueue x.link c (removeAt (queueOf x.link c) i) with
    nextSeq := (x.link.nextSeq + 1) % 1024
    unacked := x.link.unacked ++ [(x.link.nextSeq, f)]
    ackAt := if x.link.unacked.isEmpty then d.eclk else x.link.ackAt
    credit := listSet x.link.credit c (x.link.credit.getD c 0 - 1)
    sinceIdle := x.link.sinceIdle + 1
    doneSent := x.link.doneSent || isNegDone f
    rr := if c = 0 then x.link.rr else listSet x.link.rr (c - 1) f.ktag
    held := if c ≠ 1 then x.link.held else if f.ftype = 3 then some f else x.link.held } }

/-- The flit as it leaves for the line. -/
def lineFlit (p c : Nat) (f : Flit) (x : Port) : Out := .flit p c (hdrWord f x.link.nextSeq x.link.rxSeq) f.tsf f.pay

theorem sendSeq_eq (d : Dev) (p c i : Nat) (f : Flit) : sendSeq d p c i f = modPort (emit d (lineFlit p c f (port d p))) p (sentPort d c i f) := rfl

/-- A port has sent the flit at place i of class c, and its slot counts nothing else. -/
structure SentFrom (d0 d : Dev) (p c i : Nat) (f : Flit) (wrr : List Nat) (bark : BarkSt) : Prop where
  unacked : (port d p).link.unacked = (port d0 p).link.unacked ++ [((port d0 p).link.nextSeq, f)]
  nextSeq : (port d p).link.nextSeq = ((port d0 p).link.nextSeq + 1) % 1024
  queues : ∀ j ≤ 3, queueOf (port d p).link j = if j = c then removeAt (queueOf (port d0 p).link c) i else queueOf (port d0 p).link j
  credit : (port d p).link.credit = listSet (port d0 p).link.credit c ((port d0 p).link.credit.getD c 0 - 1)
  turns : (port d p).link.wrr = wrr
  bark : (port d p).bark = bark
  out : d.out = d0.out ++ [lineFlit p c f (port d0 p)]
  others : OtherPorts d0 d p
  frame : d = { d0 with ports := d.ports, out := d.out }
  state : (port d p).st = (port d0 p).st
  negotiation : (port d p).link.chosen = (port d0 p).link.chosen ∧ (port d p).link.doneRcvd = (port d0 p).link.doneRcvd
    ∧ (isNegDone f = true → (port d p).link.doneSent = true)

/-- What the sender of a slot does to its port before it sends: it counts, and takes its turn. -/
structure Readied (d0 e : Dev) (p : Nat) (wrr : List Nat) (bark : BarkSt) : Prop where
  others : OtherPorts d0 e p
  ports : PortsOnly d0 e
  link : (port e p).link = { (port d0 p).link with nakSlots := 0, wrr := wrr }
  bark : (port e p).bark = bark
  state : (port e p).st = (port d0 p).st

theorem Readied.sends {d0 e : Dev} {p c : Nat} {wrr : List Nat} {bark : BarkSt} (ready : Readied d0 e p wrr bark) (few : c ≤ 3) (i : Nat) (f : Flit) :
    SentFrom d0 (sendSeq e p c i f) p c i f wrr bark := by
  obtain ⟨others, ⟨ps, ports⟩, link, barks, state⟩ := ready
  have line : lineFlit p c f (port e p) = lineFlit p c f (port d0 p) := by rw [lineFlit, link, lineFlit]
  have own : port (sendSeq e p c i f) p = sentPort e c i f (port e p) := by rw [sendSeq_eq]; exact port_modPort ..
  obtain ⟨turns, chosen, received⟩ := setQueue_keeps (port e p).link c (removeAt (queueOf (port e p).link c) i)
  have same (j : Nat) : queueOf (port e p).link j = queueOf (port d0 p).link j := by rw [link]; exact queueOf_congr rfl rfl rfl rfl j
  refine ⟨?_, ?_, fun j le => ?_, ?_, ?_, ?_, ?_, fun q other => ?_, ?_, ?_, ?_, ?_, ?_⟩
  · rw [own, sentPort, link]
  · rw [own, sentPort, link]
  · rw [own, ← same c, ← same j]
    exact (queueOf_congr rfl rfl rfl rfl j).trans (queueOf_setQueue (port e p).link _ few le)
  · rw [own, sentPort, link]
  · rw [own]
    exact turns.trans (by rw [link])
  · rw [own]
    exact barks
  · rw [← line, sendSeq_eq]
    simp only [modPort_out, emit, ports]
  · rw [sendSeq_eq]
    exact (port_modPort_other _ _ _ _ other).trans (others q other)
  · rw [sendSeq_eq, ports]
    rfl
  · rw [own]
    exact state
  · rw [own]
    exact chosen.trans (by rw [link])
  · rw [own]
    exact received.trans (by rw [link])
  · intro done
    rw [own]
    simp [sentPort, done]

section Slot

variable {d : Dev} {p : Nat} (ofs : Nat)

/-- The slot counts toward the window of the Strict shares. -/
def slotCounted (d : Dev) (p : Nat) : Dev :=
  modPort d p (fun x => { x with slot := x.slot + 1, link := { x.link with nakSlots := if x.link.nak then x.link.nakSlots + 1 else 0 } })

theorem port_slotCounted (d : Dev) (p : Nat) : port (slotCounted d p) p
    = { port d p with slot := (port d p).slot + 1
                      link := { (port d p).link with nakSlots := if (port d p).link.nak then (port d p).link.nakSlots + 1 else 0 } } := port_modPort ..

theorem port_slotCounted_other {q : Nat} (other : q ≠ p) : port (slotCounted d p) q = port d q := port_modPort_other _ _ _ _ other

theorem ctrlNext_slotCounted (d : Dev) (p : Nat) : ctrlNext (slotCounted d p) p = ctrlNext d p := by
  simp only [ctrlNext, isUp, port_slotCounted]
  rfl

theorem eligible_slotCounted (d : Dev) (p : Nat) (f : Flit) : eligible (slotCounted d p) p f = eligible d p f := by
  simp only [eligible, portAllows, port_slotCounted]
  rfl

theorem candidate_slotCounted (d : Dev) (p c : Nat) : candidate (slotCounted d p) p c = candidate d p c := by
  simp only [candidate, eligible_slotCounted, port_slotCounted]
  rfl

theorem wrrClass_slotCounted (d : Dev) (p : Nat) : wrrClass (slotCounted d p) p = wrrClass d p := by
  simp only [wrrClass, candidate_slotCounted, port_slotCounted]

/-- The class whose turn it is carries reductions, data or requests. -/
theorem wrrClass_class {c i : Nat} {f : Flit} {w : List Nat} (turn : wrrClass d p = some (c, i, f, w)) : c ≤ 3 := by
  have small (z : Nat × Nat × Flit) (inside : z ∈ [1, 2, 3].filterMap (fun c =>
      if (port d p).link.credit.getD c 0 = 0 then none else (candidate d p c).map (fun z => (c, z.1, z.2)))) : z.1 ≤ 3 := by
    obtain ⟨c, listed, ready⟩ := List.mem_filterMap.1 inside
    have few : c ≤ 3 := by
      simp only [List.mem_cons, List.not_mem_nil, or_false] at listed
      omega
    split at ready
    · cases ready
    · obtain ⟨y, -, rfl⟩ := Option.map_eq_some_iff.1 ready
      exact few
  unfold wrrClass at turn
  simp only at turn
  split at turn
  next z found =>
    cases turn
    exact small z (List.mem_of_find?_eq_some found)
  next =>
    split at turn
    next z _ ready =>
      cases turn
      exact small z (ready ▸ List.mem_cons_self)
    next => cases turn

/-- A bark that leaves notes its offset. -/
def departed (d : Dev) (ofs : Nat) (f : Flit) (x : BarkSt) : BarkSt :=
  if f.ftype = 2 then { x with tx := noteOfs x.tx (ownBeatKey d (fld f.tsf 63 52)) (min ofs 0xFFFF) } else x

/-- The port of a slot with a TC0 flit, before it sends. -/
def barkNoted (d : Dev) (p ofs : Nat) (f : Flit) : Dev :=
  if f.ftype = 2 then modPort d p (fun x => { x with bark := { x.bark with tx := noteOfs x.bark.tx (ownBeatKey d (fld f.tsf 63 52)) (min ofs 0xFFFF) } }) else d

/-- The port of a slot with a flit of another class, before it sends. -/
def turnTaken (d : Dev) (p : Nat) (w : List Nat) : Dev := modPort d p (fun x => { x with link := { x.link with wrr := w } })

/-- Nothing is to be resent, no IDLE is due, and there is room for another flit. -/
structure MaySend (l : Link) : Prop where
  resend : l.resend = []
  lately : l.sinceIdle < 63
  nak : l.nak = false
  room : l.unacked.length < 256

/-- What a port sends that has nothing to resend: the TC0 flit that goes next, else when UP the flit whose turn it is, else IDLE. -/
def sendNext (d : Dev) (p ofs : Nat) : Dev :=
  match ctrlNext d p with
  | some (i, f) => sendSeq (barkNoted d p ofs (stampBark f ofs)) p 0 i (stampBark f ofs)
  | none =>
    if (port d p).st = .up then
      match wrrClass d p with
      | some (c, i, f, w) => sendSeq (turnTaken d p w) p c i f
      | none => sendIdle d p
    else sendIdle d p

theorem flitSlot_free (free : MaySend (port d p).link) (linked : (port d p).st = .up ∨ (port d p).st = .negotiating) :
    flitSlot d p ofs = sendNext (slotCounted d p) p ofs := by
  obtain ⟨resend, lately, nak, room⟩ := free
  have runs : ((port d p).st ≠ .up && (port d p).st ≠ .negotiating) = false := by
    rcases linked with st | st <;> simp [st]
  have state : (port (slotCounted d p) p).st = (port d p).st := by rw [port_slotCounted]
  unfold flitSlot
  simp only [runs, resend, Bool.false_eq_true, if_false, nak, Bool.false_and, Bool.or_false, decide_eq_true_eq, ge_iff_le, Nat.not_le.2 lately, Nat.not_le.2 room]
  rw [sendNext, state]
  unfold slotCounted
  rfl

theorem link_slotCounted (quiet : (port d p).link.nak = false) : (port (slotCounted d p) p).link = { (port d p).link with nakSlots := 0 } := by
  rw [port_slotCounted, quiet]
  rfl

theorem readied_barkNoted (quiet : (port d p).link.nak = false) (f : Flit) :
    Readied d (barkNoted (slotCounted d p) p ofs f) p (port d p).link.wrr (departed d ofs f (port d p).bark) := by
  have link := link_slotCounted quiet
  have others (q : Nat) (other : q ≠ p) : port (slotCounted d p) q = port d q := port_slotCounted_other other
  unfold barkNoted departed
  split
  · refine ⟨fun q other => (port_modPort_other _ _ _ _ other).trans (others q other), ⟨_, rfl⟩, ?_, ?_, ?_⟩ <;> rw [port_modPort]
    · exact link
    · rw [port_slotCounted]
      rfl
    · rw [port_slotCounted]
  · exact ⟨others, ⟨_, rfl⟩, link, by rw [port_slotCounted], by rw [port_slotCounted]⟩

theorem readied_turnTaken (quiet : (port d p).link.nak = false) (w : List Nat) : Readied d (turnTaken (slotCounted d p) p w) p w (port d p).bark := by
  have link := link_slotCounted quiet
  refine ⟨fun q other => (port_modPort_other _ _ _ _ other).trans (port_slotCounted_other other), ⟨_, rfl⟩, ?_, ?_, ?_⟩ <;> rw [turnTaken, port_modPort]
  · rw [link]
  · rw [port_slotCounted]
  · rw [port_slotCounted]

section Free

variable (free : MaySend (port d p).link)
include free

theorem flitSlot_ctrl (linked : (port d p).st = .up ∨ (port d p).st = .negotiating) {i : Nat} {f : Flit} (next : ctrlNext d p = some (i, f)) :
    SentFrom d (flitSlot d p ofs) p 0 i (stampBark f ofs) (port d p).link.wrr (departed d ofs (stampBark f ofs) (port d p).bark) := by
  have sends : flitSlot d p ofs = sendSeq (barkNoted (slotCounted d p) p ofs (stampBark f ofs)) p 0 i (stampBark f ofs) := by
    simp only [flitSlot_free ofs free linked, sendNext, ctrlNext_slotCounted, next]
  rw [sends]
  exact (readied_barkNoted ofs free.nak _).sends (by decide) i _

theorem flitSlot_turn (up : (port d p).st = .up) (none' : ctrlNext d p = none) {c i : Nat} {f : Flit} {w : List Nat} (turn : wrrClass d p = some (c, i, f, w)) :
    SentFrom d (flitSlot d p ofs) p c i f w (port d p).bark := by
  have state : (port (slotCounted d p) p).st = .up := by rw [port_slotCounted]; exact up
  have sends : flitSlot d p ofs = sendSeq (turnTaken (slotCounted d p) p w) p c i f := by
    simp only [flitSlot_free ofs free (.inl up), sendNext, ctrlNext_slotCounted, none', state, if_true, wrrClass_slotCounted, turn]
  rw [sends]
  exact (readied_turnTaken free.nak w).sends (wrrClass_class turn) i f

theorem flitSlot_idle (up : (port d p).st = .up) (none' : ctrlNext d p = none) (idle : wrrClass d p = none) :
    flitSlot d p ofs = sendIdle (slotCounted d p) p := by
  have state : (port (slotCounted d p) p).st = .up := by rw [port_slotCounted]; exact up
  simp only [flitSlot_free ofs free (.inl up), sendNext, ctrlNext_slotCounted, none', state, if_true, wrrClass_slotCounted, idle]

end Free

theorem heldFlits_slotCounted (d : Dev) (p : Nat) : heldFlits (slotCounted d p) p = heldFlits d p := by
  have queue (q : Nat) : (port (slotCounted d p) q).link.q2 = (port d q).link.q2 := by
    by_cases here : q = p
    · subst here
      rw [port_slotCounted]
    · rw [port_slotCounted_other here]
  simp only [heldFlits, queue]
  rfl

theorem idleFlit_slotCounted (d : Dev) (p held : Nat) : idleFlit (port (slotCounted d p) p) held = idleFlit (port d p) held := by
  rw [port_slotCounted]
  rfl

/-- An IDLE leaves with the credits to return. -/
theorem sendIdle_slotCounted (quiet : (port d p).link.nak = false) : (sendIdle (slotCounted d p) p).out
      = d.out ++ [.flit p 0 (hdrWord (idleFlit (port d p) (heldFlits d p)) 0 (port d p).link.rxSeq) (idleFlit (port d p) (heldFlits d p)).tsf []]
    ∧ (port (sendIdle (slotCounted d p) p) p).link = { (port d p).link with sinceIdle := 0, nakSlots := 0 } ∧ OtherPorts d (sendIdle (slotCounted d p) p) p
    ∧ sendIdle (slotCounted d p) p = { d with ports := (sendIdle (slotCounted d p) p).ports, out := (sendIdle (slotCounted d p) p).out }
    ∧ (port (sendIdle (slotCounted d p) p) p).st = (port d p).st := by
  have idles : sendIdle (slotCounted d p) p = modPort (emit (slotCounted d p) (.flit p 0 (hdrWord (idleFlit (port d p) (heldFlits d p)) 0 (port d p).link.rxSeq)
      (idleFlit (port d p) (heldFlits d p)).tsf [])) p (fun x => { x with link := { x.link with sinceIdle := 0, nakSlots := 0 } }) := by
    simp only [sendIdle, heldFlits_slotCounted, idleFlit_slotCounted, ackOf, link_slotCounted quiet]
  generalize Out.flit p 0 _ _ [] = o at *
  have own : port (sendIdle (slotCounted d p) p) p
      = { port (slotCounted d p) p with link := { (port (slotCounted d p) p).link with sinceIdle := 0, nakSlots := 0 } } := by
    rw [idles]
    exact port_modPort ..
  refine ⟨by rw [idles]; rfl, ?_, fun q other => ?_, by rw [idles]; rfl, ?_⟩
  · rw [own, link_slotCounted quiet]
  · rw [idles]
    exact (port_modPort_other _ _ _ _ other).trans (port_slotCounted_other other)
  · rw [own, port_slotCounted]

/-- The NEG_DONE that answers the peer's has left, and the port is UP. -/
theorem linkSlot_agrees {e : Dev} {v : Nat} (sends : flitSlot d p ofs = e) (negotiating : (port e p).st = .negotiating) (chosen : (port e p).link.chosen = some v)
    (received : (port e p).link.doneRcvd = some v) (done : (port e p).link.doneSent = true) : linkSlot d p ofs = slotFrees (zl2Faults (toUp e p v) p) p := by
  simp only [linkSlot, sends, (inState_iff ..).2 negotiating, if_true, negAgree_agrees negotiating chosen received done]
  rfl

/-- Once the port is UP, what has left is all that a slot changes, but for the entries that free with it. -/
theorem linkSlot_up {e : Dev} (sends : flitSlot d p ofs = e) (up : (port e p).st = .up) : linkSlot d p ofs = slotFrees e p := by
  have state : inState e p .negotiating = false := by simp [inState, up]
  simp only [linkSlot, sends, state]
  rfl

end Slot

/-- The flit of a slot has left, and an UP port has nothing else to do. -/
theorem run_slot {p : PortId} {s : State} {ofs : Nat} {d : Dev} (awake : Awake s.d) (sends : flitSlot s.d p.toNat ofs = d) (up : (port d p.toNat).st = .up)
    (frame : d = { s.d with ports := d.ports, out := d.out }) : exec (.flitSlot p ofs) s = becomes s (slotFrees d p.toNat)
      ∧ ((∀ tn, ∀ e ∈ adder s.d (tree s.d tn).adder, e.leaving = false) → slotFrees d p.toNat = d) := by
  have calm : Calm d := by
    rw [frame]
    exact awake.2.of_eq ⟨rfl, rfl⟩ rfl
  refine ⟨run_becomes awake (linkSlot_up ofs sends up) ((creditsOnly_slotFrees ..).calm calm), fun none' => slotFrees_none _ ?_⟩
  rw [frame]
  exact none'

/-- R255, R258, R259, R264, R277, R330. -/
theorem flitSlotSends : Claim.FlitSlotSends := by
  intro p s ofs awake x sends resend lately nak room
  have free : MaySend (port s.d p.toNat).link := ⟨resend, lately, nak, room⟩
  refine ⟨fun i f up next => ?_, fun c i f w up none' turn other => ?_, fun up none' idle => ?_, fun i f v negotiating next done chosen received => ?_⟩
  · have sent := flitSlot_ctrl ofs free (.inl up) next
    obtain ⟨runs, same⟩ := run_slot awake rfl (sent.state.trans up) sent.frame
    exact ⟨_, runs, same, sent.unacked, sent.nextSeq, sent.queues, sent.credit, sent.turns, sent.bark, sent.out, sent.others, sent.frame⟩
  · have sent := flitSlot_turn ofs free up none' turn
    obtain ⟨runs, same⟩ := run_slot awake rfl (sent.state.trans up) sent.frame
    exact ⟨_, runs, same, sent.unacked, sent.nextSeq, sent.queues, sent.credit, sent.turns, sent.bark.trans (if_neg other).symm, sent.out, sent.others, sent.frame⟩
  · obtain ⟨out, link, others, frame, state⟩ := sendIdle_slotCounted free.nak
    obtain ⟨runs, -⟩ := run_slot awake (flitSlot_idle ofs free up none' idle) (state.trans up) frame
    exact ⟨_, runs, out, link, others, frame⟩
  · have kind : f.ftype = 1 := by
      simp only [isNegDone, Bool.and_eq_true, beq_iff_eq] at done
      exact done.1
    have plain : stampBark f ofs = f := if_neg (by rw [kind]; decide)
    have sent := flitSlot_ctrl ofs free (.inr negotiating) next
    rw [plain] at sent
    obtain ⟨sameChosen, sameReceived, doneSent⟩ := sent.negotiation
    have still := sent.state.trans negotiating
    have agrees := linkSlot_agrees ofs rfl still (sameChosen.trans chosen) (sameReceived.trans received) (doneSent done)
    have calm : Calm (flitSlot s.d p.toNat ofs) := by
      rw [sent.frame]
      exact awake.2.of_eq ⟨rfl, rfl⟩ rfl
    obtain ⟨-, quiet, st, version, alive⟩ := zl2Faults_toUp still v
    generalize zl2Faults (toUp (flitSlot s.d p.toNat ofs) p.toNat v) p.toNat = u at *
    have frees := creditsOnly_slotFrees u p.toNat
    obtain ⟨l, same⟩ := frees.links p.toNat
    refine ⟨_, run_settles awake agrees, fun full => settle_calm _ (frees.calm ((quiet full).calm calm)), ?_⟩
    rw [same]
    exact ⟨st, version, alive⟩

end Sys2Proof.Machine

namespace Sys2Proof.Proofs

open Sys2Proof.Machine

/-- Settles O21: a slot readies its port and sends one flit, or an IDLE; what frees with it are entries of adders alone. -/
theorem linkSlotsAndTimers : Obligations.LinkSlotsAndTimers := ⟨linkTimers, flitSlotSends⟩

end Sys2Proof.Proofs

namespace Sys2Proof.Machine

/-! ### What the link layer discards and admits (R253 to R263) -/

/-- Each command that brings a flit receives it, and only then goes on to what its row means. -/
theorem flitCommands_receive {p : PortId} {r : RxFlit} {arr : Nat} {ecc : Ecc} {rebuilt : Option (List Byte)} :
    ∀ z ∈ flitCommands p r arr ecc rebuilt, ∃ f, ∀ s, exec z.1 s = run (fun d => receive d p.toNat r z.2 f) s := by
  simp only [flitCommands, List.forall_mem_cons]
  refine ⟨⟨_, fun _ => rfl⟩, ⟨_, fun _ => rfl⟩, ⟨_, fun _ => rfl⟩, ⟨_, fun _ => rfl⟩, ⟨_, fun _ => rfl⟩, ⟨_, fun _ => rfl⟩, ⟨_, fun _ => rfl⟩, ⟨_, fun _ => rfl⟩,
    ⟨_, fun _ => rfl⟩, ⟨_, fun _ => rfl⟩, ⟨_, fun _ => rfl⟩, ⟨_, fun _ => rfl⟩, ⟨_, fun _ => rfl⟩, ⟨_, fun _ => rfl⟩, ⟨_, fun _ => rfl⟩, ⟨_, fun _ => rfl⟩,
    ⟨_, fun _ => rfl⟩, ⟨_, fun _ => rfl⟩, ⟨_, fun _ => rfl⟩, ⟨_, fun _ => rfl⟩, fun _ none' => nomatch none'⟩

/-- A port that counts the FEC codewords and symbols of a flit. -/
def fecCounted (r : RxFlit) (x : Port) : Port := { x with cnt := { x.cnt with
  fecUcw := x.cnt.fecUcw + BitVec.ofNat 32 r.ucw, fecCsym := x.cnt.fecCsym + BitVec.ofNat 32 r.csym } }

/-- A port that has accepted a sequenced flit in its order, and holds it in a buffer that it frees. -/
def acceptedBy (r : RxFlit) (x : Port) : Port := { x with
  cnt := { x.cnt with fecUcw := x.cnt.fecUcw + BitVec.ofNat 32 r.ucw, fecCsym := x.cnt.fecCsym + BitVec.ofNat 32 r.csym, rx := x.cnt.rx + 1 }
  link := { x.link with
    rxSeq := r.seq
    nak := false
    nakSlots := 0
    freed := listSet x.link.freed r.flit.tc (x.link.freed.getD r.flit.tc 0 + 1) } }

section LinkReceive

variable {d : Dev} {p : Nat} {r : RxFlit}

/-- Without a flit outstanding there is nothing to acknowledge. -/
theorem takeAck_none (none' : (port d p).link.unacked = []) (a : Nat) : takeAck d p a = d := by simp [takeAck, none']

variable (linked : (port d p).st = .up ∨ (port d p).st = .negotiating)
include linked

theorem linkReceive_damaged (damaged : r.intact = false) : linkReceive d p r = (modPort d p (fun x => { fecCounted r x with
    cnt := { (fecCounted r x).cnt with crc := x.cnt.crc + 1 }, bark := { x.bark with discardAt := some d.eclk } }), none) := by
  have runs : ((port d p).st ≠ .up && (port d p).st ≠ .negotiating) = false := by rcases linked with st | st <;> simp [st]
  simp only [linkReceive, runs, damaged, Bool.false_eq_true, if_false, Bool.not_false, if_true, modPort_modPort]
  rfl

variable (intact : r.intact = true) (sequenced : r.flit.ftype ≠ 0) (none' : (port d p).link.unacked = [])
include intact sequenced none'

theorem linkReceive_sequenced : linkReceive d p r = if r.seq = ((port d p).link.rxSeq + 1) % 1024 then (modPort d p (acceptedBy r), some (held r))
    else (modPort d p (fun x => { fecCounted r x with link := { x.link with nak := true }, bark := { x.bark with discardAt := some d.eclk } }), none) := by
  have runs : ((port d p).st ≠ .up && (port d p).st ≠ .negotiating) = false := by rcases linked with st | st <;> simp [st]
  have acked : takeAck (modPort d p (fecCounted r)) p r.ack = modPort d p (fecCounted r) := takeAck_none (by rw [port_modPort]; exact none') _
  unfold fecCounted at *
  simp only [linkReceive, runs, intact, sequenced, Bool.false_eq_true, if_false, Bool.not_true, modPort_modPort, acked]
  rfl

end LinkReceive

section RxCheck

variable {d e : Dev} {p : Nat} {r : RxFlit}

theorem rxCheck_discards (link : linkReceive d p r = (e, none)) : rxCheck d p r = (e, none) := by simp only [rxCheck, link]

/-- A flit of a row of its command that the link layer discards does nothing else. -/
theorem receive_discards {row : FlitRow} (f : Dev → Flit → Dev) (own : flitRow r.flit = row) (link : linkReceive d p r = (e, none)) : receive d p r row f = e := by
  simp [receive, own, rxCheck_discards link]

end RxCheck

/-- R254, R255, R257. -/
theorem linkDiscards : Claim.LinkDiscards := by
  intro p s r arr ecc rebuilt awake linked z inside own fec
  obtain ⟨f, runs⟩ := flitCommands_receive z inside
  refine ⟨fun damaged => (runs s).trans (run_becomes awake ?_ (awake.2.modPort ..)), fun intact sequenced other none' => (runs s).trans (run_becomes awake ?_ (awake.2.modPort ..))⟩
  · exact receive_discards f own (linkReceive_damaged linked damaged)
  · exact receive_discards f own ((linkReceive_sequenced linked intact sequenced none').trans (if_neg other))

section Admits

variable {d e : Dev} {p : Nat} {r : RxFlit} (up : (port d p).st = .up) (intact : r.intact = true) (none' : (port d p).link.unacked = [])
  (inOrder : r.seq = ((port d p).link.rxSeq + 1) % 1024) (sequenced : r.flit.ftype ≠ 0)

theorem port_taskFault (d : Dev) (k : Nat) (kind : FaultKind) (q : Nat) : port (taskFault d k kind) q = port d q := by
  unfold taskFault
  split <;> rfl

/-- A tag failure fails the port with cause 7. -/
theorem port_tagFailure (d : Dev) (p k : Nat) : (port (tagFailure d p k) p).st = .failed ∧ (port (tagFailure d p k) p).cause = 7 := by
  rw [tagFailure, port_taskFault, port_setPort]
  exact ⟨rfl, rfl⟩

/-- Flits of the classes that carry a kennel's traffic need no key of kennel 0. -/
theorem needsKey0_classed {f : Flit} (form : wellFormedFlit f = true) (classed : f.tc ≠ 0) : needsKey0 f = false := by
  simp only [wellFormedFlit, Bool.and_eq_true, beq_iff_eq] at form
  obtain ⟨⟨⟨class', -⟩, -⟩, -⟩ := form
  have other : f.ftype ≠ 1 ∧ f.ftype ≠ 2 := by
    constructor <;> intro kind <;> rw [kind] at class' <;> exact classed (Option.some.inj class').symm
  simp [needsKey0, other.1, other.2]

theorem isUp_accepted : isUp (modPort d p (acceptedBy r)) p = isUp d p := by
  rw [isUp, port_modPort]
  rfl

theorem portAllows_accepted (k : Nat) : portAllows (modPort d p (acceptedBy r)) p k = portAllows d p k := by
  rw [portAllows, port_modPort]
  rfl

include up intact none' inOrder sequenced

/-- What follows the link layer for a flit in sequence. -/
theorem rxCheck_sequenced : rxCheck d p r =
    let e := modPort d p (acceptedBy r)
    if needsKey0 r.flit = true ∧ (kennel d 0).cur = none then (countReject e p, none)
    else if wellFormedFlit r.flit = false then (rejectFlit e p r.flit.ktag, none)
    else if r.flit.tc ≠ 0 then
      if r.flit.ktag = 0 ∨ portAllows d p r.flit.ktag = false ∨ 256 ≤ Tbl.get 0 (port d p).kEpochs r.flit.ktag then (rejectFlit e p r.flit.ktag, none)
      else if r.tagOk then (e, some (held r)) else (tagFailure e p r.flit.ktag, none)
    else if needsKey0 r.flit then (if r.tagOk = false then (tagFailure e p 0, none) else (e, some (held r)))
    else (e, some (held r)) := by
  have link := (linkReceive_sequenced (.inl up) intact sequenced none').trans (if_pos inOrder)
  have running : isUp (modPort d p (acceptedBy r)) p = true := isUp_accepted.trans ((isUp_iff ..).2 up)
  have epochs : (port (modPort d p (acceptedBy r)) p).kEpochs = (port d p).kEpochs := by rw [port_modPort]; rfl
  have keys : kennel (modPort d p (acceptedBy r)) 0 = kennel d 0 := rfl
  have kind : needsKey0 (held r) = needsKey0 r.flit := rfl
  have form : wellFormedFlit (held r) = wellFormedFlit r.flit := rfl
  simp only [rxCheck, link, sequenced, running, epochs, keys, portAllows_accepted, kind, form]
  simp [and_comm, or_assoc]

end Admits

/-- R253, R255, R258, R260, R262, R263. -/
theorem linkAdmits : Claim.LinkAdmits := by
  intro p d r up intact none' inOrder sequenced d'
  have checks := rxCheck_sequenced up intact none' inOrder sequenced
  have accepts : modPort d p.toNat (acceptedBy r) = d' := rfl
  rw [accepts] at checks
  refine ⟨fun classed form tag allows epochs => ⟨fun right => ?_, fun wrong => ?_⟩, fun link keyed keyless => ?_, fun link keyed key form right => ?_⟩
  · simpa [needsKey0_classed form classed, classed, form, tag, allows, Nat.not_le.2 epochs, right] using checks
  · have fails : rxCheck d p.toNat r = (tagFailure d' p.toNat r.flit.ktag, none) := by
      simpa [needsKey0_classed form classed, classed, form, tag, allows, Nat.not_le.2 epochs, wrong] using checks
    rw [fails]
    exact ⟨rfl, port_tagFailure ..⟩
  · simpa [keyed, keyless] using checks
  · simpa [keyed, key, link, form, right] using checks

/-- R255, R257, R258. -/
theorem idleReturnsCredits : Claim.IdleReturnsCredits := by
  intro p s r d' received plain c
  refine run_becomes received.1 ((received.receives _).trans ?_) (received.calm.modPort ..)
  exact if_neg (by rw [plain]; decide)

/-- A tree's credit from its parent is held where no entry of its adder waits. -/
theorem tcredTake_holds {d : Dev} {p : Nat} {f : Flit} (en : (tree d (fld f.tsf 55 44)).en = true) (reduction : (tree d (fld f.tsf 55 44)).mcast = false)
    (leaf : (tree d (fld f.tsf 55 44)).root = false) (parent : (tree d (fld f.tsf 55 44)).upPort = p) (some' : 0 < fld f.tsf 43 37) (few : fld f.tsf 43 37 ≤ 63)
    (idle : adder d (tree d (fld f.tsf 55 44)).adder = []) :
    tcredTake d p f = modTree d (fld f.tsf 55 44) (fun t => { t with upCredit := t.upCredit + fld f.tsf 43 37 }) := by
  have passes : (!(tree d (fld f.tsf 55 44)).en || (tree d (fld f.tsf 55 44)).mcast || (tree d (fld f.tsf 55 44)).root || decide ((tree d (fld f.tsf 55 44)).upPort ≠ p)
      || decide (fld f.tsf 43 37 = 0) || decide (fld f.tsf 43 37 > 63)) = false := by
    simp [en, reduction, leaf, parent, some'.ne', few]
  have idle' : adder (modTree d (fld f.tsf 55 44) (fun t => { t with upCredit := t.upCredit + fld f.tsf 43 37 }))
      (tree (modTree d (fld f.tsf 55 44) (fun t => { t with upCredit := t.upCredit + fld f.tsf 43 37 })) (fld f.tsf 55 44)).adder = [] := by
    rw [tree_modTree]
    exact idle
  simp only [tcredTake, passes, Bool.false_eq_true, if_false]
  generalize modTree d (fld f.tsf 55 44) (fun t => { t with upCredit := t.upCredit + fld f.tsf 43 37 }) = e at *
  simp [pumpTree, idle', each]

/-- R277. -/
theorem treeCreditsArrive : Claim.TreeCreditsArrive := by
  intro p s r d' received tn n t en reduction leaf parent some' few idle
  exact run_becomes received.1 ((received.receives _).trans (tcredTake_holds en reduction leaf parent some' few idle)) (received.calm.of_eq ⟨rfl, rfl⟩ rfl)

end Sys2Proof.Machine

namespace Sys2Proof.Proofs

open Sys2Proof.Machine

/-- Settles O22: of a damaged flit, and of one out of sequence, only the link layer's own record is left; one in sequence is admitted by its form, its key and its tag. -/
theorem linkReceives : Obligations.LinkReceives := ⟨linkDiscards, linkAdmits⟩

/-- Settles O23: an accepted flit goes to its row, and that of IDLE and that of TCRED add credits. -/
theorem creditsReturn : Obligations.CreditsReturn := ⟨idleReturnsCredits, treeCreditsArrive⟩

end Sys2Proof.Proofs

namespace Sys2Proof.Machine

/-! ### Contributions to a tree (R272, R273, R275, R279) -/

/-- A step whose CLOSING is not set does not advance. -/
theorem advanceStep_open {d : Dev} {tn : Nat} (open' : (tree d tn).closing = false) : advanceStep d tn = d := by simp [advanceStep, open']

/-- An entry that still waits for a contributor does not leave. -/
theorem leaveEntry_waits {d : Dev} {tn : Nat} {e : AEntry} (waits : isDone (tree d tn) e = false) : leaveEntry d tn e = d := by simp [leaveEntry, waits]

theorem isDone_missing {t : Tree} {e : AEntry} {src : Nat} (named : src ∈ expected t) (missing : src ∉ e.got) : isDone t e = false :=
  List.all_eq_false.2 ⟨src, named, by simpa using missing⟩

theorem stepAhead_open {t : Tree} {step : Nat} (now : step % 4096 = t.openStep % 4096) : stepAhead t (step % 4096) = 0 := by
  rw [stepAhead, now]
  omega

/-- A fresh chunk entry of the open step. -/
def openedEntry (d : Dev) (tn step coll elem : Nat) : AEntry :=
  { tree := tn, kennel := (tree d tn).kennel, step := step % 4096, coll := coll, elem := elem, openBeat := beatNow d, got := [], acc := none }

/-- An adder that holds one entry, which still waits for a contributor. -/
theorem setAdder_stays {d : Dev} {tn : Nat} {e : AEntry} (es : List AEntry) (open' : (tree d tn).closing = false) (waits : isDone (tree d tn) e = false) :
    advanceStep (leaveEntry (advanceStep (setAdder d (tree d tn).adder es) tn) tn e) tn = setAdder d (tree d tn).adder es := by
  have closed : (tree (setAdder d (tree d tn).adder es) tn).closing = false := open'
  have missing : isDone (tree (setAdder d (tree d tn).adder es) tn) e = false := waits
  rw [advanceStep_open closed, leaveEntry_waits missing, advanceStep_open closed]

section Opens

variable {d : Dev} {tn step : Nat} (coll elem : Nat) (v : Chunk) (idle : adder d (tree d tn).adder = []) (begun : (tree d tn).stepV = true)
  (open' : (tree d tn).closing = false) (now : step % 4096 = (tree d tn).openStep % 4096)
include idle begun open' now

/-- A contribution from a port opens its entry, which waits for another contributor. -/
theorem contribute_opens {src q : Nat} (cidx : Nat) (port : src ≠ 16) (named : q ∈ expected (tree d tn)) (other : q ≠ src) :
    contribute d tn src cidx step coll elem v = (setAdder d (tree d tn).adder [{ openedEntry d tn step coll elem with got := [src], acc := some v }], .ok) := by
  have waits := isDone_missing (e := { openedEntry d tn step coll elem with got := [src], acc := some v }) named (by simpa using other)
  have stays := setAdder_stays [{ openedEntry d tn step coll elem with got := [src], acc := some v }] open' waits
  have ahead := stepAhead_open now
  unfold openedEntry at *
  simpa [contribute, begun, idle, ahead, open', port] using stays

/-- A local contribution opens its entry, which waits for another local one. -/
theorem contribute_local (cidx : Nat) (more : 2 ≤ (tree d tn).localN) :
    contribute d tn 16 cidx step coll elem v = (setAdder d (tree d tn).adder [{ openedEntry d tn step coll elem with locals := [(cidx, v)] }], .ok) := by
  have named : 16 ∈ expected (tree d tn) := by simp [expected, show 0 < (tree d tn).localN by omega]
  have waits := isDone_missing (e := { openedEntry d tn step coll elem with locals := [(cidx, v)] }) named (by simp [openedEntry])
  have stays := setAdder_stays [{ openedEntry d tn step coll elem with locals := [(cidx, v)] }] open' waits
  have few : 1 < (tree d tn).localN := more
  have ahead := stepAhead_open now
  unfold openedEntry at *
  simpa [contribute, begun, idle, ahead, open', few] using stays

end Opens

theorem port_mem_expected {t : Tree} {q : Nat} (inside : q < 16) (named : Nat.testBit t.down q = true) : q ∈ expected t :=
  List.mem_append_left _ (mem_portsOf.2 ⟨inside, named⟩)

/-- A RED contribution of two contributing ports opens its chunk's entry. -/
theorem takeRed_opens {d : Dev} {p q : Nat} {f : Flit} (c : Chunk) (port : p < 16) (idle : adder d (tree d (fld f.tsf 63 52)).adder = [])
    (begun : (tree d (fld f.tsf 63 52)).stepV = true) (open' : (tree d (fld f.tsf 63 52)).closing = false)
    (now : fld f.tsf 47 36 = (tree d (fld f.tsf 63 52)).openStep % 4096) (inside : q < 16) (other : q ≠ p)
    (named : Nat.testBit (tree d (fld f.tsf 63 52)).down q = true) : takeRed d p f (some c) = setAdder d (tree d (fld f.tsf 63 52)).adder [{
      tree := fld f.tsf 63 52, kennel := (tree d (fld f.tsf 63 52)).kennel, step := (tree d (fld f.tsf 63 52)).openStep % 4096
      coll := fld f.tsf 35 24, elem := fld f.tsf 23 0, openBeat := beatNow d, got := [p], acc := some c }] := by
  have step : fld f.tsf 47 36 % 4096 = fld f.tsf 47 36 := Nat.mod_eq_of_lt (fld_lt _ 47 36)
  have opens := contribute_opens (fld f.tsf 35 24) (fld f.tsf 23 0) c idle begun open' (step.trans now) 0 port.ne (port_mem_expected inside named) other
  rw [← now]
  simp only [takeRed, opens, openedEntry, step]

theorem redFlit_words {d : Dev} {p : Nat} {f : Flit} (alone : (port d p).esc = none) (expected : redExpected d p f = true) (plain : fld f.tsf 51 48 ≠ 2) :
    redFlit d p f = takeRed d p f (some (.words (chunkWords 64 f.pay))) := by
  have whole : dropEsc d p = d := by simp only [dropEsc, alone]
  simp [redFlit, whole, expected, plain]

/-- R272, R273, R279. -/
theorem redOpensEntry : Claim.RedOpensEntry := by
  intro p s r d' q received f tn t alone expected plain idle begun open' now inside other named
  refine run_becomes received.1 ((received.receives _).trans ?_) (received.calm.of_eq ⟨rfl, rfl⟩ rfl)
  exact (redFlit_words (f := held r) alone expected plain).trans (takeRed_opens (f := held r) _ p.isLt idle begun open' now inside other named)

end Sys2Proof.Machine

namespace Sys2Proof.Machine

/-! ### Escaped elements (R260, R275) -/

theorem length_containers (f : Flit) : (containers f).length = 5 := by simp [containers]

theorem rejectFlit_eq (d : Dev) (p k : Nat) : rejectFlit d p k
    = taskFault (modPort d p (fun x => { x with cnt := { x.cnt with reject := x.cnt.reject + 1 }, rejected := true })) k .task := by
  rw [rejectFlit, countReject, modPort_modPort]
  rfl

section RedX

variable {d : Dev} {p : Nat} {f : Flit} {w : EscWait} (waits : (port d p).esc = some w) (same : f.tsf = w.flit.tsf) (kennel : f.ktag = w.flit.ktag)
include waits same kennel

theorem redXFlit_keeps (more : w.got.length + 5 < w.need.length) (clear : ∀ x ∈ f.pay.drop 240, x = 0) :
    redXFlit d p f = modPort d p (fun x => { x with esc := some { w with got := w.got ++ containers f } }) := by
  have here : min (w.need.length - w.got.length) 5 = 5 := by omega
  have zeros : (f.pay.drop 240).any (· != 0) = false := by simpa using clear
  have all : (containers f).take 5 = containers f := List.take_of_length_le (length_containers f).le
  simp only [redXFlit, waits, here, same, kennel, zeros, all, List.length_append, length_containers, more]
  simp

theorem redXFlit_completes {n : Nat} (last : w.got.length + n = w.need.length) (few : n ≤ 5) (clear : ∀ x ∈ f.pay.drop (48 * n), x = 0)
    (expected : redExpected d p w.flit = true) : redXFlit d p f = takeRed (modPort d p (fun x => { x with esc := none })) p w.flit
      ((strictOf (chunkWires 16 w.flit.pay) (w.got ++ (containers f).take n)).map .strict) := by
  have here : min (w.need.length - w.got.length) 5 = n := by omega
  have zeros : (f.pay.drop (48 * n)).any (· != 0) = false := by simpa using clear
  have length : (w.got ++ (containers f).take n).length = w.need.length := by simp [length_containers]; omega
  simp only [redXFlit, waits, here, same, kennel, zeros, length, expected]
  simp

end RedX

/-- R260, R275. -/
theorem redXEscapes : Claim.RedXEscapes := by
  intro p s r d' received
  refine ⟨fun alone => ?_, fun w waits same kennel => ⟨fun more clear => ?_, ?_⟩⟩
  · refine run_settles received.1 ((received.receives _).trans ?_)
    simp only [redXFlit, alone]
    exact rejectFlit_eq ..
  · exact run_becomes received.1 ((received.receives _).trans (redXFlit_keeps waits same.symm kennel.symm more clear)) (received.calm.modPort ..)
  · intro n ss q last few clear expected strict tn t idle begun open' now inside other named
    refine run_becomes received.1 ((received.receives _).trans ((redXFlit_completes waits same.symm kennel.symm last few clear expected).trans ?_)) (received.calm.of_eq ⟨rfl, rfl⟩ rfl)
    rw [strict]
    exact takeRed_opens (d := modPort d' p.toNat (fun x => { x with esc := none })) _ p.isLt idle begun open' now inside other named

end Sys2Proof.Machine

namespace Sys2Proof.Machine

/-! ### Local contributions (R272, R277, R283) -/

/-- The repetition that writes is the one that a change by its number changes. -/
theorem writer_changed {a : Active} {r : Rep} (writes : writer a = some r) {f : Rep → Rep} (keeps : ∀ x, (f x).pushes = x.pushes) :
    writer (withRep a r.num f) = some (f r) := by
  rw [writer_withRep _ _ keeps, writes, Option.map_some, if_pos rfl]

/-- A REDUCE slot lets go of what no chunk left to send needs, and of watch entries. -/
theorem goOn_reduce {d : Dev} {n s : Nat} {a : Active} {r : Rep} (held : (sslot d n s).act = some a) (writes : writer a = some r) (reduce : a.desc.kind = 4) :
    goOn d n s = trimWatches (modSlot d n s (fun x => { x with act := some (withRep a r.num (dropSpent a.desc)) })) n s := by
  rw [← modRep_held held, goOn, flush.eq_def]
  simp only [held, writes, reduce, if_true]

section LocalContribution

variable {d : Dev} {n s : Nat} {a : Active} {r : Rep} {c : Nat} (held : (sslot d n s).act = some a) (writes : writer a = some r) (reduce : a.desc.kind = 4)
  (reading : r.reading = true) (next : nextChunk a.desc r = some c)
include held writes reduce reading next

theorem localContribution_waits (missing : stagedRange r (c * chunkBytes a.desc) (chunkBytes a.desc) = none) : localContribution d n s = d := by
  simp [localContribution, held, writes, reduce, reading, next, missing]

variable {bs : List Byte} (staged : stagedRange r (c * chunkBytes a.desc) (chunkBytes a.desc) = some bs)
include staged

theorem localContribution_denied (foreign : (tree d a.desc.tree).en = false ∨ (tree d a.desc.tree).kennel ≠ a.kennel) : localContribution d n s = endDesc d n s .denied := by
  have bad : (!(tree d a.desc.tree).en || decide ((tree d a.desc.tree).kennel ≠ a.kennel)) = true := by simpa using foreign
  simp only [localContribution, held, writes, reduce, reading, decide_true, Bool.and_self, if_true, next, staged, bad]

variable (en : (tree d a.desc.tree).en = true) (own : (tree d a.desc.tree).kennel = a.kennel)
include en own

theorem localContribution_unpaid (none' : Tbl.get 0 (tree d a.desc.tree).localCredit a.desc.cidx = 0) : localContribution d n s = d := by
  simp [localContribution, held, writes, reduce, reading, next, staged, en, own, none']

omit en own

/-- One local credit of the chunk's contributor is taken, and the repetition is at chunk m. -/
def creditTaken (d : Dev) (n s : Nat) (a : Active) (r : Rep) (m : Nat) : Dev :=
  modSlot (modTree d a.desc.tree (fun t => { t with localCredit := Tbl.modify 0 t.localCredit a.desc.cidx (· - 1) })) n s
    (fun x => { x with act := some (withRep a r.num (fun r => { r with nextChunk := m })) })

include en own

/-- What `contribute` answers for a paid contribution is what its slot goes on with. -/
theorem localContribution_joins {e : Dev} (paid : 0 < Tbl.get 0 (tree d a.desc.tree).localCredit a.desc.cidx)
    (taken : contribute (creditTaken d n s a r (c + 1)) a.desc.tree 16 a.desc.cidx a.desc.step a.desc.coll (chunkElem a.desc r c) (chunkOf a.desc bs) = (e, .ok)) :
    localContribution d n s = goOn e n s := by
  have held' : (sslot (modTree d a.desc.tree (fun t => { t with localCredit := Tbl.modify 0 t.localCredit a.desc.cidx (· - 1) })) n s).act = some a := held
  have moved : modRep (modTree d a.desc.tree (fun t => { t with localCredit := Tbl.modify 0 t.localCredit a.desc.cidx (· - 1) })) n s r.num
      (fun r => { r with nextChunk := c + 1 }) = creditTaken d n s a r (c + 1) := modRep_held held' ..
  have allowed : (!(tree d a.desc.tree).en || decide ((tree d a.desc.tree).kennel ≠ a.kennel)) = false := by simp [en, own]
  simp only [localContribution, held, writes, reduce, reading, decide_true, Bool.and_self, if_true, next, staged, allowed, Bool.false_eq_true, if_false, paid.ne', moved, taken]

end LocalContribution

section Joins

variable {d : Dev} {n s : Nat} {a : Active} {r : Rep} (m : Nat)

/-- A tree that has given a credit to its local contributor. -/
def creditPaid (cidx : Nat) (t : Tree) : Tree := { t with localCredit := Tbl.modify 0 t.localCredit cidx (· - 1) }

theorem tree_creditTaken : tree (creditTaken d n s a r m) a.desc.tree = creditPaid a.desc.cidx (tree d a.desc.tree) := by
  show tree (modTree d a.desc.tree (creditPaid a.desc.cidx)) a.desc.tree = _
  exact tree_modTree ..

/-- Of the device only the tree's credits and the slot's repetition change. -/
theorem creditTaken_frame : ∃ ts ses, creditTaken d n s a r m = { d with trees := ts, ses := ses } := ⟨_, _, rfl⟩

/-- The entry that a first local contribution opens. -/
def localEntry (d : Dev) (a : Active) (r : Rep) (c : Nat) (bs : List Byte) : AEntry :=
  { openedEntry d a.desc.tree a.desc.step a.desc.coll (chunkElem a.desc r c) with locals := [(a.desc.cidx, chunkOf a.desc bs)] }

theorem contribute_creditTaken (c : Nat) (bs : List Byte) (idle : adder d (tree d a.desc.tree).adder = []) (begun : (tree d a.desc.tree).stepV = true)
    (open' : (tree d a.desc.tree).closing = false) (now : a.desc.step % 4096 = (tree d a.desc.tree).openStep % 4096) (more : 2 ≤ (tree d a.desc.tree).localN) :
    contribute (creditTaken d n s a r m) a.desc.tree 16 a.desc.cidx a.desc.step a.desc.coll (chunkElem a.desc r c) (chunkOf a.desc bs)
      = (setAdder (creditTaken d n s a r m) (tree d a.desc.tree).adder [localEntry d a r c bs], .ok) := by
  have paid := tree_creditTaken (d := d) (n := n) (s := s) (a := a) (r := r) m
  have same : openedEntry (creditTaken d n s a r m) a.desc.tree a.desc.step a.desc.coll (chunkElem a.desc r c)
      = openedEntry d a.desc.tree a.desc.step a.desc.coll (chunkElem a.desc r c) := by
    rw [openedEntry, paid]
    rfl
  have opens := contribute_local (d := creditTaken d n s a r m) (tn := a.desc.tree) (step := a.desc.step) a.desc.coll (chunkElem a.desc r c) (chunkOf a.desc bs)
  rw [same, paid] at opens
  exact opens idle begun open' now a.desc.cidx more

/-- After a contribution has opened its entry the slot only lets go of what it no longer needs. -/
theorem goOn_joined {p : Nat} {es : List AEntry} (writes : writer a = some r) (reduce : a.desc.kind = 4) : let e := setAdder (creditTaken d n s a r m) p es
    ∃ b r', writer b = some r' ∧ b.desc = a.desc ∧ r'.nextChunk = m ∧ r'.refused = r.refused ∧ (sslot (goOn e n s) n s).act = some b
      ∧ ∃ ses ms w, goOn e n s = { e with ses := ses, mdies := ms, watchQ := w } := by
  intro e
  have held : (sslot e n s).act = some (withRep a r.num (fun r => { r with nextChunk := m })) := congrArg SSlot.act (sslot_modSlot ..)
  have writes' : writer (withRep a r.num (fun r => { r with nextChunk := m })) = some { r with nextChunk := m } := writer_changed writes fun _ => rfl
  have goes := goOn_reduce held writes' reduce
  obtain ⟨ms, w, trims⟩ := trimWatches_frame (modSlot e n s (fun x => { x with
    act := some (withRep (withRep a r.num (fun r => { r with nextChunk := m })) r.num (dropSpent a.desc)) })) n s
  refine ⟨_, _, writer_changed writes' (f := dropSpent a.desc) fun _ => rfl, rfl, rfl, rfl, ?_, _, ms, w, goes.trans trims⟩
  rw [goes]
  exact congrArg SSlot.act ((sslot_trimWatches ..).trans (sslot_modSlot ..))

end Joins

/-- R272, R277, R283. -/
theorem localContributionJoins : Claim.LocalContributionJoins := by
  intro n slot s a r c awake held writes reduce reading next t bytes
  have act : (sslot s.d n.val slot.toNat).act = some a := held
  refine ⟨fun missing => run_becomes awake (localContribution_waits act writes reduce reading next missing) awake.2, fun bs staged => ⟨fun foreign => ?_, fun en own none' => ?_, ?_⟩⟩
  · exact ⟨_, run_settles awake (localContribution_denied act writes reduce reading next staged foreign), endDesc_ends .denied awake.2 ⟨_, rfl⟩ rfl held⟩
  · exact run_becomes awake (localContribution_unpaid act writes reduce reading next staged en own none') awake.2
  · intro en own paid idle begun open' now more
    have goes := localContribution_joins act writes reduce reading next staged en own paid (contribute_creditTaken _ c bs idle begun open' now more)
    have credit := tree_creditTaken (d := s.d) (n := n.val) (s := slot.toNat) (a := a) (r := r) (c + 1)
    obtain ⟨b, r', writes', desc, chunk, refused, mine, ses, ms, w, frame⟩ :=
      goOn_joined (d := s.d) (n := n.val) (s := slot.toNat) (c + 1) (p := t.adder) (es := [localEntry s.d a r c bs]) writes reduce
    obtain ⟨ts, ses', taken⟩ := creditTaken_frame (d := s.d) (n := n.val) (s := slot.toNat) (a := a) (r := r) (c + 1)
    have joined := localContribution_joins act writes reduce reading next staged en own paid (contribute_creditTaken _ c bs idle begun open' now more)
    rw [taken] at credit joined frame mine
    generalize goOn (setAdder { s.d with trees := ts, ses := ses' } t.adder [localEntry s.d a r c bs]) n.val slot.toNat = g at joined frame mine
    have calm : Calm g := by
      rw [frame]
      exact awake.2.of_eq ⟨rfl, rfl⟩ rfl
    have same : tree g a.desc.tree = creditPaid a.desc.cidx t := by
      rw [frame]
      exact credit
    have opened : adder g t.adder = [localEntry s.d a r c bs] := by
      have written : g.adders = Tbl.set [] s.d.adders t.adder [localEntry s.d a r c bs] := by
        rw [frame]
        rfl
      rw [adder, written, Tbl.get_set_self]
    have one : Tbl.get 0 (tree g a.desc.tree).localCredit a.desc.cidx = Tbl.get 0 t.localCredit a.desc.cidx - 1 := by
      rw [same]
      exact Tbl.get_modify_self 0 t.localCredit a.desc.cidx (· - 1)
    refine ⟨_, b, r', run_becomes awake joined calm, mine, writes', desc, chunk, refused, one, opened, ?_⟩
    show g = { s.d with trees := g.trees, adders := g.adders, ses := g.ses, mdies := g.mdies, watchQ := g.watchQ }
    rw [frame]
    rfl

end Sys2Proof.Machine

namespace Sys2Proof.Machine

/-! ### A task that has ended stays ended while firmware acts on reports (R353, R354, R394) -/

section OtherTask

variable {j k : Nat} (other : k ≠ j)
include other

theorem task_modTask_other (d : Dev) (f : Task → Task) : task (modTask d j f) k = task d k := by
  unfold modTask
  split
  · exact task_setTask_other _ _ _ _ other
  · rfl

theorem task_moveTask_other (d : Dev) (st : TaskState) (sc : Sc) (c : DWord) : task (moveTask d j st sc c) k = task d k := by
  unfold moveTask
  split
  · rfl
  · rw [task, (keepsTasks_followTasks ..).tasks, (HostOnly.raise ..).keepsTasks.tasks]
    exact task_setTask_other _ _ _ _ other

end OtherTask

theorem Rests.task {d e : Dev} (rests : Rests d e) (k : Nat) : task e k = task d k := by rw [Machine.task, rests.tasks, Machine.task]

theorem rests_flood (d : Dev) (j code md round arg : Nat) : Rests d (flood d j code md round arg) :=
  Rests.trans (b := noteRcv d (rcvTsf j code md round arg)) ⟨⟨rfl, rfl, rfl, rfl⟩, rfl⟩ (Rests.each (fun _ _ => rests_sendFlit ..) _ _)

theorem rests_flushQueues (d : Dev) (j : Nat) : Rests d (flushQueues d j) := Rests.each (f := qFlush) (fun _ _ => ⟨⟨rfl, rfl, rfl, rfl⟩, rfl⟩) _ d

/-- Kennel k keeps what it has where its task does not run. -/
def SparesIdle (k : Nat) (d e : Dev) : Prop := runsTask d k = false → task e k = task d k

section SparesIdle

variable {k : Nat}

theorem SparesIdle.refl (d : Dev) : SparesIdle k d d := fun _ => rfl

theorem SparesIdle.trans {a b c : Dev} (first : SparesIdle k a b) (second : SparesIdle k b c) : SparesIdle k a c := by
  intro idle
  have still : runsTask b k = false := by rw [runsTask, first idle]; exact idle
  exact (second still).trans (first idle)

theorem SparesIdle.each {α : Type} {f : Dev → α → Dev} (step : ∀ d x, SparesIdle k d (f d x)) (xs : List α) (d : Dev) : SparesIdle k d (each d xs f) :=
  foldl_keeps (P := SparesIdle k d) (fun e x spares => spares.trans (step e x)) xs (.refl d)

theorem Rests.sparesIdle {d e : Dev} (rests : Rests d e) : SparesIdle k d e := fun _ => rests.task k

theorem sparesIdle_endLocal (d : Dev) (j : Nat) (sc : Sc) (c : DWord) : SparesIdle k d (endLocal d j sc c) := by
  intro idle
  by_cases here : k = j
  · subst here
    rw [endLocal_idle idle]
  · unfold endLocal
    split
    · rfl
    · extract_lets e
      have stops : Rests d e := iteInduction (motive := Rests d) (fun _ => .refl d) fun _ => rests_stopTraffic d j
      exact (task_moveTask_other here ..).trans ((task_modTask_other here e _).trans (stops.task k))

theorem sparesIdle_endTask (d : Dev) (j : Nat) (sc : Sc) : SparesIdle k d (endTask d j sc) := by
  unfold endTask
  split
  · exact .refl d
  · exact iteInduction (motive := SparesIdle k d) (fun _ => (sparesIdle_endLocal d j sc 0).trans (rests_flood ..).sparesIdle) fun _ => .refl d

theorem task_startRound_other {j : Nat} (other : k ≠ j) (d : Dev) (rd : Round) (own : Bool) (nbr : Option Nat) : task (startRound d j rd own nbr) k = task d k := by
  unfold startRound
  extract_lets me b c e was f g
  have aborts : Rests d b := iteInduction (motive := Rests d) (fun _ => rests_flood ..) fun _ => .refl d
  have names : Rests b c := by
    simp only [c]
    split
    · exact rests_flood ..
    · exact .refl b
  have stops : Rests c e := rests_stopTraffic c j
  have notes : task f k = task e k := task_modTask_other other e _
  have moves : task g k = task f k := by
    simp only [g]
    split
    · rfl
    · exact task_moveTask_other other ..
  clear_value g f e c b
  calc task (flushQueues g j) k = task g k := (rests_flushQueues g j).task k
    _ = task f k := moves
    _ = task e k := notes
    _ = task d k := ((aborts.trans names).trans stops).task k

/-- A task that does not run has no faults. -/
theorem onFault_inactive {d : Dev} (idle : runsTask d k = false) (kind : FaultKind) (nbr : Option Nat) : onFault d k kind nbr = d := by
  unfold onFault
  cases held : task d k with
  | none => rfl
  | some t =>
    have inactive : t.st.active = false := by simpa [runsTask, held] using idle
    cases st : t.st with
    | starting | running | stopping | recovering =>
      rw [st] at inactive
      cases inactive
    | _ => simp only [st]

theorem sparesIdle_onFault (d : Dev) (j : Nat) (kind : FaultKind) (nbr : Option Nat) : SparesIdle k d (onFault d j kind nbr) := by
  by_cases here : k = j
  · subst here
    exact fun idle => by rw [onFault_inactive idle]
  · have round (rd : Round) : SparesIdle k d (startRound d j rd true nbr) := fun _ => task_startRound_other here ..
    unfold onFault
    split
    · exact .refl d
    next t _ =>
      extract_lets rd
      cases t.st with
      | starting => exact sparesIdle_endTask d j .aborted
      | running | stopping => exact iteInduction (motive := SparesIdle k d) (fun _ => round rd) fun _ => sparesIdle_endTask d j .aborted
      | recovering =>
        refine iteInduction (motive := SparesIdle k d) (fun _ => round rd) fun _ => ?_
        split
        · exact fun _ => ((rests_flood ..).task k).trans (task_modTask_other here d _)
        · exact .refl d
      | _ => exact .refl d

theorem sparesIdle_enterFailed (d : Dev) (st : DState) (c : DWord) : SparesIdle k d (enterFailed d st c) := by
  have enters : Rests d (sendBarks (setDState d st c) true) := (keepsTasks_setDState d st c).rests.trans (stops_sendBarks ..).rests
  have fails : SparesIdle k d (failing d st c) := fun _ => enters.task k
  rw [enterFailed_eq]
  exact fails.trans (SparesIdle.each (fun d j => sparesIdle_endLocal d j .aborted c) _ _)

theorem sparesIdle_enterFaulted (d : Dev) (c : DWord) : SparesIdle k d (enterFaulted d c) := by
  have fails := sparesIdle_enterFailed (k := k) d .faulted c
  unfold enterFaulted
  cases d.dstate with
  | off | faulted => exact .refl d
  | _ => exact fails

theorem sparesIdle_onReport (d : Dev) (r : Report) : SparesIdle k d (onReport d r) := by
  cases r with
  | fault j kind => exact sparesIdle_onFault d j kind none
  | neighbour m => exact SparesIdle.each (fun d j => sparesIdle_onFault d j .moduleLost (some m)) _ d
  | ending j sc => exact sparesIdle_endTask d j sc
  | memFatal c => exact sparesIdle_enterFaulted d _
  | memUse j high n => exact (rests_onMemUse ..).sparesIdle

theorem sparesIdle_onReports (fuel : Nat) (d : Dev) : SparesIdle k d (onReports fuel d) := by
  induction fuel generalizing d with
  | zero => exact fun _ => rfl
  | succ f ih =>
    unfold onReports
    split
    · exact .refl d
    · have taken : SparesIdle k d { d with reports := [] } := fun _ => rfl
      exact (taken.trans (SparesIdle.each sparesIdle_onReport _ _)).trans (ih _)

end SparesIdle

section Ends

variable {k : Nat} {sc : Sc}

theorem EndedWith.spares {d e : Dev} (ended : EndedWith d k sc) (spares : SparesIdle k d e) : EndedWith e k sc := ended.of_task (spares ended.idle)

/-- Whether a task has flooded QUIET says nothing about how it ended. -/
theorem EndedWith.sendQuiet {d : Dev} (ended : EndedWith d k sc) (j : Nat) : EndedWith (sendQuiet d j) k sc := by
  unfold Machine.sendQuiet
  split
  · exact ended
  next u held =>
    refine iteInduction (motive := fun e => EndedWith e k sc) (fun _ => ?_) fun _ => ended
    refine EndedWith.of_task ?_ ((rests_flood ..).task k)
    rw [modTask_held held]
    by_cases here : k = j
    · subst here
      obtain ⟨t, mine, ends⟩ := ended
      obtain rfl : t = u := Option.some.inj (mine.symm.trans held)
      exact ⟨_, task_setTask .., ends⟩
    · exact ended.of_task (task_setTask_other _ _ _ _ here)

theorem EndedWith.quieted {d : Dev} (ended : EndedWith d k sc) (ks : List Nat) : EndedWith (each d ks Machine.sendQuiet) k sc :=
  foldl_keeps (P := fun e => EndedWith e k sc) (fun _ j ended => ended.sendQuiet j) ks ended

/-- A task that runs ends on an ending of Table 13-1. -/
theorem endTask_ends {d : Dev} (runs : runsTask d k = true) : EndedWith (endTask d k .aborted) k .aborted := by
  obtain ⟨t, held, active⟩ := (runsTask_iff d k).1 runs
  have floods : endTask d k .aborted = flood (endLocal d k .aborted 0) k 8 (selfModule d) (roundNum t) Sc.aborted.code := by simp [endTask, held, active]
  rw [floods]
  exact (endLocal_ends 0 runs).of_task ((rests_flood ..).task k)

end Ends

/-- Where nothing else is left to do, a report is acted on, and QUIET follows. -/
theorem settle_report {d : Dev} (calm : Calm d) (r : Report) :
    settle (report d r) = each (onReports 4 (report d r)) (taskKeys (onReports 4 (report d r)) (fun t => t.inRound)) sendQuiet := by
  have told : (report d r).reports.isEmpty = false := by simp [report]
  have none' : (report d r).delivered = [] := calm.1.2
  have commits : NoCommits (report d r) := calm.quiet.noCommits
  generalize report d r = e at *
  have undelivered : { e with delivered := [] } = e := by conv_lhs => rw [← none']
  have results : parityResults e = e := by rw [parityResults, none', undelivered]; rfl
  have roots : deliverRoots e = e := by rw [deliverRoots, none', undelivered]; rfl
  have steps : taskKeys e (fun t => t.parity.isSome) = [] := by
    simp only [taskKeys, List.map_eq_nil_iff, List.filter_eq_nil_iff]
    intro z inside
    cases holds : z.2 with
    | none => simp
    | some t => simp [commits z inside t holds]
  have idle : each e [] parityStep = e := rfl
  simp only [settle, told, Bool.false_and, Bool.false_eq_true, if_false, results, steps, idle, roots]

/-- A fault of a task in STARTING ends it with `SC_ABORTED` (R353). -/
theorem settle_fault_starting {d : Dev} (calm : Calm d) {k : Nat} {t : Task} (held : task d k = some t) (starting : t.st = .starting) (kind : FaultKind) :
    EndedWith (settle (taskFault d k kind)) k .aborted := by
  have runs : runsTask d k = true := (runsTask_iff d k).2 ⟨t, held, by rw [starting]; rfl⟩
  rw [taskFault, if_pos runs, settle_report calm]
  refine EndedWith.quieted ?_ _
  have taken : { report d (.fault k kind) with reports := [] } = d := by
    show { d with reports := [] } = d
    conv_lhs => rw [← calm.1.1]
  have ends : onFault d k kind none = endTask d k .aborted := by simp [onFault, held, starting]
  have acts : onReports 4 (report d (.fault k kind)) = onReports 3 (endTask d k .aborted) := by
    have reports : (report d (.fault k kind)).reports = [.fault k kind] := by simp [report, calm.1.1]
    rw [onReports, reports, taken, ← ends]
    rfl
  rw [acts]
  exact (endTask_ends runs).spares (sparesIdle_onReports 3 _)

end Sys2Proof.Machine

namespace Sys2Proof.Machine

/-! ### The leash of an open entry (R280) -/

section EntryLeash

variable {d : Dev} {tn : Nat}

/-- An entry of the tree that is open and has waited its leash. -/
def leashOut (d : Dev) (tn : Nat) (e : AEntry) : Bool := e.tree == tn && !isDone (tree d tn) e && e.openBeat + (tree d tn).leash ≤ beatNow d

theorem entryLeash_none (none' : ∀ e ∈ adder d (tree d tn).adder, leashOut d tn e = false) : entryLeash d tn = d := by
  have found : (adder d (tree d tn).adder).find? (leashOut d tn) = none := List.find?_eq_none.2 fun e inside => by simp [none' e inside]
  unfold leashOut at found
  simp only [entryLeash, found]

variable {e : AEntry} (late : (adder d (tree d tn).adder).find? (leashOut d tn) = some e)
include late

theorem entryLeash_silent {p : Nat} (silent : (missingPorts (tree d tn) e).find? (fun p => !(port d p).bark.alive) = some p) :
    entryLeash d tn = report d (.neighbour (port d p).peerMod) := by
  unfold leashOut at late
  simp only [entryLeash, late, silent]

theorem entryLeash_lags (alive : ∀ p ∈ missingPorts (tree d tn) e, (port d p).bark.alive = true) : entryLeash d tn = taskFault d e.kennel .lag := by
  have none' : (missingPorts (tree d tn) e).find? (fun p => !(port d p).bark.alive) = none := List.find?_eq_none.2 fun p inside => by simp [alive p inside]
  unfold leashOut at late
  simp only [entryLeash, late, none']

end EntryLeash

/-- R280, R331, R336, R353. -/
theorem entryLeashExpires : Claim.EntryLeashExpires := by
  intro t s awake
  refine ⟨fun none' => ?_, fun e found => ⟨fun p silent => ?_, fun alive => ⟨?_, fun k held starting => ?_⟩⟩⟩
  · exact run_becomes awake (entryLeash_none none') awake.2
  · exact run_settles awake (entryLeash_silent found silent)
  · exact run_settles awake (entryLeash_lags found alive)
  · exact settle_fault_starting awake.2 held starting .lag

end Sys2Proof.Machine

namespace Sys2Proof.Proofs

open Sys2Proof.Machine

/-- Settles O24: a RED, a completed RED_X and a paid local contribution each open an entry of an empty adder, and a fault of a task in STARTING ends it,
which nothing that firmware does afterwards undoes. -/
theorem reductionsCombine : Obligations.ReductionsCombine := ⟨redOpensEntry, redXEscapes, localContributionJoins, entryLeashExpires⟩

end Sys2Proof.Proofs

namespace Sys2Proof.Machine

/-! ### What leaves memory, tasks and reports alone -/

/-- Memory, tasks, reports and what the roots have completed are the same. -/
structure Unmoved (d e : Dev) : Prop where
  mem : e.mem = d.mem
  tasks : e.tasks = d.tasks
  reports : e.reports = d.reports
  delivered : e.delivered = d.delivered

theorem Unmoved.refl (d : Dev) : Unmoved d d := ⟨rfl, rfl, rfl, rfl⟩

theorem Unmoved.trans {a b c : Dev} (first : Unmoved a b) (second : Unmoved b c) : Unmoved a c :=
  ⟨second.mem.trans first.mem, second.tasks.trans first.tasks, second.reports.trans first.reports, second.delivered.trans first.delivered⟩

theorem Unmoved.each {α : Type} {f : Dev → α → Dev} (step : ∀ d x, Unmoved d (f d x)) (xs : List α) (d : Dev) : Unmoved d (each d xs f) :=
  foldl_keeps (P := Unmoved d) (fun _ _ unmoved => unmoved.trans (step ..)) xs (.refl d)

theorem Stops.unmoved {d e : Dev} (stops : Stops d e) : Unmoved d e := by
  rw [← stops.frame]
  exact ⟨rfl, rfl, rfl, rfl⟩

theorem HostOnly.unmoved {d e : Dev} (only : HostOnly d e) : Unmoved d e := only.stops.unmoved

theorem AccessOnly.unmoved {d e : Dev} (only : AccessOnly d e) : Unmoved d e := by
  obtain ⟨⟨ms, ps, rfl⟩, -⟩ := only
  exact ⟨rfl, rfl, rfl, rfl⟩

theorem TreeOnly.unmoved {d e : Dev} {tn : Nat} (only : TreeOnly d e tn) : Unmoved d e := by
  rw [only.frame]
  exact ⟨rfl, rfl, rfl, rfl⟩

theorem unmoved_finish (d : Dev) (m : Nat) (c : Sc) (a b e : DWord) : Unmoved d (finish d m c a b e) :=
  Unmoved.trans (b := { d with begun := d.begun.filter (· != m) }) ⟨rfl, rfl, rfl, rfl⟩ (finish_frame d m c a b e).unmoved

theorem unmoved_setDState (d : Dev) (n : DState) (c : DWord) : Unmoved d (setDState d n c) :=
  Unmoved.trans (b := { d with dstate := n }) ⟨rfl, rfl, rfl, rfl⟩ (setDState_frame d n c).unmoved

theorem unmoved_followTasks (d : Dev) (c : DWord) : Unmoved d (followTasks d c) := by
  unfold followTasks
  simp only
  cases d.dstate with
  | ready => exact iteInduction (fun _ => unmoved_setDState ..) fun _ => .refl d
  | running => exact iteInduction (fun _ => unmoved_setDState ..) fun _ => iteInduction (fun _ => .refl d) fun _ => unmoved_setDState ..
  | recovering => exact iteInduction (fun _ => .refl d) fun _ => iteInduction (fun _ => unmoved_setDState ..) fun _ => unmoved_setDState ..
  | draining => exact iteInduction (fun _ => .refl d) fun _ => unmoved_setDState ..
  | _ => exact .refl d

theorem unmoved_trimUnits (d : Dev) (k : Nat) : Unmoved d (trimUnits d k) := by
  refine iteInduction (fun _ => .refl d) fun _ => Unmoved.trans (Unmoved.each ?_ (strayPairs d k) d) (Unmoved.each ?_ (strayDies d k) _)
  all_goals exact fun _ _ => ⟨rfl, rfl, rfl, rfl⟩

theorem unmoved_flood (d : Dev) (j code md round arg : Nat) : Unmoved d (flood d j code md round arg) := by
  refine Unmoved.trans (b := noteRcv d (rcvTsf j code md round arg)) ⟨rfl, rfl, rfl, rfl⟩ (Unmoved.each (fun d p => ?_) _ _)
  obtain ⟨ps, frame⟩ := sendFlit_frame d p (rcvFlit (rcvTsf j code md round arg))
  rw [frame]
  exact ⟨rfl, rfl, rfl, rfl⟩

/-! ### The task of one kennel is set (R353) -/

/-- A task that nothing is left to be done for at once: it has no commit under way, and no QUIET to send. -/
def TaskQuiet (t : Task) : Prop := t.parity = none ∧ (t.inRound = true → t.quietSent = true)

theorem TaskQuiet.of_some {t : Task} (quiet : TaskQuiet t) : ∀ u, some t = some u → TaskQuiet u := by
  rintro _ ⟨⟩
  exact quiet

theorem Calm.task {d : Dev} (calm : Calm d) {k : Nat} {t : Task} (held : task d k = some t) : TaskQuiet t :=
  calm.quiet (k, some t) (Tbl.mem_of_get held (by simp)) t rfl

/-- Kennel k has `v` for its task, and every other kennel what it had. -/
structure SetsTask (k : Nat) (v : Option Task) (d e : Dev) : Prop where
  tasks : e.tasks = Tbl.set none d.tasks k v
  delivered : e.delivered = d.delivered

/-- Memory and reports are the same as well. -/
structure OnlyTask (k : Nat) (v : Option Task) (d e : Dev) : Prop extends SetsTask k v d e where
  mem : e.mem = d.mem
  reports : e.reports = d.reports

section SetsTask

variable {k : Nat} {u v : Option Task} {c d e : Dev}

theorem SetsTask.own (sets : SetsTask k v d e) : task e k = v := by rw [task, sets.tasks, Tbl.get_set_self]

theorem SetsTask.others (sets : SetsTask k v d e) : OtherTasks d e k := fun j other => by rw [task, sets.tasks, Tbl.get_set_other _ _ _ _ _ other, task]

theorem SetsTask.rests (rests : Rests c d) (sets : SetsTask k v d e) : SetsTask k v c e :=
  ⟨by rw [sets.tasks, rests.tasks], sets.delivered.trans rests.delivered⟩

theorem SetsTask.unmoved (sets : SetsTask k v c d) (unmoved : Unmoved d e) : SetsTask k v c e :=
  ⟨unmoved.tasks.trans sets.tasks, unmoved.delivered.trans sets.delivered⟩

theorem SetsTask.quiet (sets : SetsTask k v d e) (quiet : Quiet d) (own : ∀ t, v = some t → TaskQuiet t) : Quiet e := by
  intro z inside t holds
  rw [sets.tasks] at inside
  rcases Tbl.mem_set inside with old | new
  · exact quiet z old t holds
  · rw [new] at holds
    exact own t holds

/-- The second of two settings of a task stands. -/
theorem OnlyTask.again (first : OnlyTask k u c d) (second : OnlyTask k v d e) : OnlyTask k v c e :=
  ⟨⟨by rw [second.tasks, first.tasks, Tbl.set_set], second.delivered.trans first.delivered⟩, second.mem.trans first.mem, second.reports.trans first.reports⟩

theorem OnlyTask.after (unmoved : Unmoved c d) (only : OnlyTask k v d e) : OnlyTask k v c e :=
  ⟨⟨by rw [only.tasks, unmoved.tasks], only.delivered.trans unmoved.delivered⟩, only.mem.trans unmoved.mem, only.reports.trans unmoved.reports⟩

theorem OnlyTask.before (only : OnlyTask k v c d) (unmoved : Unmoved d e) : OnlyTask k v c e :=
  ⟨only.toSetsTask.unmoved unmoved, unmoved.mem.trans only.mem, unmoved.reports.trans only.reports⟩

/-- A device stays calm as a task is set for which nothing is to be done at once. -/
theorem OnlyTask.calm (only : OnlyTask k v d e) (calm : Calm d) (own : ∀ t, v = some t → TaskQuiet t) : Calm e := by
  have quiet := only.quiet calm.quiet own
  exact ⟨⟨only.reports.trans calm.1.1, only.delivered.trans calm.1.2⟩, quietDue_false quiet, parityDue_false quiet⟩

theorem onlyTask_setTask (d : Dev) (k : Nat) (v : Option Task) : OnlyTask k v d (setTask d k v) := ⟨⟨rfl, rfl⟩, rfl, rfl⟩

/-- A task that is put in place and moved. -/
theorem onlyTask_moveTask (d : Dev) (k : Nat) (t : Task) (st : TaskState) (sc : Sc) (c : DWord) :
    OnlyTask k (some { t with st := st, endSt := if st = .ended then sc else t.endSt }) d (moveTask (setTask d k (some t)) k st sc c) := by
  simp only [moveTask, task_setTask]
  refine (onlyTask_setTask d k (some t)).again (OnlyTask.before (onlyTask_setTask ..) ?_)
  exact (HostOnly.raise ..).unmoved.trans (unmoved_followTasks ..)

theorem onlyTask_dropTask {t : Task} (held : task d k = some t) (sc : Sc) (c : DWord) : OnlyTask k none d (dropTask d k sc c) := by
  simp only [dropTask, held]
  exact (onlyTask_setTask d k none).before ((HostOnly.raise ..).unmoved.trans (unmoved_followTasks ..))

end SetsTask

/-! ### What a start loads (R361, R362) -/

theorem unmoved_qPush (d : Dev) (q j : Nat) (b : DWord) (at' : Nat) : Unmoved d (qPush d q j b at').1 := by
  have counts (f : Hq → Hq) : Unmoved d (modHq d q f) := ⟨rfl, rfl, rfl, rfl⟩
  unfold qPush
  extract_lets x
  refine iteInduction (motive := fun r : Dev × Pushed => Unmoved d r.1) (fun _ => counts _) fun _ => ?_
  split
  · exact ⟨rfl, rfl, rfl, rfl⟩
  · exact iteInduction (motive := fun r : Dev × Pushed => Unmoved d r.1) (fun _ => counts _) fun _ => counts _

theorem unmoved_loadTables (d : Dev) (j : Nat) (t : Task) : Unmoved d (loadTables d j t) := by
  have queue (d : Dev) (w : List DWord) : Unmoved d (loadQueue d j w) := by
    refine iteInduction (fun _ => .refl d) fun _ => ?_
    exact Unmoved.trans (b := writeHq d (nth w 0 % 32768) (nthW w 1)) ⟨rfl, rfl, rfl, rfl⟩ (Unmoved.each (fun _ _ => unmoved_qPush ..) _ _)
  have tree (d : Dev) (w : List DWord) : Unmoved d (loadTree d j w) :=
    iteInduction (fun _ => .refl d) fun _ => (treeOnly_writeTree d (entryOfWords w) (Nat.mod_lt _ (by decide))).1.unmoved
  have litter (d : Dev) (w : List DWord) : Unmoved d (loadLitter d j w) := iteInduction (fun _ => .refl d) fun _ => ⟨rfl, rfl, rfl, rfl⟩
  exact ((Unmoved.each queue _ d).trans (Unmoved.each tree _ _)).trans (Unmoved.each litter _ _)

theorem unmoved_placeSections (d : Dev) (t : Task) : Unmoved d (placeSections d t) := by
  refine Unmoved.each (fun d s => ?_) _ d
  rw [storeWrite, setStore_frame]
  exact ⟨rfl, rfl, rfl, rfl⟩

theorem unmoved_planUnits (d : Dev) (t : Task) (b step : Nat) : Unmoved d (planUnits d t b step) :=
  Unmoved.each (fun _ _ => iteInduction (fun _ => (stops_modPair ..).unmoved) fun _ => (stops_modPair ..).unmoved) _ d

theorem unmoved_shadowMove (d : Dev) (n i : Nat) : Unmoved d (shadowMove d n i) := by
  unfold shadowMove
  extract_lets x
  split
  · exact ⟨rfl, rfl, rfl, rfl⟩
  · exact .refl d

theorem unmoved_arm {d e : Dev} {j n i : Nat} {x : Desc} {start gen : Nat} (armed : arm d j n i x start = some (e, gen)) : Unmoved d e := by
  refine (unmoved_shadowMove d n i).trans ?_
  unfold arm at armed
  simp only at armed
  split at armed <;> cases armed
  all_goals exact ⟨rfl, rfl, rfl, rfl⟩

theorem unmoved_loadArms (d : Dev) (j : Nat) (t : Task) (b : Nat) : Unmoved d (loadArms d j t b) := by
  refine Unmoved.each (fun d w => ?_) _ d
  split
  next armed => exact unmoved_arm armed
  next => exact .refl d

/-- A start loads tables, stores, plans and slots, and moves the task to STARTING with its start beat. -/
theorem onlyTask_startTask {d : Dev} {k : Nat} {t : Task} (held : task d k = some t) (b : Nat) :
    OnlyTask k (some { t with st := .starting, startBeat := b }) d (startTask d k b) := by
  have places := (unmoved_loadTables d k t).trans (unmoved_placeSections _ t)
  have loads := (places.trans (unmoved_planUnits _ t b t.step0)).trans (unmoved_loadArms _ k t b)
  have still : task (loadArms (planUnits (placeSections (loadTables d k t) t) t b t.step0) k t b) k = some t := by rw [task, loads.tasks]; exact held
  simp only [startTask, held, modTask_held still]
  exact .after loads (onlyTask_moveTask _ k { t with startBeat := b } .starting .ok cmdCause)

/-! ### Reads that find everything sound (R236, R240, R243) -/

theorem unmoved_retire (d : Dev) (m key o : Nat) : Unmoved d (retire d m key o) := by
  unfold retire
  extract_lets p near ix b g c e
  have counts : Unmoved d b := ⟨rfl, rfl, rfl, rfl⟩
  have moves : Unmoved b c := by
    refine iteInduction (fun _ => iteInduction (fun _ => (mdiesOnly_requestMig ..).access.unmoved) fun _ => ?_) fun _ => ⟨rfl, rfl, rfl, rfl⟩
    exact Unmoved.trans (b := modMdie b m (fun x => { x with frames := x.frames.filter (· != ix) })) ⟨rfl, rfl, rfl, rfl⟩ (accessOnly_takeFrame ..).unmoved
  have stages : Unmoved c { e with retireSeq := e.retireSeq + 1 } := ⟨rfl, rfl, rfl, rfl⟩
  exact ((counts.trans moves).trans stages).trans (HostOnly.raise ..).unmoved

theorem unmoved_correctedError (d : Dev) (m key o : Nat) : Unmoved d (correctedError d m key o) := by
  unfold correctedError
  extract_lets p gran ix recent b
  have counts : Unmoved d b := ⟨rfl, rfl, rfl, rfl⟩
  exact iteInduction (fun _ => counts) fun _ => counts.trans (unmoved_retire ..)

/-- Where the codes find no line that they cannot correct, they report nothing. -/
theorem unmoved_eccFinds {d : Dev} {k addr n : Nat} {ecc : Ecc} (sound : (eccFinds d k addr n ecc).2 = false) : Unmoved d (eccFinds d k addr n ecc).1 := by
  cases ecc with
  | cache ls =>
    refine Unmoved.each (fun d z => ?_) _ d
    exact iteInduction (fun _ => ⟨rfl, rfl, rfl, rfl⟩) fun _ => .refl d
  | hint t =>
    simp only [eccFinds]
    exact iteInduction (fun _ => .refl d) fun _ => ⟨rfl, rfl, rfl, rfl⟩
  | corrected ls => exact Unmoved.each (fun _ _ => unmoved_correctedError ..) _ d
  | ue ls =>
    have none' : tierLines d k addr n ls = [] := by simpa [eccFinds] using sound
    simp only [eccFinds, none']
    exact ⟨rfl, rfl, rfl, rfl⟩
  | _ => exact .refl d

/-- A read that is served in full leaves memory, tasks and reports alone. -/
def ReadsWell (d : Dev) (r : Dev × MemClass × List Byte) : Prop := r.2.1 = .ok → Unmoved d r.1

theorem readsWell_memAccess (own : Bool) (d : Dev) (k addr n : Nat) (ecc : Ecc) : ReadsWell d (memAccess own d k addr n ecc) := by
  have touches : Unmoved d (touched d k addr) := (accessOnly_modPage ..).unmoved
  have counts (b : Dev) : Unmoved b (if own then readCount b k addr n else b) := iteInduction (fun _ => (accessOnly_readCount ..).unmoved) fun _ => .refl b
  have fails {e : Dev} {c : MemClass} {bs : List Byte} (other : c ≠ .ok) : ReadsWell d (e, c, bs) := fun ok => absurd ok other
  unfold memAccess
  simp only [touched_eq]
  refine iteInduction (fun _ => fails (by decide)) fun _ => iteInduction (fun _ => fails (by decide)) fun _ => ?_
  refine iteInduction (fun _ => fails (by decide)) fun _ => iteInduction (fun _ => fails (by decide)) fun _ => ?_
  refine iteInduction (fun _ _ => touches) fun _ => iteInduction (fun _ => fails (by decide)) fun _ => ?_
  refine iteInduction (fun _ => fails (by decide)) fun sound => ?_
  have finds := touches.trans (unmoved_eccFinds (by simpa using sound))
  have reads := (finds.trans (counts _)).trans (mdiesOnly_tcRead _ k addr n).access.unmoved
  split
  · exact fun _ => reads
  · exact fails (by decide)
  · exact fails (by decide)
  · exact fails (by decide)
  · exact fun _ => reads

theorem readsWell_memReadAll (d : Dev) (k addr n : Nat) (ecc : Ecc) : ReadsWell d (memReadAll d k addr n ecc) := by
  refine foldl_keeps (P := ReadsWell d) (fun r z well ok => ?_) _ fun _ => .refl d
  have before : r.2.1 = .ok := by
    by_contra other
    simp only [other, if_false] at ok
  simp only [before, if_true] at ok
  exact (well before).trans (readsWell_memAccess true r.1 k z.1.1 z.1.2.length _ ok)

end Sys2Proof.Machine

namespace Sys2Proof.Machine

/-! ### Creation (R360, R361) -/

/-- A manifest of which every part is read well leaves memory, tasks and reports alone. -/
theorem unmoved_readManifest {d : Dev} {k addr : Nat} {ecc : Ecc} (sound : (readManifest d k addr ecc).2.cls = .ok) : Unmoved d (readManifest d k addr ecc).1 := by
  have header := readsWell_memReadAll d k addr 64 ecc
  unfold readManifest at sound ⊢
  generalize memReadAll d k addr 64 ecc = z0 at *
  obtain ⟨d0, c0, hdr⟩ := z0
  simp only at sound ⊢
  generalize (if c0 = .ok then min (leNat (hdr.take 4)) 65536 else 0) = n at *
  have entries := readsWell_memReadAll d0 k (addr + 64) (32 * n) .clean
  generalize memReadAll d0 k (addr + 64) (32 * n) .clean = z1 at *
  obtain ⟨d1, c1, ents⟩ := z1
  simp only at sound ⊢
  refine foldl_keeps (P := fun z : Dev × RawManifest => z.2.cls = .ok → Unmoved d z.1) (fun z b well ok => ?_) _ (fun ok => ?_) sound
  · have before : z.2.cls = .ok := by
      by_contra other
      simp only [other, if_false] at ok
    simp only [before, if_true] at ok
    exact (well before).trans (readsWell_memReadAll z.1 k _ _ .clean ok)
  · have before : c0 = .ok := by
      by_contra other
      simp only [other, if_false] at ok
    simp only [before, if_true] at ok
    exact (header before).trans (entries ok)

/-- A manifest whose checks pass has been read in full. -/
theorem readManifest_sound {e : Dev} {k : Nat} {m : RawManifest} {t : Task} (passes : creationCheck e k m t = none) : m.cls = .ok := by
  by_contra other
  have fails : check (m.cls != .ok || leNat ((m.hdr.drop 4).take 4) != (manifestCrc m.hdr m.ents t.secs).toNat) Sc.integrity = some .integrity := by
    simp [check, other]
  unfold creationCheck at passes
  rw [firstSome] at passes
  split at passes
  next => cases passes
  next =>
    rw [firstSome, fails] at passes
    cases passes

/-- A manifest at an address that its kennel may not read is not read. -/
theorem readManifest_denied {d : Dev} {k addr : Nat} (aligned : addr % 64 = 0) (table : tableBad d k addr = false) (denied : canRead d k addr = false) (ecc : Ecc) :
    (readManifest d k addr ecc).1 = d ∧ (readManifest d k addr ecc).2.cls = .denied := by
  have inside : addr % pageBytes + 64 ≤ pageBytes := by
    unfold pageBytes
    omega
  have header : memReadAll d k addr 64 ecc = (d, .denied, zeros 64) := by rw [memReadAll_one (by decide) inside, memRead, memAccess_denied true 64 table denied]
  have entries : memReadAll d k (addr + 64) (32 * 0) .clean = (d, .ok, []) := rfl
  simp only [readManifest, header, reduceCtorEq, if_false, entries]
  exact ⟨rfl, rfl⟩

section CreationDone

variable {d : Dev} {k : Nat} {t : Task}

theorem creationDone_passes {ecc : Ecc} (held : task d k = some t) (creating : t.st = .creating)
    (passes : creationCheck (readManifest d k t.manifest ecc).1 k (readManifest d k t.manifest ecc).2
      (loadManifest (readManifest d k t.manifest ecc).1 t (readManifest d k t.manifest ecc).2.secs) = none) :
    OnlyTask k (some { loadManifest (readManifest d k t.manifest ecc).1 t (readManifest d k t.manifest ecc).2.secs with st := .created }) d (creationDone d k ecc) := by
  have reads := unmoved_readManifest (readManifest_sound passes)
  simp only [creationDone, held, creating, ne_eq, not_true_eq_false, if_false, passes]
  exact .after reads (onlyTask_moveTask _ k _ .created .ok 0)

theorem creationDone_denied (held : task d k = some t) (creating : t.st = .creating) (aligned : t.manifest % 64 = 0) (table : tableBad d k t.manifest = false)
    (denied : canRead d k t.manifest = false) (ecc : Ecc) : OnlyTask k none d (creationDone d k ecc) := by
  obtain ⟨same, cls⟩ := readManifest_denied aligned table denied ecc
  have reads : readManifest d k t.manifest ecc = (d, (readManifest d k t.manifest ecc).2) := Prod.ext same rfl
  generalize (readManifest d k t.manifest ecc).2 = m at reads cls
  have ends : creationCheck d k m (loadManifest d t m.secs) = some .denied := by simp [creationCheck, firstSome, check, cls]
  simp only [creationDone, held, creating, ne_eq, not_true_eq_false, if_false, reads, ends]
  exact (onlyTask_dropTask held .denied 0).before (unmoved_trimUnits ..)

end CreationDone

/-! ### A running task ends (R353, R354) -/

section EndTask

variable {d : Dev} {k : Nat} {t : Task} {sc : Sc} (held : task d k = some t) (active : t.st.active = true) (fails : sc ≠ .ok)
include held active fails

/-- A task that ends for another reason than `SC_OK` has its traffic stopped, leaves its round and its requests, and floods its end. -/
theorem endTask_eq : endTask d k sc = flood (moveTask (setTask (stopTraffic d k) k (some { t with inRound := false, asking := none, batchReq := [], parity := none })) k .ended sc 0)
    k 8 (selfModule d) (roundNum t) sc.code := by
  have runs : runsTask d k = true := (runsTask_iff d k).2 ⟨t, held, active⟩
  have mine : task (stopTraffic d k) k = some t := ((rests_stopTraffic d k).task k).trans held
  simp [endTask, endLocal, held, active, runs, fails, modTask_held mine]

theorem setsTask_endTask : SetsTask k (some (endedAs t sc)) d (endTask d k sc) := by
  rw [endTask_eq held active fails]
  have ends := onlyTask_moveTask (stopTraffic d k) k { t with inRound := false, asking := none, batchReq := [], parity := none } .ended sc 0
  exact (ends.toSetsTask.rests (rests_stopTraffic d k)).unmoved (unmoved_flood ..)

/-- Where no row is under way, no memory changes and nothing is reported. -/
theorem onlyTask_endTask (whole : RowsWhole d) : OnlyTask k (some (endedAs t sc)) d (endTask d k sc) := by
  rw [endTask_eq held active fails]
  have ends := onlyTask_moveTask (stopTraffic d k) k { t with inRound := false, asking := none, batchReq := [], parity := none } .ended sc 0
  exact (ends.before (unmoved_flood ..)).after (stops_stopTraffic whole k).unmoved

end EndTask

/-- Where nothing has been delivered and no commit is under way, what follows a command is what the reports ask for, and QUIET. -/
theorem settle_acts {d : Dev} (delivered : d.delivered = []) (commits : NoCommits d) :
    settle d = d ∨ settle d = each (onReports 4 d) (taskKeys (onReports 4 d) (fun t => t.inRound)) sendQuiet := by
  have undelivered : { d with delivered := [] } = d := by conv_lhs => rw [← delivered]
  have results : parityResults d = d := by rw [parityResults, delivered, undelivered]; rfl
  have roots : deliverRoots d = d := by rw [deliverRoots, delivered, undelivered]; rfl
  have steps : taskKeys d (fun t => t.parity.isSome) = [] := by
    simp only [taskKeys, List.map_eq_nil_iff, List.filter_eq_nil_iff]
    intro z inside
    cases holds : z.2 with
    | none => simp
    | some t => simp [commits z inside t holds]
  have idle : each d [] parityStep = d := rfl
  unfold settle
  split
  · exact .inl rfl
  · exact .inr (by simp only [results, steps, idle, roots])

theorem endedAs_quiet (t : Task) (sc : Sc) : ∀ u, some (endedAs t sc) = some u → TaskQuiet u :=
  TaskQuiet.of_some ⟨rfl, fun round => absurd round Bool.false_ne_true⟩

/-- A task that has ended stays so, whatever is reported as it ends. -/
theorem SetsTask.ended {d e : Dev} {k : Nat} {t : Task} {sc : Sc} (sets : SetsTask k (some (endedAs t sc)) d e) (calm : Calm d) : EndedWith (settle e) k sc := by
  have ended : EndedWith e k sc := ⟨endedAs t sc, sets.own, rfl, rfl⟩
  have quiet := sets.quiet calm.quiet (endedAs_quiet t sc)
  rcases settle_acts (sets.delivered.trans calm.1.2) quiet.noCommits with same | acts
  · rw [same]
    exact ended
  · rw [acts]
    exact (ended.spares (sparesIdle_onReports 4 e)).quieted _

/-- Where the end of a task changes that task alone, nothing follows it. -/
theorem OnlyTask.settled {d e : Dev} {k : Nat} {t : Task} {sc : Sc} (only : OnlyTask k (some (endedAs t sc)) d e) (calm : Calm d) : settle e = e :=
  settle_calm e (only.calm calm (endedAs_quiet t sc))

end Sys2Proof.Machine

namespace Sys2Proof.Machine

/-! ### Task commands (R353, R354, R360 to R362) -/

section Served

variable {s : State} {m : MbxId} {code : Nat} {x : Mbx} {r : Req} {row : Cmd} {cmd : Scp} {e : Dev} {v : Option Task} (served : Served s m code x r)
include served

/-- A served command that every device state allows and whose late checks pass has its effect. -/
theorem served_acts_anywhere (listed : cmdOf code x.version = some row) (own : row.target = false) (anywhere : row.states = [])
    (field : cmd.field s.d ⟨m.toNat, x.kennel, x, r⟩ = none) (late : cmd.late s.d ⟨m.toNat, x.kennel, x, r⟩ = none)
    (act : cmd.act s.d ⟨m.toNat, x.kennel, x, r⟩ = { d := e }) : scp s.d m.toNat code true cmd = finish e m.toNat .ok 0 0 0 := by
  obtain ⟨-, turn⟩ := served
  have acts : actsOn code x r = x.kennel := by simp [actsOn, listed, own]
  have target : targetBad code x r = false := by simp [targetBad, listed, own]
  have state : stateOk s.d x r = true := by simp [stateOk, inTurn_cmd turn, listed, anywhere]
  have passes : scpCheck s.d code true cmd ⟨m.toNat, x.kennel, x, r⟩ = none := by simp [scpCheck, firstSome, check, target, field, state, late]
  simp only [scp, turn, acts, passes, act]

/-- A served command that sets its kennel's task, and leaves nothing to be done at once. -/
theorem served_onlyTask (effect : scp s.d m.toNat code true cmd = finish e m.toNat .ok 0 0 0) (only : OnlyTask x.kennel v s.d e) (own : ∀ t, v = some t → TaskQuiet t) :
    ∃ u, run (fun d => scp d m.toNat code true cmd) s = .next u ∧ u.d = finish e m.toNat .ok 0 0 0 ∧ OnlyTask x.kennel v s.d u.d := by
  have replies := only.before (unmoved_finish e m.toNat .ok 0 0 0)
  exact ⟨_, run_becomes served.1 effect (replies.calm served.1.2 own), rfl, replies⟩

end Served

/-- A command of firmware's own that sets a kennel's task, and leaves nothing to be done at once. -/
theorem run_onlyTask {s : State} {f : Dev → Dev} {k : Nat} {v : Option Task} (awake : Awake s.d) (only : OnlyTask k v s.d (f s.d)) (own : ∀ t, v = some t → TaskQuiet t) :
    ∃ u, run f s = .next u ∧ task u.d k = v ∧ OtherTasks s.d u.d k ∧ u.d.mem = s.d.mem :=
  ⟨_, run_becomes awake rfl (only.calm awake.2 own), only.own, only.others, only.mem⟩

theorem taskIs_held {d : Dev} {k : Nat} {t : Task} (held : task d k = some t) (p : Task → Bool) : taskIs d k p = p t := by simp only [taskIs, held]

/-- A manifest that has been loaded begins no commit and no round. -/
theorem TaskQuiet.created {t : Task} (quiet : TaskQuiet t) (d : Dev) (ss : List Sec) : TaskQuiet { loadManifest d t ss with st := .created } := quiet

/-- R353, R360, R361. -/
theorem tasksCreated : Claim.TasksCreated := by
  intro m s x r k t ecc awake
  refine ⟨fun served mine state passes live none' small => ?_, fun held creating => ⟨fun passes => ?_, fun aligned table denied => ?_⟩⟩
  · have late : taskCreateCmd.late s.d ⟨m.toNat, x.kennel, x, r⟩ = none := by
      refine firstSome_checks_none _ ?_
      simp [mine, none', live, stateCeiling, small]
    have raises := HostOnly.raise (setTask s.d x.kennel (some (newTask r))) (evTaskState x.kennel 0xF TaskState.creating.code .ok (newTask r).step0)
    have only := (onlyTask_setTask s.d x.kennel (some (newTask r))).before raises.unmoved
    have quiet : TaskQuiet (newTask r) := ⟨rfl, fun round => absurd round Bool.false_ne_true⟩
    obtain ⟨u, runs, reply, sets⟩ := served_onlyTask served (served_acts (cmd := taskCreateCmd) served rfl rfl state passes late rfl) only quiet.of_some
    refine ⟨u, newTask r, runs, mine ▸ sets.own, rfl, rfl, rfl, rfl, rfl, rfl, mine ▸ sets.others, ?_⟩
    have tells := finish_frame (raise (setTask s.d x.kennel (some (newTask r))) (evTaskState x.kennel 0xF TaskState.creating.code .ok (newTask r).step0)) m.toNat .ok 0 0 0
    rw [← reply] at tells
    rw [← tells, ← raises]
    rfl
  · exact run_onlyTask awake (creationDone_passes held creating passes) (TaskQuiet.created (awake.2.task held) _ _).of_some
  · exact run_onlyTask awake (creationDone_denied held creating aligned table denied ecc) (by simp)

/-- R353, R354, R362. -/
theorem tasksMove : Claim.TasksMove := by
  intro m s x r t held k others
  replace held : task s.d k = some t := held
  refine ⟨fun served state created here ring locked later => ?_, fun served state running started last => ?_, fun served state active => ?_, fun served st => ?_⟩
  · have quiet := served.1.2.task held
    have field : taskStartCmd.field s.d ⟨m.toNat, k, x, r⟩ = none := check_none (by simp [later])
    have late : taskStartCmd.late s.d ⟨m.toNat, k, x, r⟩ = none := by
      refine check_none ?_
      have notDraining : s.d.dstate ≠ .draining := by
        intro draining
        rw [draining] at state
        exact absurd state (by decide)
      simp [startState, taskIs_held held, created, here, ring, locked, notDraining]
    obtain ⟨u, runs, -, sets⟩ := served_onlyTask served (served_acts (cmd := taskStartCmd) served rfl rfl state field late rfl) (onlyTask_startTask held r.p0.toNat)
      (TaskQuiet.of_some quiet)
    exact ⟨u, runs, ⟨_, sets.own, rfl, rfl⟩, sets.others, sets.mem⟩
  · have quiet := served.1.2.task held
    have field : taskStopCmd.field s.d ⟨m.toNat, k, x, r⟩ = none := check_none (by simp [taskIs_held held, started, last])
    have late : taskStopCmd.late s.d ⟨m.toNat, k, x, r⟩ = none := check_none (by simp [taskIs_held held, running])
    have act : taskStopCmd.act s.d ⟨m.toNat, k, x, r⟩ = { d := moveTask (setTask s.d k (some { t with stopStep := some r.p0.toNat })) k .stopping .ok cmdCause } := by
      simp only [taskStopCmd, modTask_held held]
    obtain ⟨u, runs, -, sets⟩ := served_onlyTask served (served_acts (cmd := taskStopCmd) served rfl rfl state field late act) (onlyTask_moveTask ..)
      (TaskQuiet.of_some quiet)
    exact ⟨u, runs, sets.own, sets.others⟩
  · have late : taskAbortCmd.late s.d ⟨m.toNat, k, x, r⟩ = none := check_none (by simp [(runsTask_iff s.d k).2 ⟨t, held, active⟩])
    have effect := served_acts (cmd := taskAbortCmd) served rfl rfl state rfl late rfl
    have replies := unmoved_finish (endTask s.d k .aborted) m.toNat .ok 0 0 0
    refine ⟨_, run_settles served.1 effect, ((setsTask_endTask held active (by decide)).unmoved replies).ended served.1.2, fun whole => ?_⟩
    have only := (onlyTask_endTask held active (sc := .aborted) (by decide) whole).before replies
    rw [only.settled served.1.2]
    exact ⟨only.others, only.mem⟩
  · have late : taskDestroyCmd.late s.d ⟨m.toNat, k, x, r⟩ = none := check_none (by rcases st with st | st <;> simp [taskIs_held held, st])
    obtain ⟨u, runs, -, sets⟩ := served_onlyTask served (served_acts_anywhere (cmd := taskDestroyCmd) served rfl rfl rfl rfl late rfl)
      ((onlyTask_dropTask held .ok cmdCause).before (unmoved_trimUnits ..)) (by simp)
    exact ⟨u, runs, sets.own, sets.others, sets.mem⟩

end Sys2Proof.Machine

namespace Sys2Proof.Machine

/-! ### Batches, schedule rows and freeze entries (R306, R312, R363) -/

/-- Bytes of a kennel that stand at an address, with every other byte of the device as before. -/
def WrittenAt (d d' : Dev) (k a : Nat) (bs : List Byte) : Prop :=
  (∀ i, i < bs.length → Mem.byte (kmem d' k) (a + i) = bs.getD i 0) ∧ (∀ c, c < a ∨ a + bs.length ≤ c → Mem.byte (kmem d' k) c = Mem.byte (kmem d k) c)
    ∧ ∀ j, j ≠ k → kmem d' j = kmem d j

theorem writtenAt_write {d d' : Dev} {k a : Nat} {bs : List Byte} (own : kmem d' k = Mem.write (kmem d k) a bs) (others : ∀ j, j ≠ k → kmem d' j = kmem d j) :
    WrittenAt d d' k a bs := by
  refine ⟨fun i place => ?_, fun c out => ?_, others⟩
  · rw [own, Mem.byte_write_inside _ _ _ i place]
    simp [place]
  · rw [own, Mem.byte_write_outside _ _ _ _ out]

/-- What an access of n bytes of a kennel's near page needs to be written in place. -/
structure NearAt (d : Dev) (k a n : Nat) : Prop where
  some' : 0 < n
  inside : a % pageBytes + n ≤ pageBytes
  fits : a + n ≤ 2 ^ 44
  writes : canWrite d k a = true
  table : tableBad d k a = false
  near : (page d k (a / pageBytes)).st = .near
  sound : (page d k (a / pageBytes)).poison = []

section NearAt

variable {d : Dev} {k a n : Nat} (at' : NearAt d k a n)
include at'

theorem NearAt.allowed : accessCheck d k a n canWrite = none := accessCheck_none at'.fits at'.some' at'.inside (canWrite_base at'.writes)

/-- A payload of that many bytes at most is stored; tasks, reports and deliveries are the same. -/
theorem NearAt.stores {bs : List Byte} (short : bs.length ≤ n) : ∃ e, memWriteAll d k a bs .firmware .clean = (e, .done) ∧ WrittenAt d e k a bs
    ∧ (e.reports = d.reports ∧ e.delivered = d.delivered) ∧ e.tasks = d.tasks := by
  have inside := at'.inside
  obtain ⟨ms, ps, ses, mm, stored, own, others⟩ := memWriteAll_near bs .firmware (by omega) at'.table at'.writes at'.near at'.sound
  exact ⟨_, stored, writtenAt_write own others, ⟨rfl, rfl⟩, rfl⟩

end NearAt

/-- A batch is still to be read where its step has not been updated, or where a replay has asked for it (R363). -/
theorem batchRead_false {t : Task} {step mb : Nat}
    (notRead : stepInProgress t ≤ step ∨ t.batchReq.any (fun z => z.1 == step && z.2.1 == mb) = true) : batchRead t step mb = false := by
  rcases notRead with ahead | asked
  · simp [batchRead, ahead]
  · simp only [batchRead, asked, Bool.not_true, Bool.and_false]

/-- The batch `mb` of step `step` is no longer asked for. -/
def batchCame (t : Task) (step mb : Nat) : Task := { t with batchReq := t.batchReq.filter (fun y => !(y.1 == step && y.2.1 == mb)) }

/-- Freeze entries of a payload behind those of the task. -/
def freezesAdded (t : Task) (ws : List (List DWord)) : Task :=
  { t with freezes := t.freezes ++ ws.mapIdx (fun i w => { num := t.freezes.length + i, words := w }) }

theorem freezesAdded_words (t : Task) (ws : List (List DWord)) : (freezesAdded t ws).freezes.map (·.words) = t.freezes.map (·.words) ++ ws := by
  have words : (ws.mapIdx (fun i w => ({ num := t.freezes.length + i, words := w } : Row))).map (·.words) = ws := List.ext_getElem (by simp) (by simp)
  rw [freezesAdded, List.map_append, words]

section Inputs

variable {m : MbxId} {s : State} {x : Mbx} {r : Req} {pl : Payload} {t : Task} (held : task s.d x.kennel = some t) (complete : pl.complete = true)
include held complete

theorem batchPut_puts (served : Served s m 0x66 x r) (state : s.d.dstate ∈ [.running, .draining, .recovering]) (listed : fld r.p1 15 0 < batchCount t)
    (notRead : stepInProgress t ≤ r.p0.toNat ∨ t.batchReq.any (fun z => z.1 == r.p0.toNat && z.2.1 == fld r.p1 15 0) = true)
    (at' : NearAt s.d x.kennel (batchPlace t (fld r.p1 15 0)) (64 * r.plen)) :
    ∃ d', Answers s (.batchPut m pl) m d' .ok 0 0 0 ∧ WrittenAt s.d d' x.kennel (batchPlace t (fld r.p1 15 0)) (bytesIn m x.kennel x r pl)
      ∧ task d' x.kennel = some (batchCame t r.p0.toNat (fld r.p1 15 0)) := by
  have length : r.plen * 64 = 64 * r.plen := Nat.mul_comm ..
  obtain ⟨e, stored, written, calm, tasks⟩ := at'.stores (length ▸ payBytes_length ⟨m.toNat, x.kennel, x, r⟩ pl)
  have mine : task e x.kennel = some t := by rw [task, tasks]; exact held
  have field : (batchPutCmd pl).field s.d ⟨m.toNat, x.kennel, x, r⟩ = none := by
    have inTable : check (fld r.p1 15 0 ≥ batchCount t) .range = none := check_none (by simp [listed])
    simp only [batchPutCmd, batchField, held, inTable, length, at'.allowed, Option.or_none]
  have late : (batchPutCmd pl).late s.d ⟨m.toNat, x.kennel, x, r⟩ = none := check_none (by simp [taskIs_held held, batchRead_false notRead])
  have act : (batchPutCmd pl).act s.d ⟨m.toNat, x.kennel, x, r⟩ = { d := setTask e x.kennel (some (batchCame t r.p0.toNat (fld r.p1 15 0))) } := by
    simp only [batchPutCmd, held, stored, writeIn, partial', complete, if_true, modTask_held mine]
    rfl
  have before := served.1.2.task held
  have came : TaskQuiet (batchCame t r.p0.toNat (fld r.p1 15 0)) := before
  have quiet := (onlyTask_setTask e x.kennel (some (batchCame t r.p0.toNat (fld r.p1 15 0)))).calm (served.1.2.of_eq calm tasks) came.of_some
  exact ⟨_, served_answers (cmd := batchPutCmd pl) served rfl rfl state rfl field late act quiet, written, task_setTask ..⟩

theorem schedSet_writes (served : Served s m 0x67 x r) (state : s.d.dstate ∈ [.ready, .running, .draining, .recovering])
    (listed : (r.p0.toNat + r.plen) * 64 ≤ (t.data 0x08).length) (ahead : begun t (t.step0 + r.p0.toNat) = false)
    (at' : NearAt s.d x.kennel (((t.sec 0x08).map (·.addr)).getD 0 + 64 * r.p0.toNat) (64 * r.plen)) :
    ∃ d', Answers s (.schedSet m pl) m d' .ok 0 0 0
      ∧ WrittenAt s.d d' x.kennel (((t.sec 0x08).map (·.addr)).getD 0 + 64 * r.p0.toNat) (bytesIn m x.kennel x r pl) := by
  obtain ⟨e, stored, written, calm, tasks⟩ := at'.stores (Nat.mul_comm .. ▸ payBytes_length ⟨m.toNat, x.kennel, x, r⟩ pl)
  have field : (schedSetCmd pl).field s.d ⟨m.toNat, x.kennel, x, r⟩ = none := by
    have inTable : check ((r.p0.toNat + r.plen) * 64 > (t.data 0x08).length) .range = none := check_none (by simp [listed])
    simp only [schedSetCmd, schedField, held, rowsIn, at'.allowed, Option.or_none]
    exact inTable
  have late : (schedSetCmd pl).late s.d ⟨m.toNat, x.kennel, x, r⟩ = none := check_none (by simp [taskIs_held held, ahead])
  have act : (schedSetCmd pl).act s.d ⟨m.toNat, x.kennel, x, r⟩ = { d := e } := by simp only [schedSetCmd, held, stored]
  exact ⟨e, served_answers (cmd := schedSetCmd pl) served rfl rfl state complete field late act (served.1.2.of_eq calm tasks), written⟩

theorem freezeSet_adds (served : Served s m 0x68 x r) (state : s.d.dstate ∈ [.ready, .running, .draining, .recovering])
    (ahead : ∀ w ∈ freezeIn ⟨m.toNat, x.kennel, x, r⟩ pl, begun t (nth w 0) = false) :
    Answers s (.freezeSet m pl) m (setTask s.d x.kennel (some (freezesAdded t (freezeIn ⟨m.toNat, x.kennel, x, r⟩ pl)))) .ok 0 0 0 := by
  have late : (freezeSetCmd pl).late s.d ⟨m.toNat, x.kennel, x, r⟩ = none := by
    have free : (freezeIn ⟨m.toNat, x.kennel, x, r⟩ pl).any (fun w => begun t (nth w 0)) = false := List.any_eq_false.2 fun w inside => by simp [ahead w inside]
    exact check_none (by simp [taskIs_held held, free])
  have act : (freezeSetCmd pl).act s.d ⟨m.toNat, x.kennel, x, r⟩ =
      { d := setTask s.d x.kennel (some (freezesAdded t (freezeIn ⟨m.toNat, x.kennel, x, r⟩ pl))) } := by
    simp only [freezeSetCmd, modTask_held held]
    rfl
  have before := served.1.2.task held
  have added : TaskQuiet (freezesAdded t (freezeIn ⟨m.toNat, x.kennel, x, r⟩ pl)) := before
  have quiet := (onlyTask_setTask s.d x.kennel _).calm served.1.2 added.of_some
  exact served_answers (cmd := freezeSetCmd pl) served rfl rfl state complete rfl late act quiet

end Inputs

/-- A batch that has been waited for in vain ends its task. -/
theorem batchTimeout_ends {d : Dev} {k : Nat} {t : Task} (held : task d k = some t)
    (late : t.batchReq.any (fun z => due d z.2.2 (ms (1000 * t.batchWait))) = true) : batchTimeout d k = endTask d k .timeout := by
  simp only [batchTimeout, taskIs_held held, late, if_true]

/-- R306, R312, R363. -/
theorem batchesAndRows : Claim.BatchesAndRows := by
  intro m s x r pl k t mine held complete bs nearAt written sched
  have held' : task s.d x.kennel = some t := mine ▸ held
  have place {a n : Nat} : nearAt a n → NearAt s.d x.kennel a n := fun ⟨some', inside, fits, writes, table, near, sound⟩ => by
    rw [mine]
    exact ⟨some', inside, fits, writes, table, near, sound⟩
  have bytes : bs = bytesIn m x.kennel x r pl := by rw [mine]
  refine ⟨fun served state listed notRead at' => ?_, fun served state listed ahead at' => ?_, fun served state ahead => ?_, fun awake active late => ?_⟩
  · obtain ⟨d', answers, stands, task'⟩ := batchPut_puts held' complete served state listed notRead (place at')
    rw [← bytes, mine] at stands
    exact ⟨d', answers, stands, mine ▸ task'⟩
  · obtain ⟨d', answers, stands⟩ := schedSet_writes held' complete served state listed ahead (place at')
    rw [← bytes, mine] at stands
    exact ⟨d', answers, stands⟩
  · have entries : freezeIn ⟨m.toNat, x.kennel, x, r⟩ pl = itemsOf bs.length 0 0x09 bs := by rw [bytes]; rfl
    have answers := freezeSet_adds held' complete served state (entries ▸ ahead)
    rw [entries, mine] at answers
    exact ⟨_, answers, freezesAdded_words .., rfl⟩
  · have ends := batchTimeout_ends held late
    refine ⟨_, run_settles awake ends, (setsTask_endTask held active (by decide)).ended awake.2, fun whole => ?_⟩
    have only := onlyTask_endTask held active (sc := .timeout) (by decide) whole
    rw [only.settled awake.2]
    exact only.others

end Sys2Proof.Machine

namespace Sys2Proof.Proofs

open Sys2Proof.Machine

/-- Settles O44: each command sets the task of its own kennel and leaves nothing to be done at once; an ending that leaves rows to be finished may report, and
the task that has ended stays so while firmware acts on the reports. -/
theorem taskCommandsAct : Obligations.TaskCommandsAct := ⟨tasksCreated, tasksMove, batchesAndRows⟩

end Sys2Proof.Proofs
